-- ==== Sys2Proof/Word.lean ====
section
/-! DEFINITION. The word types of the Tarbec 4810: bytes, and the free-running 16-bit and 32-bit counts that
software reads as words. Counts that saturate, positions and lengths are plain naturals (their limits are applied by
the operations of Machine/Ops.lean). -/

namespace Sys2Proof

/-- One byte of a memory image or of a bus beat. -/
abbrev Byte := BitVec 8

/-- A free-running 16-bit count (the run number, R138). -/
abbrev Word16 := BitVec 16

/-- A free-running 32-bit count or a 32-bit word of memory (post word, producers, sequence words: R160, R167). -/
abbrev Word32 := BitVec 32

/-- A byte address of the 40-bit bus (R143). -/
abbrev BusAddr := BitVec 40

end Sys2Proof
end

