-- ==== Sys2Proof/Syntax.lean ====
section
/-! DEFINITION. The commands of the part: one constructor of `Instr` per row of spec/opcode_table.json, in the table's
order, and the operand types they need. A command is one step of the part (95_what_each_step_holds.md): an edge or a
period on a pin, a request at the C-port, or the taking of a message that stands between two blocks. A message's own
contents travel in the machine's state (`Machine.Wires`), so the row that takes it carries no copy of them; where a
block has eight alike, the row names the lane. -/

namespace Sys2Proof

/-- Lanes 0 to 7 (00_scope.md, Numbering). -/
abbrev LaneId := Fin 8

/-- Bus sources 0 to 15 (00_scope.md, Numbering). -/
abbrev SourceId := Fin 16

/-- One request of the split-transaction bus, less its kind: source, byte address, length in 8-byte beats, one enable
per byte, and the data of a write, which is empty for a read (R143). -/
structure Request where
  source  : SourceId
  addr    : BusAddr
  beats   : Nat
  enables : List Bool
  data    : List Byte
  deriving DecidableEq, Repr

/-- The blocks that send tally increments to the Shift Unit (R136). -/
inductive Sender where
  | travel
  | lane (k : LaneId)
  | assembler
  | planner
  | strike
  | grading
  | path
  | writer
  deriving DecidableEq, Repr

/-- The blocks that raise faults: the Path Unit (R149) and the Lane Units (R35). -/
inductive FaultSender where
  | path
  | lane (k : LaneId)
  deriving DecidableEq, Repr

/-- The commands of the part, one constructor per row of spec/opcode_table.json, in the table's order. -/
inductive Instr where
  /-- POWER_ON (R142). -/
  | powerOn
  /-- WARM_RESET: assertion of RESET_N (R173). -/
  | warmReset
  /-- RESET_END: the end of power-on or of warm reset, with the ANCHOR_SEL straps and the encoder levels sampled then
  (R146, R16, R176). -/
  | resetEnd (anchorSel : Fin 16) (encA encB : Bool)
  /-- ENCODER_EDGE: the new levels of ENC_A and ENC_B (R2). -/
  | encoderEdge (encA encB : Bool)
  /-- TB32K_PERIOD (R130). -/
  | tb32kPeriod
  /-- UNIT_TICK (R11). -/
  | unitTick
  /-- STOP_TIMER_EXPIRY (R12). -/
  | stopTimerExpiry
  /-- SECOND_END (R130). -/
  | secondEnd
  /-- TRAVEL_SECOND_TICK (R14). -/
  | travelSecondTick
  /-- WRITER_SECOND_TICK (R171). -/
  | writerSecondTick
  /-- LANE_LINE_TRIGGER at lane k (R27). -/
  | laneLineTrigger (k : LaneId)
  /-- LANDING_WRITE at lane k (R20). -/
  | landingWrite (k : LaneId)
  /-- ANALYSIS_BEGIN (R39). -/
  | analysisBegin
  /-- ANALYSIS_COMPLETION (R41). -/
  | analysisCompletion
  /-- GAP_LINE from lane k (R77). -/
  | gapLine (k : LaneId)
  /-- SETTLED_LINE from lane k (R61). -/
  | settledLine (k : LaneId)
  /-- JOIN (R62). -/
  | join
  /-- SCAN (R74). -/
  | scan
  /-- MARK (R74). -/
  | mark
  /-- GATHER (R75). -/
  | gather
  /-- HELD_FLAW (R91). -/
  | heldFlaw
  /-- SCAN_ANSWER (R96). -/
  | scanAnswer
  /-- JOINED_LINE (R89). -/
  | joinedLine
  /-- PLANNER_RISE (R86). -/
  | plannerRise
  /-- FLUSH_END (R98). -/
  | flushEnd
  /-- STRIKE_CLAIM (R104). -/
  | strikeClaim
  /-- PIECE_REMOVAL (R88). -/
  | pieceRemoval
  /-- WAITING_LOG_MOVE (R125). -/
  | waitingLogMove
  /-- RUN_END_COMPLETION (R162). -/
  | runEndCompletion
  /-- HEAD_OFFER (R103). -/
  | headOffer
  /-- STRIKE_RISE (R111). -/
  | strikeRise
  /-- STRIKE_GRANT (R105). -/
  | strikeGrant
  /-- CLAIM_WITHDRAWAL (R104). -/
  | claimWithdrawal
  /-- GRADING_HANDOFF (R116). -/
  | gradingHandoff
  /-- GRADING_BEGIN (R116). -/
  | gradingBegin
  /-- GATHER_ANSWER (R123). -/
  | gatherAnswer
  /-- GRADE_ANSWER (R109). -/
  | gradeAnswer
  /-- GRADING_INCREMENTS (R137). -/
  | gradingIncrements
  /-- TALLY_INCREMENT from one block (R136). -/
  | tallyIncrement (b : Sender)
  /-- STAMP (R123). -/
  | stamp
  /-- PLATE_OFFER (R169). -/
  | plateOffer
  /-- PLATE_ACCEPTED (R125). -/
  | plateAccepted
  /-- PLATE_FULL (R125). -/
  | plateFull
  /-- PLATE_ROOM (R126). -/
  | plateRoom
  /-- SHIFT_REPORT_OFFER (R169). -/
  | shiftReportOffer
  /-- SHIFT_ACCEPTED (R140). -/
  | shiftAccepted
  /-- SHIFT_FULL (R140). -/
  | shiftFull
  /-- SHIFT_ROOM (R140). -/
  | shiftRoom
  /-- FLAW_RECORD (R169). -/
  | flawRecord
  /-- FAULT from one block (R170). -/
  | fault (b : FaultSender)
  /-- RELEASE_REQUEST (R168). -/
  | releaseRequest
  /-- REWRITE_ANNOUNCEMENT (R156). -/
  | rewriteAnnouncement
  /-- COMMAND_TAKE (R160). -/
  | commandTake
  /-- CONFIGURE (R163). -/
  | configure
  /-- START_RUN (R164). -/
  | startRun
  /-- STOP_RUN (R164). -/
  | stopRun
  /-- RESET_RUN (R164). -/
  | resetRun
  /-- SET_CLOCK (R132). -/
  | setClock
  /-- CLOSE_SHIFT (R134). -/
  | closeShift
  /-- LANE_ENABLE (R30). -/
  | laneEnable
  /-- LANE_DISABLE (R30). -/
  | laneDisable
  /-- MANUAL_CUT (R97). -/
  | manualCut
  /-- BAD_COMMAND (R160). -/
  | badCommand
  /-- COMMAND_COMPLETION (R161). -/
  | commandCompletion
  /-- BUS_READ: a read presented at the C-port (R143). -/
  | busRead (q : Request)
  /-- BUS_WRITE: a write presented at the C-port (R148). -/
  | busWrite (q : Request)
  /-- POST_WORD_WRITE: a write that touches the post word, presented at the C-port (R151). -/
  | postWordWrite (q : Request)
  /-- SEEN_WORD_WRITE: the copy of a forwarded write that touches the seen word (R172). -/
  | seenWordWrite
  /-- SEQUENCE_WORD_WRITE: a write that touches a live group's sequence word, presented at the C-port (R166). -/
  | sequenceWordWrite (q : Request)
  /-- TAKE_VIEW_READ: a read of a take window, presented at the C-port (R155). -/
  | takeViewRead (q : Request)
  /-- PEEK_VIEW_READ: a read of a peek window, presented at the C-port (R154). -/
  | peekViewRead (q : Request)
  /-- VERDICT_REQUEST (R151). -/
  | verdictRequest
  /-- VERDICT (R151). -/
  | verdict
  /-- M_PORT_SEND (R157). -/
  | mPortSend
  /-- MEMORY_ANSWER (R144). -/
  | memoryAnswer
  deriving DecidableEq, Repr

end Sys2Proof
end

