-- ==== Sys2Proof/Decode.lean ====
section
/-! DEFINITION. The commands a word spells by the table's bits. No row of spec/opcode_table.json gives bits: the part's
steps are edges, requests and messages, not encoded words, so no word spells any of them. -/

namespace Sys2Proof

/-- The command that the bits of w spell: none, since the table gives no row any bits. -/
def decodeTableWord (nbits w : Nat) : Option Instr :=
  match nbits, w with
  | _, _ => none

end Sys2Proof
end

