-- ==== Sys2Proof/Config.lean ====
section
/-! DEFINITION. What the part fixes once for every run: the sizes the spec gives its tables and queues, the one free
value the spec leaves open, and what a byte of the image DRAM that nothing has written reads as. -/

namespace Sys2Proof.Config

/-- What a DRAM byte that nothing has written reads as. DESIGN CHOICE, unsafe: the spec gives the DRAM no power-on
contents (notes/assumptions/3). -/
abbrev dramFill : Byte := 0

/-- The number that follows 4,294,967,295 in the flaw, blob and piece numberings of a run. The spec gives these numbers
32 bits and says only that they rise by one (R64, R70, R80): what follows the last 32-bit number is left open, so it is
a free value (notes/assumptions/4). -/
opaque pastLastNumber : Nat → Word32

/-- Open blobs held at once (R66). -/
abbrev blobLimit : Nat := 96

/-- Entries of the Flaw Table (R73). -/
abbrev flawTableLimit : Nat := 512

/-- Entries of the gap list (R77). -/
abbrev gapListLimit : Nat := 64

/-- Runs of one lane-line (R56). -/
abbrev runLimit : Nat := 64

/-- Entries of one join queue (R42). -/
abbrev joinQueueLimit : Nat := 8

/-- Columns of a lane's background store (R58). -/
abbrev columnLimit : Nat := 8192

/-- Cuts of the cut queue (R81). -/
abbrev cutQueueLimit : Nat := 32

/-- Records of the piece table (R80). -/
abbrev pieceTableLimit : Nat := 40

/-- Entries of the strike track (R105). -/
abbrev strikeTrackLimit : Nat := 4

/-- Windows of the gate list (R110). -/
abbrev gateListLimit : Nat := 8

/-- Flaw numbers of a top-flaw list (R122). -/
abbrev topFlawLimit : Nat := 16

/-- Entries of the pass-through queue (R143). -/
abbrev passQueueLimit : Nat := 32

/-- Transactions of the internal queue (R157). -/
abbrev internalQueueLimit : Nat := 16

/-- Slots of the command ring (R160). -/
abbrev commandSlots : Nat := 16

/-- The bytes of one bus beat (R143). -/
abbrev beatBytes : Nat := 8

/-- The number of addresses of the bus, 2 to the 40 (R143). -/
abbrev addressSpace : Nat := 2 ^ 40

/-- Size of the anchor region, 64 KiB (R146). -/
abbrev anchorSize : Nat := 65536

end Sys2Proof.Config
end

