-- ==== Sys2Proof/Machine/State.lean ====
section
/-! DEFINITION. The machine's state as plain data: every piece of state the spec gives the eleven blocks of the part, the
messages that stand between blocks, the image DRAM behind the M-port, the queue of waiting commands, and the state right
after power-on. Counts that only rise and saturate, positions and lengths are naturals; free-running counts are words. -/

namespace Sys2Proof.Machine

/-- No command of this part stops with a fault: every step the spec describes has an effect, and a bus request or an
event that is not there to be taken changes nothing (R143, notes/assumptions/2). Hence no constructors; safe. -/
inductive Fault where
  deriving DecidableEq, Repr

/-- Reasons for which a command has no meaning in the model. -/
inductive Refusal where
  /-- Raised by an arm of `exec` whose row has no meaning yet; safe, since the machine stops. No arm raises it now. -/
  | notModelled (mnemonic : String)
  deriving DecidableEq, Repr

/-! ## Names shared by several blocks -/

/-- Run states (R162). -/
inductive RunState where
  | transparent | configured | running | draining
  deriving DecidableEq, Repr

/-- Lane states (R29, chapter 2.6). -/
inductive LaneState where
  | off | waiting | locking | tracking | dropout | faulted
  deriving DecidableEq, Repr

/-- Capture modes (R25). -/
inductive Mode where
  | seed | lock | track
  deriving DecidableEq, Repr

/-- Causes of gap lines (R33), in the order of the shift report. -/
inductive GapCause where
  | missed | torn | overrun | dropout | faulted | disabled | locking | blind
  deriving DecidableEq, Repr

/-- Severities, which are also run levels and plan levels (R49). -/
inductive Severity where
  | minor | major | reject
  deriving DecidableEq, Repr

/-- Flaw classes (R71). -/
inductive FlawClass where
  | point | streak | band | area
  deriving DecidableEq, Repr

/-- Polarities (R55, R70). -/
inductive Polarity where
  | dark | bright | mixed
  deriving DecidableEq, Repr

/-- Dispositions of a flaw (R72). -/
inductive Disposition where
  | edge | orphan | held | unheld
  deriving DecidableEq, Repr

/-- Kinds of a piece whose tail is fixed (R80); SIZE1 to SIZE4 are sizes 0 to 3. -/
inductive PieceKind where
  | lead
  | size (i : Fin 4)
  | cullet
  | manual
  | overlength
  | runEnd
  deriving DecidableEq, Repr

/-- Kinds of a cut (R81). -/
inductive CutKind where
  | runStart | size | trim | manual | overlength | runEnd
  deriving DecidableEq, Repr

/-- Grades (R119). -/
inductive Grade where
  | a | b | c | u | x
  deriving DecidableEq, Repr

/-- The four log rings (chapter 10.7). -/
inductive LogId where
  | flaw | plate | shift | fault
  deriving DecidableEq, Repr

/-- The five live groups (chapter 10.5). -/
inductive GroupId where
  | detect | plan | grade | strike | clock
  deriving DecidableEq, Repr

/-- The two windows of a log (R154). -/
inductive ViewKind where
  | take | peek
  deriving DecidableEq, Repr

/-- Fault kinds (R149, R35). -/
inductive FaultKind where
  | region | viewWrite | viewRight | lockedField | postOverrun | groupInvalid | slotCross | tornLine
  deriving DecidableEq, Repr

/-- Refusal reasons of commands (R163, R164, R165, R160), in the order of their codes. -/
inductive Reason where
  | travel | laneGeometry | ownedOverlap | ringLayout | sourceTable | views | span | sizes | thresholdOrder | strikeGate
  | runActive | notConfigured | notRunning | badCommand | badTime | tooLate | tooSoon | notInspected | noRoom
  deriving DecidableEq, Repr

/-- Command kinds (R160, R174). -/
inductive CommandKind where
  | configure | startRun | stopRun | resetRun | setClock | laneEnable | laneDisable | manualCut | closeShift
  deriving DecidableEq, Repr

/-- Opening slots of a tally (R139). -/
inductive OpeningSlot where
  | entry (i : Fin 4)
  | manual
  | reset
  deriving DecidableEq, Repr

/-- Kinds of a bus request (R143). -/
inductive ReqKind where
  | read | write
  deriving DecidableEq, Repr

/-- A message between two blocks, with the run reset count at which it was sent. A message whose count is not the current
one belongs to a run that has ended, and its taker discards it (R16, R112, R128, notes/assumptions/5). -/
structure Tagged (α : Type) where
  epoch : Nat
  msg   : α
  deriving DecidableEq, Repr

/-! ## Configuration -/

/-- The travel fields (R1). -/
structure TravelFields where
  pitch   : Nat
  scale   : Nat
  tStop   : Nat
  bLeads  : Bool
  deriving DecidableEq, Repr

/-- The geometry of one lane (R18). -/
structure LaneGeometry where
  enabledAtStart : Bool
  source         : Nat
  base           : Nat
  slots          : Nat
  stride         : Nat
  length         : Nat
  origin         : Nat
  pitch          : Nat
  mirrored       : Bool
  ownLo          : Nat
  ownHi          : Nat
  deriving DecidableEq, Repr

/-- The lane timing fields (R19). -/
structure LaneTiming where
  lag       : Nat
  lockLines : Nat
  stall     : Nat
  deriving DecidableEq, Repr

/-- The role of a source (R147). -/
inductive Role where
  | other
  | controller
  | camera (k : LaneId)
  deriving DecidableEq, Repr

/-- The rights of a source (R147). -/
structure Rights where
  plainWrite   : Bool
  landingOwn   : Bool
  landingAny   : Bool
  configWrite  : Bool
  commandWrite : Bool
  viewRead     : Bool
  deriving DecidableEq, Repr

/-- One entry of the source table (R147). -/
structure SourceEntry where
  role   : Role
  rights : Rights
  deriving DecidableEq, Repr

/-- The view aperture fields; window offsets in the log order Flaw, Plate, Shift, Fault (R146). -/
structure ViewFields where
  base    : Nat
  sizeMiB : Nat
  takeAt  : Vector Nat 4
  peekAt  : Vector Nat 4
  deriving DecidableEq, Repr

/-- The fields of one log ring (R163). -/
structure LogFields where
  base    : Nat
  entries : Nat
  notify  : Nat
  deriving DecidableEq, Repr

/-- The configuration shadow: the fixed fields of the last successful CONFIGURE (R163). -/
structure Shadow where
  travel  : TravelFields
  lanes   : Vector LaneGeometry 8
  timing  : LaneTiming
  netLo   : Nat
  netHi   : Nat
  dCut    : Nat
  dCommit : Nat
  minTrim : Nat
  sources : Vector SourceEntry 16
  views   : ViewFields
  logs    : Vector LogFields 4
  deriving DecidableEq, Repr

/-- The DETECT group: pixel fields (R44) and shape fields (R60). -/
structure DetectGroup where
  d1 : Nat
  d2 : Nat
  d3 : Nat
  u1 : Nat
  u2 : Nat
  u3 : Nat
  shift      : Nat
  bridge     : Nat
  blindFloor : Nat
  holdLimit  : Nat
  blindLimit : Nat
  alongGap   : Nat
  crossBridge : Nat
  maxLength  : Nat
  pointSize  : Nat
  deriving DecidableEq, Repr

/-- The PLAN group (R83). The plan level is kept as its code, 2 MAJOR or 3 REJECT (R174). -/
structure PlanGroup where
  count     : Nat
  level     : Nat
  margin    : Nat
  l1 : Nat
  l2 : Nat
  l3 : Nat
  l4 : Nat
  deriving DecidableEq, Repr

/-- The GRADE group (R115). Caps are kept as their codes, 0 A, 1 B, 2 C (R174). -/
structure GradeGroup where
  majorMaxA : Nat
  majorMaxB : Nat
  dA : Nat
  dB : Nat
  capPoint  : Nat
  capStreak : Nat
  capBand   : Nat
  capArea   : Nat
  deriving DecidableEq, Repr

/-- A gate mask: the grades whose pieces are diverted (R102). -/
structure GateMask where
  x : Bool
  c : Bool
  u : Bool
  b : Bool
  deriving DecidableEq, Repr

/-- The STRIKE group (R102). -/
structure StrikeGroup where
  wScore : Nat
  dSnap  : Nat
  wSnap  : Nat
  dGate  : Nat
  mask   : GateMask
  deriving DecidableEq, Repr

/-- One shift start entry: hour, minute and the weekdays of its mask (R131). -/
structure ShiftStart where
  hour   : Nat
  minute : Nat
  days   : Vector Bool 7
  deriving DecidableEq, Repr

/-- The CLOCK group: trim, and the entries in use (R131). -/
structure ClockGroup where
  trim    : Int
  count   : Nat
  entries : Vector ShiftStart 4
  deriving DecidableEq, Repr

/-- A copy of a live group with its sequence value (R166). -/
structure Copy (α : Type) where
  fields : α
  seq    : Word32
  deriving DecidableEq, Repr

/-- The active and the eligible copy of a live group, each of which may be absent (R166). -/
structure Copies (α : Type) where
  active   : Option (Copy α)
  eligible : Option (Copy α)
  deriving DecidableEq, Repr

/-- A group's place in the anchor mirror: its 256 bytes, field bytes and sequence word (R166). -/
structure GroupMirror where
  image : List Byte
  deriving DecidableEq, Repr

/-! ## Calendar -/

/-- A date and a time of day (R129). -/
structure Calendar where
  year    : Nat
  month   : Nat
  day     : Nat
  weekday : Nat
  hour    : Nat
  minute  : Nat
  second  : Nat
  deriving DecidableEq, Repr

/-! ## Travel Unit (chapter 1) -/

/-- Motion states (R12). -/
inductive Motion where
  | moving | stopped
  deriving DecidableEq, Repr

/-- The Travel Unit's state. `pulses` counts the pulses emitted on LINE_TRIG: the model's record of that output. -/
structure Travel where
  fields        : Option TravelFields
  refA          : Bool
  refB          : Bool
  acc           : Int
  high          : Nat
  count         : Nat
  nextPoint     : Option Nat
  positionLimit : Bool
  motion        : Motion
  timer         : Nat
  heldPos       : Nat
  speed         : Nat
  quadErrors    : Nat
  divider       : Nat
  pulses        : Nat
  deriving DecidableEq, Repr

/-- The position P: floor(H / 65,536), never stored apart from H (chapter 1). -/
def Travel.pos (t : Travel) : Nat := t.high / 65536

/-! ## Lane Units (chapter 2) -/

/-- The two assembly buffers of a lane (R23). -/
inductive BufferId where
  | a | b
  deriving DecidableEq, Repr

/-- Buffer states (R26). -/
inductive BufferState where
  | free | filling | ready
  deriving DecidableEq, Repr

/-- An assembly buffer: its state, the line it holds, that line's capture mode once complete, and the pixels captured. -/
structure Buffer where
  state  : BufferState
  line   : Nat
  mode   : Option Mode
  pixels : List Byte
  deriving DecidableEq, Repr

/-- The line in progress (chapter 2). -/
structure LineInProgress where
  line   : Nat
  slot   : Nat
  buffer : BufferId
  next   : Nat
  deriving DecidableEq, Repr

/-- A declared line above the settled line, with its gap cause (R28). -/
structure DeclaredLine where
  line  : Nat
  cause : GapCause
  deriving DecidableEq, Repr

/-- The counters of a lane (R29). -/
structure LaneCounters where
  completed : Nat
  declared  : Nat
  stale     : Nat
  torn      : Nat
  overruns  : Nat
  dropouts  : Nat
  deriving DecidableEq, Repr

/-- A Lane Unit's state. -/
structure Lane where
  enabled   : Bool
  state     : LaneState
  accounted : Nat
  trigger   : Nat
  runState  : RunState
  line      : Option LineInProgress
  bufA      : Buffer
  bufB      : Buffer
  declared  : List DeclaredLine
  lock      : Nat
  misses    : Nat
  seeded    : Bool
  settled   : Nat
  counters  : LaneCounters
  deriving DecidableEq, Repr

/-- The copy of a forwarded landing write: source, address, span in bytes, enables and data (R153). -/
structure LandingCopy where
  source  : SourceId
  addr    : Nat
  span    : Nat
  enables : List Bool
  data    : List Byte
  deriving DecidableEq, Repr

/-- What a lane hands the Blob Assembler: a gap line, or its settled line (R32). -/
inductive LaneMsg where
  | gap (line : Nat)
  | settled (line : Nat)
  deriving DecidableEq, Repr

/-- A fault on its way to the Record Writer: source, kind, and the two details of R174. -/
structure FaultMsg where
  source  : SourceId
  kind    : FaultKind
  detailA : Word16
  detailB : BitVec 64
  deriving DecidableEq, Repr

/-! ## Pixel Engine (chapter 3) -/

/-- An entry of the ready list (R38). -/
structure ReadyEntry where
  lane   : LaneId
  line   : Nat
  buffer : BufferId
  mode   : Mode
  deriving DecidableEq, Repr

/-- A run of flagged columns (R55). -/
structure PixelRun where
  lane     : LaneId
  line     : Nat
  first    : Nat
  last     : Nat
  polarity : Polarity
  level    : Severity
  peak     : Nat
  sum      : Nat
  lo       : Nat
  hi       : Nat
  crowded  : Bool
  deriving DecidableEq, Repr

/-- An entry of a join queue (R42). -/
structure JoinEntry where
  line  : Nat
  blind : Bool
  runs  : List PixelRun
  deriving DecidableEq, Repr

/-- The line in analysis, with the DETECT fields taken at its begin (R40). -/
structure Analysis where
  entry  : ReadyEntry
  detect : DetectGroup
  deriving DecidableEq, Repr

/-- What the engine keeps for one lane: backgrounds in 8.8 grey and hold counters, one per column, the join queue, and
the crowded-line counter (chapter 3). -/
structure EngineLane where
  background : List Nat
  hold       : List Nat
  join       : List JoinEntry
  crowded    : Nat
  deriving DecidableEq, Repr

/-- The Pixel Engine's state: ANALYSING when a line is in analysis, IDLE when none is (R39). -/
structure Engine where
  analysis : Option Analysis
  ready    : List ReadyEntry
  lanes    : Vector EngineLane 8
  deriving DecidableEq, Repr

/-! ## Blob Assembler (chapter 4) -/

/-- Flags of a blob and of the flaw it becomes (R64, R70). -/
structure BlobFlags where
  merged      : Bool
  crowded     : Bool
  continued   : Option Nat
  partialView : Bool
  truncated   : Bool
  forced      : Bool
  deriving DecidableEq, Repr

/-- An open blob record (R64). -/
structure Blob where
  id      : Nat
  first   : Nat
  front   : Nat
  frontLo : Nat
  frontHi : Nat
  lo      : Nat
  hi      : Nat
  dark    : Bool
  bright  : Bool
  level   : Severity
  peak    : Nat
  sum     : Nat
  area    : Nat
  lanes   : Vector Bool 8
  flags   : BlobFlags
  deriving DecidableEq, Repr

/-- A continuation marker (R68). -/
structure Marker where
  lo   : Nat
  hi   : Nat
  flaw : Nat
  deriving DecidableEq, Repr

/-- An entry of the Flaw Table (R73). -/
structure FlawEntry where
  number    : Nat
  start     : Nat
  stop      : Nat
  midpoint  : Nat
  severity  : Severity
  cls       : FlawClass
  polarity  : Polarity
  flags     : BlobFlags
  late      : Bool
  unplanned : Bool
  deriving DecidableEq, Repr

/-- An entry of the gap list; a lane of none is ALL. `newest` marks the newest entry of the list and `laneNewest` the
newest entry of its lane (R77). -/
structure GapEntry where
  lane       : Option LaneId
  first      : Nat
  last       : Nat
  newest     : Bool
  laneNewest : Bool
  deriving DecidableEq, Repr

/-- The overflow span [lo, hi] (R76). -/
structure OverflowSpan where
  lo : Nat
  hi : Nat
  deriving DecidableEq, Repr

/-- The Blob Assembler's state. `numbersPast` is the model's own count of the free values taken for numbers past the last
32-bit one (notes/assumptions/4). -/
structure Assembler where
  settled    : Vector Nat 8
  joined     : Nat
  blobs      : List Blob
  nextBlob   : Nat
  markers    : List Marker
  nextFlaw   : Nat
  table      : List FlawEntry
  gradedTail : Option Nat
  overflow   : Option OverflowSpan
  gaps       : List GapEntry
  forced     : Nat
  truncated  : Nat
  numbersPast : Nat
  deriving DecidableEq, Repr

/-- A Flaw Log record: the run number, the items of R70, and the disposition (R72). -/
structure FlawRecord where
  run         : Word16
  number      : Nat
  disposition : Disposition
  severity    : Severity
  cls         : FlawClass
  polarity    : Polarity
  flags       : BlobFlags
  lanes       : Vector Bool 8
  first       : Nat
  front       : Nat
  start       : Nat
  stop        : Nat
  lo          : Nat
  hi          : Nat
  peak        : Nat
  sum         : Nat
  area        : Nat
  deriving DecidableEq, Repr

/-- The answer to a gather (R75). -/
structure GatherAnswer where
  entries  : List FlawEntry
  overlap  : Nat
  overflow : Bool
  deriving DecidableEq, Repr

/-- What the assembler hands the Cut Planner (R62, R69, R74). -/
inductive AsmMsg where
  | heldFlaw (f : FlawEntry)
  | scanAnswer (fs : List FlawEntry)
  | joined (line : Nat)
  | flushEnd
  deriving DecidableEq, Repr

/-! ## Cut Planner (chapter 5) -/

/-- States of a piece whose tail is fixed (R80). -/
inductive PieceState where
  | planned | committed | struck | waitingLog
  deriving DecidableEq, Repr

/-- A piece whose tail is fixed (R80). -/
structure Piece where
  number : Nat
  kind   : PieceKind
  head   : Option Nat
  tail   : Nat
  state  : PieceState
  sizes  : PlanGroup
  deriving DecidableEq, Repr

/-- The open piece: its head h and its planned sizes (R84). -/
structure OpenPiece where
  head  : Nat
  sizes : PlanGroup
  deriving DecidableEq, Repr

/-- A cut of the cut queue (R81). -/
structure Cut where
  pos       : Nat
  kind      : CutKind
  committed : Bool
  deriving DecidableEq, Repr

/-- Run-end states (R98). -/
inductive RunEnd where
  | none | waiting | fixed
  deriving DecidableEq, Repr

/-- The Cut Planner's state. `markedLate` and `markedUnplanned` are the model's own: the flaws this run has already
flagged, so that each is counted at most once (R95, notes/assumptions/12); so is `numbersPast`, its count of the free
values taken for piece numbers past the last 32-bit one (notes/assumptions/4). -/
structure Planner where
  pieces          : List Piece
  openPiece       : Option OpenPiece
  cuts            : List Cut
  nextPiece       : Nat
  frontier        : Nat
  cf              : Option Int
  overdue         : Bool
  runEnd          : RunEnd
  markedLate      : List Nat
  markedUnplanned : List Nat
  numbersPast     : Nat
  deriving DecidableEq, Repr

/-- What the Planner asks of the assembler: a scan of [a, b) at a severity floor, or a mark (R74). -/
inductive PlanReq where
  | scan (a b : Nat) (floor : Nat)
  | markLate (flaw : Nat)
  | markUnplanned (flaw : Nat)
  deriving DecidableEq, Repr

/-- What the Planner hands the Strike Unit: the head of its queue, a grant with the struck piece and its cut, or the
withdrawal of the claim (R103, R104). -/
inductive StrikeMsg where
  | offer (c : Option Nat)
  | grant (number : Nat) (kind : PieceKind) (head : Option Nat) (tail : Nat)
  | withdrawal
  deriving DecidableEq, Repr

/-! ## Strike Unit (chapter 6) -/

/-- Score states of a track entry (R105). -/
inductive ScoreState where
  | on | done
  deriving DecidableEq, Repr

/-- Snap states of a track entry (R105). -/
inductive SnapState where
  | waiting | on | done
  deriving DecidableEq, Repr

/-- An entry of the strike track (R105). -/
structure TrackEntry where
  cut       : Nat
  strike    : Nat
  scoreEnd  : Nat
  snapStart : Nat
  snapEnd   : Nat
  score     : ScoreState
  snap      : SnapState
  deriving DecidableEq, Repr

/-- A gate window (R110). -/
structure GateWindow where
  start   : Nat
  stop    : Nat
  arrived : Bool
  deriving DecidableEq, Repr

/-- An output line: its level, and the number of times it has been asserted. The count is the model's record of the
pulses of R106 and R107, whose release falls within the step that asserts them (notes/assumptions/9). -/
structure OutputLine where
  level    : Bool
  asserted : Nat
  deriving DecidableEq, Repr

/-- The Strike Unit's state. CLAIMING holds the cut claimed (R104). -/
structure Strike where
  offered   : Option Nat
  claiming  : Option Nat
  track     : List TrackEntry
  gates     : List GateWindow
  lastPos   : Nat
  strikes   : Nat
  withdrawn : Nat
  merges    : Nat
  score     : OutputLine
  snap      : OutputLine
  gate      : OutputLine
  deriving DecidableEq, Repr

/-- A hand-off to grading (R108). -/
structure Handoff where
  number : Nat
  kind   : PieceKind
  head   : Option Nat
  tail   : Nat
  dGate  : Nat
  mask   : GateMask
  deriving DecidableEq, Repr

/-! ## Grading Unit (chapter 7) -/

/-- The reasons of a grade (R120), in the order of the plate record's bits. -/
structure Reasons where
  kind      : Bool
  gap       : Bool
  overflow  : Bool
  reject    : Bool
  majorB    : Bool
  densityB  : Bool
  majorA    : Bool
  densityA  : Bool
  capPoint  : Bool
  capStreak : Bool
  capBand   : Bool
  capArea   : Bool
  deriving DecidableEq, Repr

/-- The counts of a piece (R117). -/
structure FlawCounts where
  minor     : Nat
  major     : Nat
  reject    : Nat
  point     : Nat
  streak    : Nat
  band      : Nat
  area      : Nat
  late      : Nat
  unplanned : Nat
  total     : Nat
  deriving DecidableEq, Repr

/-- The Shift Unit's stamp of a grading (R137). -/
structure ShiftStamp where
  shift : Word32
  time  : Calendar
  valid : Bool
  deriving DecidableEq, Repr

/-- A plate record (R121). -/
structure PlateRecord where
  run      : Word16
  number   : Nat
  kind     : PieceKind
  grade    : Grade
  reasons  : Reasons
  head     : Option Nat
  tail     : Nat
  length   : Nat
  area     : Nat
  counts   : FlawCounts
  top      : List Nat
  overlap  : Nat
  overflow : Bool
  diverted : Bool
  stamp    : Option ShiftStamp
  deriving DecidableEq, Repr

/-- The grading state with the piece in grading (R116, R123). -/
inductive GradingState where
  | idle
  | gathering (h : Handoff)
  | stamping (r : PlateRecord)
  deriving DecidableEq, Repr

/-- A piece of the outbound list: its record, and whether it has been moved to WAITING_LOG (R125). -/
structure Outbound where
  record  : PlateRecord
  waiting : Bool
  deriving DecidableEq, Repr

/-- The Grading Unit's state. -/
structure Grading where
  queue       : List Handoff
  state       : GradingState
  group       : Option GradeGroup
  outbound    : List Outbound
  outstanding : Bool
  logFull     : Bool
  graded      : Nat
  held        : Nat
  deriving DecidableEq, Repr

/-- A gather: the piece's head, absent for LEAD, and its tail (R75). -/
structure GatherReq where
  head : Option Nat
  tail : Nat
  deriving DecidableEq, Repr

/-- The grade answer (R108). -/
structure GradeAnswer where
  number : Nat
  kind   : PieceKind
  head   : Option Nat
  tail   : Nat
  grade  : Grade
  dGate  : Nat
  mask   : GateMask
  deriving DecidableEq, Repr

/-- The tally increments of one grading (R124). -/
structure GradingIncrement where
  grade  : Grade
  length : Nat
  cullet : Bool
  deriving DecidableEq, Repr

/-- What the Grading Unit asks of the Planner (R125). -/
inductive PieceReq where
  | waitingLog (number : Nat)
  | removal (number : Nat)
  deriving DecidableEq, Repr

/-- What the Record Writer answers an offer with, and its room events (R125, R140). -/
inductive LogAnswer where
  | accepted | full | room
  deriving DecidableEq, Repr

/-! ## Shift Unit (chapter 8) -/

/-- Tally increments other than those of a grading (R136). -/
inductive Increment where
  | stop
  | stopSecond
  | gapLine (c : GapCause)
  | flaw (c : FlawClass) (v : Severity) (orphan : Bool)
  | edgeFlaw
  | lateFlaw
  | unplannedFlaw
  | queueFull
  | abandoned
  | flawLost
  | gateLate
  | strikeOverlap
  | refusedAccess
  deriving DecidableEq, Repr

/-- The counters of a tally (R136): pieces and lengths by grade code, flaws by class then severity, gap lines by cause.
The gap length is in µm. -/
structure TallyCounters where
  pieces      : Vector Nat 5
  lengths     : Vector Nat 5
  cullet      : Nat
  flaws       : Vector Nat 12
  edge        : Nat
  orphan      : Nat
  late        : Nat
  unplanned   : Nat
  flawLost    : Nat
  gapLines    : Nat
  gapCauses   : Vector Nat 8
  gapLength   : Nat
  stops       : Nat
  stopSeconds : Nat
  queueFull   : Nat
  gateLate    : Nat
  overlaps    : Nat
  refused     : Nat
  abandoned   : Nat
  deriving DecidableEq, Repr

/-- First and last run numbers seen by a tally (R138). -/
structure RunsSeen where
  first : Word16
  last  : Word16
  deriving DecidableEq, Repr

/-- A tally: its shift number, how it opened, its flags, merged count, runs seen and counters (R135, R136). -/
structure Tally where
  shift      : Word32
  start      : Calendar
  slot       : OpeningSlot
  clockSet   : Bool
  clockUnset : Bool
  merged     : Nat
  runs       : Option RunsSeen
  counters   : TallyCounters
  deriving DecidableEq, Repr

/-- A shift report: a frozen tally and the calendar at its freezing (R139). -/
structure ShiftReport where
  tally : Tally
  fin   : Calendar
  deriving DecidableEq, Repr

/-- The hold slot (R140). -/
inductive HoldSlot where
  | empty
  | offered (r : ShiftReport)
  | held (r : ShiftReport)
  deriving DecidableEq, Repr

/-- The Shift Unit's state. -/
structure Shift where
  calendar  : Calendar
  sub       : Nat
  trim      : Int
  valid     : Bool
  table     : Option (List ShiftStart)
  number    : Word32
  run       : Word16
  runState  : RunState
  tally     : Tally
  hold      : HoldSlot
  deriving DecidableEq, Repr

/-! ## Path Unit (chapter 9) -/

/-- A region class (R145). -/
inductive Region where
  | landing (k : LaneId)
  | anchorConfig
  | anchorCommand
  | anchorOwned
  | log
  | view (l : LogId) (v : ViewKind)
  | viewSpare
  | plain
  deriving DecidableEq, Repr

/-- How a pass-through entry is marked (R143, R151). -/
inductive Mark where
  | awaiting
  | forwarded
  | translated (target : Nat)
  | localZeros
  | refused
  deriving DecidableEq, Repr

/-- An entry of the pass-through queue. `id` is the model's name for it, which verdicts and answers carry; `viewAt` is the
offset of a view read in its window (R154). -/
structure PassEntry where
  id     : Nat
  kind   : ReqKind
  req    : Request
  region : Region
  mark   : Mark
  viewAt : Nat
  held   : Bool
  deriving DecidableEq, Repr

/-- A request at the C-port with its kind, held off while the pass-through queue is full (R143). -/
structure HeldOff where
  kind : ReqKind
  req  : Request
  deriving DecidableEq, Repr

/-- A response returned at the C-port: DONE or REFUSED, with the data of a read (R143). -/
structure Response where
  source : SourceId
  done   : Bool
  data   : List Byte
  deriving DecidableEq, Repr

/-- The place of one request's response in the order of its source (R144). -/
structure ResponseSlot where
  id       : Nat
  source   : SourceId
  response : Option Response
  deriving DecidableEq, Repr

/-- What a transaction of the part is for. An entry's sequence word carries its log and that log's restart count; a
rewrite carries the id its announcement names (R167, R170, R161, R171). -/
inductive TxnTag where
  | slotRead
  | areaRead
  | entryBody
  | entrySeq (l : LogId) (gen : Nat)
  | rewrite (id : Nat) (position : Nat)
  | slotStatus
  | completionWord (v : Word32)
  | page
  deriving DecidableEq, Repr

/-- A transaction of the internal queue: a write carries its data and enables, a read its length (R157). -/
structure Txn where
  tag     : TxnTag
  addr    : Nat
  span    : Nat
  write   : Bool
  enables : List Bool
  data    : List Byte
  deriving DecidableEq, Repr

/-- An entry of the pending-rewrite list: the rewrite's id, and the Fault Log position it rewrites (R156). -/
structure PendingRewrite where
  id       : Nat
  position : Nat
  deriving DecidableEq, Repr

/-- The two queues of the M-port (R157). -/
inductive Turn where
  | pass | internal
  deriving DecidableEq, Repr

/-- Where memory's answer goes (R157, R144). -/
inductive AnswerTo where
  | source (id : Nat)
  | slotRead
  | areaRead
  | writer
  deriving DecidableEq, Repr

/-- A transaction that has left the M-port and is not yet answered, with the data memory answers it with: for a read, the
bytes as they stood when it left (R144). -/
structure MemTxn where
  dest : AnswerTo
  data : List Byte
  deriving DecidableEq, Repr

/-- The region map and the source table a successful CONFIGURE hands the Path Unit (R145). Rings are (base, size). -/
structure RegionMap where
  rings   : Vector (Nat × Nat) 8
  logs    : Vector (Nat × Nat) 4
  views   : ViewFields
  sources : Vector SourceEntry 16
  deriving DecidableEq, Repr

/-- The Path Unit's state. `heldOff` are the requests the C-port holds off, `slots` the responses not yet returned,
`returned` the responses returned at the C-port (the model's record of that output), `atMemory` the transactions memory
has not answered, and `nextId` the model's own numbering of entries. -/
structure Path where
  anchorBase : Nat
  runState   : RunState
  map        : Option RegionMap
  queue      : List PassEntry
  heldOff    : List HeldOff
  internal   : List Txn
  rewrites   : List PendingRewrite
  marker     : Turn
  forwarded  : Nat
  refused    : Nat
  heldReads  : Nat
  slots      : List ResponseSlot
  returned   : List Response
  atMemory   : List MemTxn
  nextId     : Nat
  deriving DecidableEq, Repr

/-- A verdict request: the entry, and its write (R151). -/
structure VerdictRequest where
  id   : Nat
  req  : Request
  deriving DecidableEq, Repr

/-- Verdicts (R151). -/
inductive Verdict where
  | accept | postOverrun | groupInvalid
  deriving DecidableEq, Repr

/-- A verdict on its way back (R151). -/
structure VerdictMsg where
  id      : Nat
  verdict : Verdict
  deriving DecidableEq, Repr

/-- A release request: a log and the ring positions whose sequence words a take read covered (R155). -/
structure Release where
  log       : LogId
  positions : List Nat
  deriving DecidableEq, Repr

/-! ## Command Unit and Record Writer (chapter 10) -/

/-- How far the command in execution has come (R160, R161, R163). A finished command holds its reason, none for DONE. -/
inductive ExecPhase where
  | readingSlot
  | ready (bytes : List Byte)
  | readingArea (bytes : List Byte)
  | finished (reason : Option Reason)
  deriving DecidableEq, Repr

/-- The command in execution: its slot and its phase (R160). -/
structure Execution where
  slot  : Nat
  phase : ExecPhase
  deriving DecidableEq, Repr

/-- The Command Unit's state. `waiting` are the internal reads it holds while the internal queue is full (R157). -/
structure Command where
  runState   : RunState
  lastReason : Option Reason
  shadow     : Option Shadow
  post       : Word32
  seen       : Word32
  mirror     : Vector (Option GroupMirror) 5
  invalid    : Vector Bool 5
  detect     : Copies DetectGroup
  plan       : Copies PlanGroup
  grade      : Copies GradeGroup
  strike     : Copies StrikeGroup
  clock      : Copies ClockGroup
  taken      : Word32
  completion : Word32
  execution  : Option Execution
  run        : Word16
  waiting    : List Txn
  deriving DecidableEq, Repr

/-- A fault record (R170): details of the first fault, and the first and last times with their clock-valid flags. -/
structure FaultRecord where
  source     : SourceId
  firstKind  : FaultKind
  lastKind   : FaultKind
  detailA    : Word16
  detailB    : BitVec 64
  repeats    : Nat
  firstTime  : Calendar
  lastTime   : Calendar
  firstValid : Bool
  lastValid  : Bool
  deriving DecidableEq, Repr

/-- A source's open fault record and its count in the Fault Log (R170). -/
structure OpenFault where
  count  : Word32
  record : FaultRecord
  deriving DecidableEq, Repr

/-- One log as the Record Writer keeps it (R167). `written` is the count just above the newest written entry, and `gen`
the model's count of the log's restarts (R163). -/
structure LogState where
  fields   : Option LogFields
  producer : Word32
  consumer : Word32
  written  : Word32
  nextSeq  : Word32
  refused  : Bool
  gen      : Nat
  deriving DecidableEq, Repr

/-- The Record Writer's state. `waiting` are the internal writes it holds while the internal queue is full (R157), and
`nextRewrite` the model's own numbering of rewrites. -/
structure Writer where
  logs           : Vector LogState 4
  collapse       : Vector (Option OpenFault) 16
  flawLost       : Nat
  faultLost      : Nat
  pageSeq        : Word32
  calendar       : Calendar
  clockValid     : Bool
  lastCompletion : Word32
  attn           : Bool
  waiting        : List Txn
  nextRewrite    : Nat
  deriving DecidableEq, Repr

/-! ## Messages between blocks -/

/-- A rise of P (R10). -/
structure Rise where
  p0 : Nat
  p1 : Nat
  deriving DecidableEq, Repr

/-- A write of the seen word on its way to the mirror: the enabled bytes of the word (R161). -/
structure SeenWrite where
  enables : List Bool
  data    : List Byte
  deriving DecidableEq, Repr

/-- The messages sent and not yet taken, oldest first, one list for each pair of blocks that the spec connects and, where
it does, each kind of message (notes/assumptions/5). Ticks carry nothing and are counted. -/
structure Wires where
  unitTicks      : Nat
  travelTicks    : Nat
  writerTicks    : Nat
  plannerRises   : List (Tagged Rise)
  strikeRises    : List (Tagged Rise)
  triggers       : Vector (List (Tagged Nat)) 8
  landing        : Vector (List LandingCopy) 8
  laneMsgs       : Vector (List (Tagged LaneMsg)) 8
  asmPlanner     : List (Tagged AsmMsg)
  plannerAsm     : List (Tagged PlanReq)
  gathers        : List (Tagged GatherReq)
  gatherAnswers  : List (Tagged GatherAnswer)
  plannerStrike  : List (Tagged StrikeMsg)
  claims         : List (Tagged Nat)
  runEnds        : List (Tagged Unit)
  handoffs       : List (Tagged Handoff)
  gradeAnswers   : List (Tagged GradeAnswer)
  pieceReqs      : List (Tagged PieceReq)
  gradingIncs    : List (Tagged GradingIncrement)
  increments     : List (Sender × Increment)
  stamps         : List (Tagged ShiftStamp)
  plateOffers    : List (Tagged PlateRecord)
  plateAnswers   : List (Tagged LogAnswer)
  shiftOffers    : List ShiftReport
  shiftAnswers   : List LogAnswer
  flawRecords    : List FlawRecord
  faults         : List (FaultSender × FaultMsg)
  releases       : List Release
  announcements  : List PendingRewrite
  verdictAsks    : List VerdictRequest
  verdicts       : List VerdictMsg
  seenWrites     : List SeenWrite
  deriving DecidableEq, Repr

/-! ## The machine -/

/-- The machine. `inReset` says that power-on or RESET_N holds the part in reset; `epoch` is the model's count of run
resets, which tells the messages of an ended run apart. -/
structure State where
  pending     : List Instr
  inReset     : Bool
  epoch       : Nat
  travel      : Travel
  lanes       : Vector Lane 8
  engine      : Engine
  asm         : Assembler
  planner     : Planner
  strike      : Strike
  grading     : Grading
  shift       : Shift
  path        : Path
  cmd         : Command
  writer      : Writer
  wires       : Wires
  mem         : List Host.Cell
  deriving DecidableEq, Repr

/-! ## Power-on values -/

/-- The calendar at power-on: 2000-01-01 00:00:00, weekday 6 (R132). -/
def Calendar.powerOn : Calendar :=
  { year := 2000, month := 1, day := 1, weekday := 6, hour := 0, minute := 0, second := 0 }

/-- The Travel Unit at power-on (R16). The reference pair is sampled when reset ends; until then 00, DESIGN CHOICE
(notes/assumptions/1). -/
def Travel.powerOn : Travel :=
  { fields := none, refA := false, refB := false, acc := 0, high := 0, count := 0, nextPoint := none,
    positionLimit := false, motion := .stopped, timer := 0, heldPos := 0, speed := 0, quadErrors := 0, divider := 0,
    pulses := 0 }

/-- A FREE buffer, holding nothing (R26). -/
def Buffer.empty : Buffer := { state := .free, line := 0, mode := none, pixels := [] }

/-- Lane counters all at 0 (R37). -/
def LaneCounters.zero : LaneCounters :=
  { completed := 0, declared := 0, stale := 0, torn := 0, overruns := 0, dropouts := 0 }

/-- A Lane Unit at power-on (R37). -/
def Lane.powerOn : Lane :=
  { enabled := false, state := .off, accounted := 0, trigger := 0, runState := .transparent, line := none,
    bufA := Buffer.empty, bufB := Buffer.empty, declared := [], lock := 0, misses := 0, seeded := false, settled := 0,
    counters := LaneCounters.zero }

/-- The engine's store of one lane at power-on: 0 in every column (R58). -/
def EngineLane.powerOn : EngineLane :=
  { background := List.replicate Config.columnLimit 0, hold := List.replicate Config.columnLimit 0, join := [],
    crowded := 0 }

/-- The Pixel Engine at power-on (R58). -/
def Engine.powerOn : Engine :=
  { analysis := none, ready := [], lanes := Vector.replicate 8 EngineLane.powerOn }

/-- The Blob Assembler at power-on (R79). -/
def Assembler.powerOn : Assembler :=
  { settled := Vector.replicate 8 0, joined := 0, blobs := [], nextBlob := 1, markers := [], nextFlaw := 1, table := [],
    gradedTail := none, overflow := none, gaps := [], forced := 0, truncated := 0,
    numbersPast := 0 }

/-- The Cut Planner at power-on (R101). -/
def Planner.powerOn : Planner :=
  { pieces := [], openPiece := none, cuts := [], nextPiece := 1, frontier := 0, cf := none, overdue := false,
    runEnd := .none, markedLate := [], markedUnplanned := [], numbersPast := 0 }

/-- A released output. -/
def OutputLine.released : OutputLine := { level := false, asserted := 0 }

/-- The Strike Unit at power-on (R114). -/
def Strike.powerOn : Strike :=
  { offered := none, claiming := none, track := [], gates := [], lastPos := 0, strikes := 0, withdrawn := 0, merges := 0,
    score := OutputLine.released, snap := OutputLine.released, gate := OutputLine.released }

/-- The Grading Unit at power-on (R128). -/
def Grading.powerOn : Grading :=
  { queue := [], state := .idle, group := none, outbound := [], outstanding := false, logFull := false, graded := 0,
    held := 0 }

/-- Tally counters all at 0 (R135). -/
def TallyCounters.zero : TallyCounters :=
  { pieces := Vector.replicate 5 0, lengths := Vector.replicate 5 0, cullet := 0, flaws := Vector.replicate 12 0,
    edge := 0, orphan := 0, late := 0, unplanned := 0, flawLost := 0, gapLines := 0, gapCauses := Vector.replicate 8 0,
    gapLength := 0, stops := 0, stopSeconds := 0, queueFull := 0, gateLate := 0, overlaps := 0, refused := 0,
    abandoned := 0 }

/-- The tally opened at power-on: shift number 0, opening slot RESET, CLOCK_UNSET (R142). -/
def Tally.powerOn : Tally :=
  { shift := 0, start := Calendar.powerOn, slot := .reset, clockSet := false, clockUnset := true, merged := 0,
    runs := none, counters := TallyCounters.zero }

/-- The Shift Unit at power-on (R142). -/
def Shift.powerOn : Shift :=
  { calendar := Calendar.powerOn, sub := 0, trim := 0, valid := false, table := none, number := 0, run := 0,
    runState := .transparent, tally := Tally.powerOn, hold := .empty }

/-- The Path Unit at power-on (R159). The anchor base is sampled at the end of reset; until then 0, DESIGN CHOICE
(notes/assumptions/1). -/
def Path.powerOn : Path :=
  { anchorBase := 0, runState := .transparent, map := none, queue := [], heldOff := [], internal := [], rewrites := [],
    marker := .internal, forwarded := 0, refused := 0, heldReads := 0, slots := [], returned := [], atMemory := [],
    nextId := 0 }

/-- Copies of a group at power-on: absent (R173). -/
def Copies.absent {α : Type} : Copies α := { active := none, eligible := none }

/-- The Command Unit at power-on (R173). R173 gives the run number it holds no value after power-on and warm reset: 0, DESIGN
CHOICE (notes/assumptions/41). -/
def Command.powerOn : Command :=
  { runState := .transparent, lastReason := none, shadow := none, post := 0, seen := 0, mirror := Vector.replicate 5 none,
    invalid := Vector.replicate 5 false, detect := Copies.absent, plan := Copies.absent, grade := Copies.absent,
    strike := Copies.absent, clock := Copies.absent, taken := 0, completion := 0, execution := none, run := 0,
    waiting := [] }

/-- A log at power-on: fields absent, counts 0, next sequence number 1 (R173). -/
def LogState.powerOn : LogState :=
  { fields := none, producer := 0, consumer := 0, written := 0, nextSeq := 1, refused := false, gen := 0 }

/-- The Record Writer at power-on (R173). -/
def Writer.powerOn : Writer :=
  { logs := Vector.replicate 4 LogState.powerOn, collapse := Vector.replicate 16 none, flawLost := 0, faultLost := 0,
    pageSeq := 0, calendar := Calendar.powerOn, clockValid := false, lastCompletion := 0, attn := false, waiting := [],
    nextRewrite := 0 }

/-- No message stands between any blocks. -/
def Wires.quiet : Wires :=
  { unitTicks := 0, travelTicks := 0, writerTicks := 0, plannerRises := [], strikeRises := [],
    triggers := Vector.replicate 8 [], landing := Vector.replicate 8 [], laneMsgs := Vector.replicate 8 [],
    asmPlanner := [], plannerAsm := [], gathers := [], gatherAnswers := [], plannerStrike := [], claims := [],
    runEnds := [], handoffs := [], gradeAnswers := [], pieceReqs := [], gradingIncs := [], increments := [],
    stamps := [], plateOffers := [], plateAnswers := [], shiftOffers := [], shiftAnswers := [], flawRecords := [],
    faults := [], releases := [], announcements := [], verdictAsks := [], verdicts := [], seenWrites := [] }

/-- The machine at power-on, as the reset tables of every chapter give it, with the reset still holding until a RESET_END
brings the straps and the encoder levels (R142, R176); no command waits and no byte of memory is listed. -/
def State.reset : State :=
  { pending := [], inReset := true, epoch := 0, travel := Travel.powerOn,
    lanes := Vector.replicate 8 Lane.powerOn, engine := Engine.powerOn, asm := Assembler.powerOn,
    planner := Planner.powerOn, strike := Strike.powerOn, grading := Grading.powerOn, shift := Shift.powerOn,
    path := Path.powerOn, cmd := Command.powerOn, writer := Writer.powerOn, wires := Wires.quiet, mem := [] }

end Sys2Proof.Machine
end

