-- ==== Sys2Proof/Machine/Memory.lean ====
section
/-! DEFINITION. The image DRAM behind the M-port, as (address, byte) pairs in one canonical form: addresses strictly
rising, and no entry that equals what an unlisted address reads as. Memory takes each transaction in the order it left
the M-port (R144). -/

namespace Sys2Proof.Machine

/-- The byte at an address (R144). -/
def readByte : List Host.Cell → Nat → Byte
  | [], _ => Config.dramFill
  | (x, b) :: rest, a => if x = a then b else readByte rest a

/-- Memory with one byte stored, in canonical form. -/
def writeByte : List Host.Cell → Nat → Byte → List Host.Cell
  | [], a, b => if b = Config.dramFill then [] else [(a, b)]
  | (x, c) :: rest, a, b =>
    if a < x then (if b = Config.dramFill then (x, c) :: rest else (a, b) :: (x, c) :: rest)
    else if a = x then (if b = Config.dramFill then rest else (a, b) :: rest)
    else (x, c) :: writeByte rest a b

/-- The n bytes from an address on. -/
def readBytes (m : List Host.Cell) (a : Nat) : Nat → List Byte
  | 0 => []
  | n + 1 => readByte m a :: readBytes m (a + 1) n

/-- Memory with the enabled bytes of a write stored from an address on; a byte whose enable is clear keeps its value
(R143, R148). -/
def writeBytes : List Host.Cell → Nat → List Bool → List Byte → List Host.Cell
  | m, a, e :: es, d :: ds => writeBytes (if e then writeByte m a d else m) (a + 1) es ds
  | m, _, _, _ => m

/-- Every address listed is above a. -/
def Memory.above (a : Nat) : List Host.Cell → Bool
  | [] => true
  | (x, _) :: rest => decide (a < x) && Memory.above a rest

/-- The canonical form: addresses strictly rising, and no entry equal to what an unlisted address reads as. -/
def Memory.wf : List Host.Cell → Bool
  | [] => true
  | (x, b) :: rest => decide (b ≠ Config.dramFill) && Memory.above x rest && Memory.wf rest

end Sys2Proof.Machine
end

