-- ==== Sys2Proof/Machine/Bytes.lean ====
section
/-! DEFINITION. Byte order and the layout of memory images: multi-byte fields are little-endian, and every reserved byte
the part writes is zero (chapter 11, R174). -/

namespace Sys2Proof.Machine

/-- The low n bytes of v, least significant first (chapter 11: little-endian). -/
def le : Nat → Nat → List Byte
  | 0, _ => []
  | n + 1, v => BitVec.ofNat 8 v :: le n (v / 256)

/-- The number that a little-endian field spells. -/
def fromLe : List Byte → Nat
  | [] => 0
  | b :: r => b.toNat + 256 * fromLe r

/-- The n bytes of an image from offset o, with zeros past its end. -/
def slice (bytes : List Byte) (o n : Nat) : List Byte :=
  match n with
  | 0 => []
  | n + 1 => bytes.getD o 0 :: slice bytes (o + 1) n

/-- The little-endian field of n bytes at offset o of an image. -/
def field (bytes : List Byte) (o n : Nat) : Nat := fromLe (slice bytes o n)

/-- The byte at offset o of an image, as a number. -/
def byteAt (bytes : List Byte) (o : Nat) : Nat := (bytes.getD o 0).toNat

/-- n reserved bytes, written as zero (R174). -/
def zeros (n : Nat) : List Byte := List.replicate n 0

/-- An image up to size, from the fields at their offsets in rising order; everything between them is reserved (R174). -/
def layout (size : Nat) : Nat → List (Nat × List Byte) → List Byte
  | pos, [] => zeros (size - pos)
  | pos, (o, bytes) :: rest => zeros (o - pos) ++ bytes ++ layout size (o + bytes.length) rest

/-- A yes-or-no item: 1 for yes, 0 for no (R174). -/
def flagByte (b : Bool) : List Byte := [if b then 1 else 0]

/-- A signed value in n bytes, two's complement. -/
def leSigned (n : Nat) (v : Int) : List Byte := le n (v % (256 ^ n : Nat)).toNat

/-- The number whose bit i is flag i of the list. -/
def bitsOf : List Bool → Nat
  | [] => 0
  | b :: r => (if b then 1 else 0) + 2 * bitsOf r

/-- Bit i of a byte read from an image. -/
def bitAt (v i : Nat) : Bool := decide (v / 2 ^ i % 2 = 1)

/-- The signed value of a byte (R131: trim). -/
def signedByte (v : Nat) : Int := if v < 128 then (v : Int) else (v : Int) - 256

/-- Bytes with the enabled ones replaced, from offset o on. -/
def patch : List Byte → Nat → List Bool → List Byte → List Byte
  | image, o, e :: es, d :: ds => patch (if e then image.set o d else image) (o + 1) es ds
  | image, _, _, _ => image

end Sys2Proof.Machine
end

