-- ==== Sys2Proof/Machine/Ops.lean ====
section
/-! DEFINITION. The named operations every block shares: counters that saturate, numbers that rise by one, the taking of
a message that stands between two blocks, the five effect points of the live groups, and the placing of the part's own
transactions in the internal queue (R157). -/

namespace Sys2Proof.Machine

/-! ## Counters -/

/-- The greatest 32-bit count. -/
abbrev max32 : Nat := 4294967295

/-- The greatest 48-bit length. -/
abbrev max48 : Nat := 281474976710655

/-- A count that adds k and stays at its limit (00_scope.md, Numbers and units). -/
def satAdd (limit n k : Nat) : Nat := min limit (n + k)

/-- A 32-bit counter that rises by one and saturates. -/
def bump (n : Nat) : Nat := satAdd max32 n 1

/-- The number after n in a 32-bit numbering: n + 1, or, past the last 32-bit number, a free value the spec leaves open
(notes/assumptions/4). -/
def nextNumber (k n : Nat) : Nat := if n < max32 then n + 1 else (Config.pastLastNumber k).toNat

/-- A value of a fixed family replaced at one index. -/
def upd {α : Type} {n : Nat} (v : Vector α n) (i : Fin n) (f : α → α) : Vector α n := v.set i (f v[i])

/-- The lanes in ascending order. -/
def allLanes : List LaneId := [0, 1, 2, 3, 4, 5, 6, 7]

/-- Insertion of one item in a list by a rank test, before the first item that comes after it. -/
def insertBy {α : Type} (before : α → α → Bool) (a : α) : List α → List α
  | [] => [a]
  | b :: rest => if before a b then a :: b :: rest else b :: insertBy before a rest

/-- A list put in the order of a rank test; items that tie keep their order when the test holds between them. -/
def sortBy {α : Type} (before : α → α → Bool) : List α → List α
  | [] => []
  | a :: rest => insertBy before a (sortBy before rest)

/-- The first item that passes a test, and the list without it. -/
def takeFirst {α : Type} (p : α → Bool) : List α → Option (α × List α)
  | [] => none
  | a :: rest =>
    if p a then some (a, rest)
    else match takeFirst p rest with
      | none => none
      | some (b, r) => some (b, a :: r)

/-! ## Indexes -/

/-- The place of a log in the order Flaw, Plate, Shift, Fault (chapter 11.3). -/
def LogId.idx : LogId → Fin 4
  | .flaw => 0 | .plate => 1 | .shift => 2 | .fault => 3

/-- The place of a live group in the order of chapter 11.3. -/
def GroupId.idx : GroupId → Fin 5
  | .detect => 0 | .plan => 1 | .grade => 2 | .strike => 3 | .clock => 4

/-- The four logs in order. -/
def allLogs : List LogId := [.flaw, .plate, .shift, .fault]

/-- The five live groups in order. -/
def allGroups : List GroupId := [.detect, .plan, .grade, .strike, .clock]

/-- Entry sizes in bytes (chapter 10.7). -/
def LogId.entrySize : LogId → Nat
  | .flaw => 64 | .plate => 128 | .shift => 256 | .fault => 32

/-! ## Run states -/

/-- The counting window: RUNNING or DRAINING (R4). -/
def RunState.counting : RunState → Bool
  | .running | .draining => true
  | .transparent | .configured => false

/-! ## Messages -/

/-- Taking the oldest message of a wire, if it is of the kind the row names: outside reset, the message leaves the wire,
and it acts, or acts as a message of an ended run where it belongs to one. With no such message there is no event, and
nothing changes (notes/assumptions/2, notes/assumptions/5). -/
def receiveWith {α : Type} (kind : α → Bool) (wire : Wires → List (Tagged α)) (put : Wires → List (Tagged α) → Wires)
    (act stale : α → State → State) (s : State) : State :=
  if s.inReset then s else
    match wire s.wires with
    | [] => s
    | m :: rest =>
      if kind m.msg then
        if m.epoch = s.epoch then act m.msg { s with wires := put s.wires rest }
        else stale m.msg { s with wires := put s.wires rest }
      else s

/-- Taking the oldest message of a wire, if it is of the kind the row names; one of an ended run is discarded
(notes/assumptions/5). -/
def receiveIf {α : Type} (kind : α → Bool) (wire : Wires → List (Tagged α)) (put : Wires → List (Tagged α) → Wires)
    (act : α → State → State) (s : State) : State :=
  receiveWith kind wire put act (fun _ s => s) s

/-- Taking the oldest message of a wire that carries one kind of message. -/
def receive {α : Type} (wire : Wires → List (Tagged α)) (put : Wires → List (Tagged α) → Wires)
    (act : α → State → State) (s : State) : State :=
  receiveIf (fun _ => true) wire put act s

/-- Taking the oldest message of a wire whose messages outlive the run that sent them, if it is of the kind named. -/
def receivePlainIf {α : Type} (kind : α → Bool) (wire : Wires → List α) (put : Wires → List α → Wires)
    (act : α → State → State) (s : State) : State :=
  if s.inReset then s else
    match wire s.wires with
    | [] => s
    | m :: rest => if kind m then act m { s with wires := put s.wires rest } else s

/-- Taking the oldest message of a wire whose messages outlive the run that sent them. -/
def receivePlain {α : Type} (wire : Wires → List α) (put : Wires → List α → Wires)
    (act : α → State → State) (s : State) : State :=
  receivePlainIf (fun _ => true) wire put act s

/-- An event of the part that stands outside the wires: nothing happens while the part is in reset. -/
def live (act : State → State) (s : State) : State := if s.inReset then s else act s

/-- The wires changed by a sender. -/
def State.wire (s : State) (f : Wires → Wires) : State := { s with wires := f s.wires }

/-- A message stamped with the current run reset count. -/
def State.tag {α : Type} (s : State) (m : α) : Tagged α := { epoch := s.epoch, msg := m }

/-- Messages stamped with the current run reset count. -/
def State.tagAll {α : Type} (s : State) (ms : List α) : List (Tagged α) := ms.map s.tag

/-- Tally increments handed to the Shift Unit by one block (R136). -/
def State.sendIncrements (s : State) (b : Sender) (incs : List Increment) : State :=
  s.wire fun w => { w with increments := w.increments ++ incs.map (fun i => (b, i)) }

/-! ## Effect points of the live groups -/

/-- A group's copies at its effect point: an eligible copy held becomes the active copy (R166). -/
def Copies.activate {α : Type} (c : Copies α) : Copies α :=
  match c.eligible with
  | none => c
  | some e => { active := some e, eligible := none }

/-- The fields in use after an effect point. -/
def Copies.inUse {α : Type} (c : Copies α) : Option α :=
  match c.active with
  | none => none
  | some a => some a.fields

/-! ## The internal queue -/

/-- A transaction placed in the internal queue; a rewrite is announced to the Path Unit as it is placed (R157, R156). -/
def State.takeIn (s : State) (t : Txn) : State :=
  { s with
    path := { s.path with internal := s.path.internal ++ [t] }
    wires := match t.tag with
      | .rewrite id p => { s.wires with announcements := s.wires.announcements ++ [{ id := id, position := p }] }
      | _ => s.wires }

/-- A write of the Record Writer: placed, or kept waiting while the internal queue is full (R157). -/
def State.placeWrite (s : State) (t : Txn) : State :=
  if s.path.internal.length < Config.internalQueueLimit ∧ s.writer.waiting.length = 0 then s.takeIn t
  else { s with writer := { s.writer with waiting := s.writer.waiting ++ [t] } }

/-- A read of the Command Unit: placed, or kept waiting while the internal queue is full (R157). -/
def State.placeRead (s : State) (t : Txn) : State :=
  if s.path.internal.length < Config.internalQueueLimit ∧ s.cmd.waiting.length = 0 then s.takeIn t
  else { s with cmd := { s.cmd with waiting := s.cmd.waiting ++ [t] } }

/-- Writes of the Record Writer, placed in the order it issues them (R157). -/
def State.placeWrites (s : State) (ts : List Txn) : State := ts.foldl State.placeWrite s

/-- Reads of the Command Unit, placed in the order it issues them (R157). -/
def State.placeReads (s : State) (ts : List Txn) : State := ts.foldl State.placeRead s

/-- The room left by an entry of the internal queue goes to the Record Writer if it waits, else to the Command Unit
(R157). -/
def State.refill (s : State) : State :=
  if s.path.internal.length < Config.internalQueueLimit then
    match s.writer.waiting with
    | t :: rest => State.takeIn { s with writer := { s.writer with waiting := rest } } t
    | [] =>
      match s.cmd.waiting with
      | t :: rest => State.takeIn { s with cmd := { s.cmd with waiting := rest } } t
      | [] => s
  else s

/-- A write of the part with every byte of its span enabled. -/
def Txn.full (tag : TxnTag) (addr : Nat) (data : List Byte) : Txn :=
  { tag := tag, addr := addr, span := data.length, write := true, enables := List.replicate data.length true,
    data := data }

/-- A read of the part. -/
def Txn.fetch (tag : TxnTag) (addr span : Nat) : Txn :=
  { tag := tag, addr := addr, span := span, write := false, enables := List.replicate span true, data := [] }

/-- Data cut into writes of at most 16 beats, as the bus carries them (R143). The fuel bounds the pieces. -/
def chunks (tag : TxnTag) : Nat → Nat → List Byte → List Txn
  | 0, _, _ => []
  | fuel + 1, addr, data =>
    if data.length ≤ 128 then [Txn.full tag addr data]
    else Txn.full tag addr (data.take 128) :: chunks tag fuel (addr + 128) (data.drop 128)

/-! ## The state of one lane -/

/-- One lane's Lane Unit changed. -/
def State.setLane (s : State) (k : LaneId) (l : Lane) : State := { s with lanes := upd s.lanes k (fun _ => l) }

end Sys2Proof.Machine
end

