-- ==== Sys2Proof/WellFormed.lean ====
section
/-! DEFINITION. Which commands are well formed: a bus request has the forms of R143, and only a write carries data.
A request that breaks these forms is not presented by the bus and is not taken (R143). -/

namespace Sys2Proof

/-- The bytes of a request's span, 8 per beat (R143). -/
def Request.span (q : Request) : Nat := 8 * q.beats

/-- The forms of R143 that reads and writes share: 1 to 16 beats, an address that is a multiple of 8, a span that does
not cross a multiple of 4,096, and one byte enable for each byte of each beat. -/
def Request.formed (q : Request) : Bool :=
  decide (1 ≤ q.beats) && decide (q.beats ≤ 16) && decide (q.addr.toNat % 8 = 0) &&
    decide (q.addr.toNat % 4096 + q.span ≤ 4096) && decide (q.enables.length = q.span)

/-- A read as the bus presents it: the shared forms, and no data (R143). -/
def Request.readFormed (q : Request) : Bool := q.formed && decide (q.data.length = 0)

/-- A write as the bus presents it: the shared forms, and a byte of data for each byte of the span (R143). -/
def Request.writeFormed (q : Request) : Bool := q.formed && decide (q.data.length = q.span)

/-- Well-formed commands: every row's operands are plain names but for the bus rows, whose request has R143's forms. -/
def Instr.wellFormed : Instr → Bool
  | .busRead q | .takeViewRead q | .peekViewRead q => q.readFormed
  | .busWrite q | .postWordWrite q | .sequenceWordWrite q => q.writeFormed
  | .powerOn | .warmReset | .resetEnd _ _ _ | .encoderEdge _ _ | .tb32kPeriod | .unitTick | .stopTimerExpiry
  | .secondEnd | .travelSecondTick | .writerSecondTick | .laneLineTrigger _ | .landingWrite _ | .analysisBegin
  | .analysisCompletion | .gapLine _ | .settledLine _ | .join | .scan | .mark | .gather | .heldFlaw | .scanAnswer
  | .joinedLine | .plannerRise | .flushEnd | .strikeClaim | .pieceRemoval | .waitingLogMove | .runEndCompletion
  | .headOffer | .strikeRise | .strikeGrant | .claimWithdrawal | .gradingHandoff | .gradingBegin | .gatherAnswer
  | .gradeAnswer | .gradingIncrements | .tallyIncrement _ | .stamp | .plateOffer | .plateAccepted | .plateFull
  | .plateRoom | .shiftReportOffer | .shiftAccepted | .shiftFull | .shiftRoom | .flawRecord | .fault _
  | .releaseRequest | .rewriteAnnouncement | .commandTake | .configure | .startRun | .stopRun | .resetRun | .setClock
  | .closeShift | .laneEnable | .laneDisable | .manualCut | .badCommand | .commandCompletion | .seenWordWrite
  | .verdictRequest | .verdict | .mPortSend | .memoryAnswer => true

end Sys2Proof
end

