-- ==== Sys2Proof/Machine/Operands.lean ====
section
/-! DEFINITION. The operand forms of the commands: the fields of the configuration area and of the live groups (chapter
11.3), the parameters of a command slot (R175), and the region class of a request (R145, R152). -/

namespace Sys2Proof

/-! ## Bus requests -/

/-- The byte addresses of a request's enabled bytes. -/
def enabledFrom : Nat → List Bool → List Nat
  | _, [] => []
  | a, e :: es => if e then a :: enabledFrom (a + 1) es else enabledFrom (a + 1) es

/-- The byte addresses a request enables (R143). -/
def Request.enabledBytes (q : Request) : List Nat := enabledFrom q.addr.toNat q.enables

/-- Whether a request's enabled bytes include one in the n bytes at address a. -/
def Request.touches (q : Request) (a n : Nat) : Bool :=
  q.enabledBytes.any fun x => decide (a ≤ x) && decide (x < a + n)

/-- The byte a write carries for an address, if that byte is enabled. -/
def Request.byteFor (q : Request) (a : Nat) : Option Byte :=
  if q.addr.toNat ≤ a ∧ q.enables.getD (a - q.addr.toNat) false then some (q.data.getD (a - q.addr.toNat) 0) else none

/-- The n bytes at address a with a write's enabled bytes replaced. -/
def Request.overlay (q : Request) (a : Nat) (old : List Byte) : List Byte :=
  match old with
  | [] => []
  | b :: rest => (q.byteFor a).getD b :: q.overlay (a + 1) rest

/-- A 32-bit word at address a with a write's enabled bytes replaced (R151). -/
def Request.overlayWord (q : Request) (a : Nat) (old : Word32) : Word32 :=
  BitVec.ofNat 32 (Machine.fromLe (q.overlay a (Machine.le 4 old.toNat)))

/-- The address of the last byte of a request's span. -/
def Request.lastByte (q : Request) : Nat := q.addr.toNat + q.span - 1

end Sys2Proof

namespace Sys2Proof.Machine

/-! ## The configuration area -/

/-- The travel fields at 0x000 (R1). -/
def parseTravel (b : List Byte) : TravelFields :=
  { pitch := field b 0x000 4, scale := field b 0x004 4, tStop := field b 0x008 2, bLeads := decide (byteAt b 0x00A = 1) }

/-- The lane timing fields at 0x040 (R19). -/
def parseTiming (b : List Byte) : LaneTiming :=
  { lag := byteAt b 0x040, lockLines := byteAt b 0x041, stall := byteAt b 0x042 }

/-- Offset of lane k's geometry entry (chapter 11.3). -/
def laneEntryAt (k : Nat) : Nat := 0x400 + 64 * k

/-- The geometry of lane k (R18, chapter 11.3). -/
def parseLane (b : List Byte) (k : Nat) : LaneGeometry :=
  let o := laneEntryAt k
  { enabledAtStart := decide (byteAt b o = 1), source := byteAt b (o + 0x01), mirrored := decide (byteAt b (o + 0x02) = 1),
    slots := field b (o + 0x04) 2, length := field b (o + 0x06) 2, stride := field b (o + 0x08) 4,
    base := field b (o + 0x10) 8, origin := field b (o + 0x18) 4, pitch := field b (o + 0x1C) 4,
    ownLo := field b (o + 0x20) 4, ownHi := field b (o + 0x24) 4 }

/-- A rights byte; bits that name no right are ignored (chapter 11.3, R174). -/
def parseRights (v : Nat) : Rights :=
  { plainWrite := bitAt v 0, landingOwn := bitAt v 1, landingAny := bitAt v 2, configWrite := bitAt v 3,
    commandWrite := bitAt v 4, viewRead := bitAt v 5 }

/-- A role from its code and lane byte; a code that names no role reads as OTHER, and the check refuses it (R174). -/
def parseRole (code lane : Nat) : Role :=
  if code = 1 then .controller
  else if code = 2 then (if h : lane < 8 then .camera ⟨lane, h⟩ else .other)
  else .other

/-- Offset of source s's entry (chapter 11.3). -/
def sourceEntryAt (s : Nat) : Nat := 0x100 + 4 * s

/-- Entry s of the source table (R147). -/
def parseSource (b : List Byte) (s : Nat) : SourceEntry :=
  let o := sourceEntryAt s
  { role := parseRole (byteAt b o) (byteAt b (o + 1)), rights := parseRights (byteAt b (o + 2)) }

/-- The view aperture fields at 0x200 (R146). -/
def parseViews (b : List Byte) : ViewFields :=
  { base := field b 0x200 8, sizeMiB := byteAt b 0x208,
    takeAt := #v[field b 0x210 4, field b 0x218 4, field b 0x220 4, field b 0x228 4],
    peekAt := #v[field b 0x214 4, field b 0x21C 4, field b 0x224 4, field b 0x22C 4] }

/-- The ring fields of the log at index i (R163). -/
def parseLog (b : List Byte) (i : Nat) : LogFields :=
  let o := 0x280 + 16 * i
  { base := field b o 8, entries := field b (o + 8) 4, notify := field b (o + 12) 4 }

/-- The fixed fields of a configuration area (chapter 11.3). -/
def parseShadow (b : List Byte) : Shadow :=
  { travel := parseTravel b
    lanes := #v[parseLane b 0, parseLane b 1, parseLane b 2, parseLane b 3, parseLane b 4, parseLane b 5, parseLane b 6,
      parseLane b 7]
    timing := parseTiming b
    netLo := field b 0x080 4, netHi := field b 0x084 4
    dCut := field b 0x0C0 4, dCommit := field b 0x0C4 4, minTrim := field b 0x0C8 4
    sources := #v[parseSource b 0, parseSource b 1, parseSource b 2, parseSource b 3, parseSource b 4, parseSource b 5,
      parseSource b 6, parseSource b 7, parseSource b 8, parseSource b 9, parseSource b 10, parseSource b 11,
      parseSource b 12, parseSource b 13, parseSource b 14, parseSource b 15]
    views := parseViews b
    logs := #v[parseLog b 0, parseLog b 1, parseLog b 2, parseLog b 3] }

/-! ## The live groups -/

/-- Offset of a live group in the configuration area (chapter 11.3). -/
def GroupId.base : GroupId → Nat
  | .detect => 0x1000 | .plan => 0x1100 | .grade => 0x1200 | .strike => 0x1300 | .clock => 0x1400

/-- Offset of a group's sequence word (chapter 11.3). -/
abbrev seqAt : Nat := 0xF8

/-- The field bytes of a group, as (offset, size) ranges (chapter 11.3). -/
def GroupId.fields : GroupId → List (Nat × Nat)
  | .detect => [(0x00, 15), (0x10, 2), (0x14, 8)]
  | .plan   => [(0x00, 2), (0x04, 20)]
  | .grade  => [(0x00, 10)]
  | .strike => [(0x00, 17)]
  | .clock  => [(0x00, 2), (0x04, 3), (0x08, 3), (0x0C, 3), (0x10, 3)]

/-- Whether an offset lies in one of the ranges. -/
def inRanges (ranges : List (Nat × Nat)) (o : Nat) : Bool :=
  ranges.any fun r => decide (r.1 ≤ o) && decide (o < r.1 + r.2)

/-- Whether a byte of a group belongs to one of its fields. -/
def GroupId.isField (g : GroupId) (o : Nat) : Bool := inRanges g.fields o

/-- Whether a byte of a group belongs to its sequence word. -/
def isSeqByte (o : Nat) : Bool := decide (seqAt ≤ o) && decide (o < seqAt + 4)

/-- The DETECT fields of a group image. -/
def parseDetect (b : List Byte) : DetectGroup :=
  { d1 := byteAt b 0x00, d2 := byteAt b 0x01, d3 := byteAt b 0x02, u1 := byteAt b 0x03, u2 := byteAt b 0x04,
    u3 := byteAt b 0x05, shift := byteAt b 0x06, bridge := byteAt b 0x07, blindFloor := field b 0x08 2,
    holdLimit := field b 0x0A 2, blindLimit := field b 0x0C 2, alongGap := byteAt b 0x0E, crossBridge := field b 0x10 2,
    maxLength := field b 0x14 4, pointSize := field b 0x18 4 }

/-- The PLAN fields of a group image. -/
def parsePlan (b : List Byte) : PlanGroup :=
  { count := byteAt b 0x00, level := byteAt b 0x01, margin := field b 0x04 4, l1 := field b 0x08 4, l2 := field b 0x0C 4,
    l3 := field b 0x10 4, l4 := field b 0x14 4 }

/-- The GRADE fields of a group image. -/
def parseGrade (b : List Byte) : GradeGroup :=
  { majorMaxA := byteAt b 0x00, majorMaxB := byteAt b 0x01, dA := field b 0x02 2, dB := field b 0x04 2,
    capPoint := byteAt b 0x06, capStreak := byteAt b 0x07, capBand := byteAt b 0x08, capArea := byteAt b 0x09 }

/-- A gate mask byte; bits that name no grade are ignored (R174). -/
def parseMask (v : Nat) : GateMask := { x := bitAt v 0, c := bitAt v 1, u := bitAt v 2, b := bitAt v 3 }

/-- The STRIKE fields of a group image. -/
def parseStrike (b : List Byte) : StrikeGroup :=
  { wScore := field b 0x00 4, dSnap := field b 0x04 4, wSnap := field b 0x08 4, dGate := field b 0x0C 4,
    mask := parseMask (byteAt b 0x10) }

/-- Shift start entry i of a group image. -/
def parseStart (b : List Byte) (i : Nat) : ShiftStart :=
  let o := 4 + 4 * i
  let m := byteAt b (o + 2)
  { hour := byteAt b o, minute := byteAt b (o + 1),
    days := #v[bitAt m 0, bitAt m 1, bitAt m 2, bitAt m 3, bitAt m 4, bitAt m 5, bitAt m 6] }

/-- The CLOCK fields of a group image. -/
def parseClock (b : List Byte) : ClockGroup :=
  { trim := signedByte (byteAt b 0x00), count := byteAt b 0x01,
    entries := #v[parseStart b 0, parseStart b 1, parseStart b 2, parseStart b 3] }

/-- The sequence word of a group image. -/
def parseSeq (b : List Byte) : Word32 := BitVec.ofNat 32 (field b seqAt 4)

/-- The entries in use of a CLOCK group (R131). -/
def ClockGroup.inUse (c : ClockGroup) : List ShiftStart := c.entries.toList.take c.count

/-- The sizes in use of a PLAN group, largest first (R83). -/
def PlanGroup.sizes (p : PlanGroup) : List Nat := [p.l1, p.l2, p.l3, p.l4].take p.count

/-! ## The command slot -/

/-- The command kind of a slot, none for a byte that names no kind (R160, R174). -/
def commandKind (slot : List Byte) : Option CommandKind :=
  match byteAt slot 0 with
  | 1 => some .configure
  | 2 => some .startRun
  | 3 => some .stopRun
  | 4 => some .resetRun
  | 5 => some .setClock
  | 6 => some .laneEnable
  | 7 => some .laneDisable
  | 8 => some .manualCut
  | 9 => some .closeShift
  | _ => none

/-- The date and time of a SET_CLOCK slot (R175). -/
def slotCalendar (slot : List Byte) : Calendar :=
  { year := field slot 0x08 2, month := byteAt slot 0x0A, day := byteAt slot 0x0B, weekday := byteAt slot 0x0C,
    hour := byteAt slot 0x0D, minute := byteAt slot 0x0E, second := byteAt slot 0x0F }

/-- The lane mask of a slot (R175). -/
def slotMask (slot : List Byte) (k : LaneId) : Bool := bitAt (byteAt slot 0x08) k.val

/-- The position of a MANUAL_CUT slot, none for "at frontier" (R175). -/
def slotPosition (slot : List Byte) : Option Nat :=
  if byteAt slot 0x08 = 1 then none else some (field slot 0x10 8)

/-! ## The anchor -/

/-- Offset of the command slots (chapter 11.2). -/
abbrev slotsAt : Nat := 0x4000
/-- Offset of the post word. -/
abbrev postAt : Nat := 0x4400
/-- Offset of the seen word. -/
abbrev seenAt : Nat := 0x4408
/-- Offset of the completion word. -/
abbrev completionAt : Nat := 0x8000
/-- Offset of the status page. -/
abbrev pageAt : Nat := 0x8100

/-- The fields of the fixed configuration area, as (offset, size) ranges (chapter 11.3). -/
def fixedFields : List (Nat × Nat) :=
  [(0x000, 11), (0x040, 3), (0x080, 8), (0x0C0, 12), (0x200, 9), (0x210, 32), (0x280, 64)]

/-- The fields of one lane entry, as (offset, size) ranges (chapter 11.3). -/
def laneEntryFields : List (Nat × Nat) :=
  [(0x00, 3), (0x04, 8), (0x10, 24)]

/-- Whether a byte of the configuration area belongs to a fixed field: the bytes that R150 guards (chapter 11.3). -/
def isFixedByte (o : Nat) : Bool :=
  inRanges fixedFields o ||
    (decide (0x100 ≤ o) && decide (o < 0x140) && decide (o % 4 < 3)) ||
    (decide (0x400 ≤ o) && decide (o < 0x600) && inRanges laneEntryFields (o % 64))

/-- The live group whose sequence word a write touches, if any; a span covers at most one (R151). -/
def seqGroup (anchor : Nat) (q : Request) : Option GroupId :=
  allGroups.find? fun g => q.touches (anchor + g.base + seqAt) 4

/-! ## Regions -/

/-- Whether address a lies in the n bytes at b. -/
def within (a b n : Nat) : Bool := decide (b ≤ a) && decide (a < b + n)

/-- The class of an address within the anchor region (chapter 11.2). -/
def anchorRegion (o : Nat) : Region :=
  if o < 0x4000 then .anchorConfig else if o < 0x8000 then .anchorCommand else .anchorOwned

/-- The window of an aperture an offset lies in, with the offset inside it (R154). -/
def windowAt (m : RegionMap) (o : Nat) : Option (LogId × ViewKind × Nat) :=
  let hit := fun (l : LogId) (v : ViewKind) (start : Nat) =>
    if within o start m.logs[l.idx].2 then some (l, v, o - start) else none
  allLogs.findSome? fun l =>
    match hit l .take m.views.takeAt[l.idx] with
    | some w => some w
    | none => hit l .peek m.views.peekAt[l.idx]

/-- Bytes of the view aperture (R146). -/
def ViewFields.size (v : ViewFields) : Nat := v.sizeMiB * 1048576

/-- The class of an address under a region map (R145). -/
def mapRegion (anchor : Nat) (m : RegionMap) (a : Nat) : Region :=
  if within a anchor Config.anchorSize then anchorRegion (a - anchor)
  else match allLanes.find? (fun k => within a m.rings[k].1 m.rings[k].2) with
    | some k => .landing k
    | none =>
      if allLogs.any (fun l => within a m.logs[l.idx].1 m.logs[l.idx].2) then .log
      else if within a m.views.base m.views.size then
        match windowAt m (a - m.views.base) with
        | some (l, v, _) => .view l v
        | none => .viewSpare
      else .plain

/-- The class of an address in the TRANSPARENT manner: only the command and the owned classes are recognised (R152). -/
def transparentRegion (anchor a : Nat) : Region :=
  if within a anchor Config.anchorSize then
    match anchorRegion (a - anchor) with
    | .anchorConfig => .plain
    | r => r
  else .plain

/-- The class of an address as the Path Unit stands (R145, R152). -/
def Path.region (p : Path) (a : Nat) : Region :=
  match p.map with
  | none => transparentRegion p.anchorBase a
  | some m => mapRegion p.anchorBase m a

/-- Whether a request spans two classes (R145). -/
def Path.spansTwo (p : Path) (q : Request) : Bool :=
  decide (p.region q.addr.toNat ≠ p.region q.lastByte)

/-- The source table entry of a request: in the TRANSPARENT manner every source holds PLAIN_WRITE and COMMAND_WRITE
(R147, R152). -/
def Path.entry (p : Path) (s : SourceId) : SourceEntry :=
  match p.map with
  | none =>
    { role := .other
      rights := { plainWrite := true, landingOwn := false, landingAny := false, configWrite := false,
                  commandWrite := true, viewRead := false } }
  | some m => m.sources[s]

/-- The region map of a configuration shadow (R145). -/
def Shadow.regionMap (c : Shadow) : RegionMap :=
  let ring := fun (k : LaneId) => (c.lanes[k].base, c.lanes[k].slots * c.lanes[k].stride)
  let log := fun (l : LogId) => (c.logs[l.idx].base, c.logs[l.idx].entries * l.entrySize)
  { rings := #v[ring 0, ring 1, ring 2, ring 3, ring 4, ring 5, ring 6, ring 7]
    logs := #v[log .flaw, log .plate, log .shift, log .fault]
    views := c.views
    sources := c.sources }

end Sys2Proof.Machine
end

