-- ==== Sys2Proof/Machine/Validate.lean ====
section
/-! DEFINITION. The checks of CONFIGURE (R163) and of a live group's pending copy (R166): the ranges of every field, and
the reason a refused CONFIGURE gives. -/

namespace Sys2Proof.Machine

/-- lo ≤ v ≤ hi. -/
def between (lo v hi : Nat) : Bool := decide (lo ≤ v) && decide (v ≤ hi)

/-! ## Live groups -/

/-- Three factors from 1 to 255 in rising order (R44). -/
def factorsOk (f1 f2 f3 : Nat) : Bool := decide (1 ≤ f1) && decide (f1 < f2) && decide (f2 < f3) && decide (f3 ≤ 255)

/-- The pixel fields (R44) and shape fields (R60) of a DETECT copy are in range and in order. -/
def DetectGroup.ok (g : DetectGroup) : Bool :=
  factorsOk g.d1 g.d2 g.d3 && factorsOk g.u1 g.u2 g.u3 && between 1 g.shift 10 && decide (g.blindFloor ≤ 65535) &&
    between 64 g.holdLimit 4095 && decide (g.bridge ≤ 7) && decide (g.blindLimit ≤ 8192) && decide (g.alongGap ≤ 7) &&
    decide (g.crossBridge ≤ 5000) && between 10000 g.maxLength 5000000 && between 100 g.pointSize 20000

/-- Sizes strictly descending (R83). -/
def descending : List Nat → Bool
  | a :: b :: rest => decide (b < a) && descending (b :: rest)
  | _ => true

/-- The fields of a PLAN copy are in range, its sizes in use strictly descending and none below min_trim (R83). A size
beyond the size count is not in use, and whether its range counts the spec leaves open: the model does not test it, DESIGN
CHOICE (notes/assumptions/38). -/
def PlanGroup.ok (g : PlanGroup) (minTrim : Nat) : Bool :=
  between 1 g.count 4 && between 2 g.level 3 && decide (g.margin ≤ 500000) &&
    g.sizes.all (fun l => between 300000 l 12000000 && decide (minTrim ≤ l)) && descending g.sizes

/-- The span check D_cut − D_commit ≥ L1 + maximum blob length (R82, R60). -/
def spanOk (dCut dCommit l1 maxLength : Nat) : Bool := decide (dCommit + l1 + maxLength ≤ dCut)

/-- A GRADE copy: limits in range and no looser for A than for B, caps A, B or C (R115). -/
def GradeGroup.ok (g : GradeGroup) : Bool :=
  decide (g.majorMaxA ≤ 255) && decide (g.majorMaxB ≤ 255) && decide (g.majorMaxA ≤ g.majorMaxB) &&
    decide (g.dA ≤ 65535) && decide (g.dB ≤ 65535) && decide (g.dA ≤ g.dB) &&
    decide (g.capPoint ≤ 2) && decide (g.capStreak ≤ 2) && decide (g.capBand ≤ 2) && decide (g.capArea ≤ 2)

/-- The ranges of a STRIKE copy (R102). -/
def StrikeGroup.ok (g : StrikeGroup) : Bool :=
  between 1000 g.wScore 50000 && decide (g.dSnap ≤ 20000000) && between 1000 g.wSnap 1000000 &&
    between 300000 g.dGate 200000000

/-- The gate distance is at least L1 (R102, R83). -/
def gateOk (dGate l1 : Nat) : Bool := decide (l1 ≤ dGate)

/-- A shift start entry: hour, minute and a non-empty mask (R131). -/
def ShiftStart.ok (e : ShiftStart) : Bool :=
  decide (e.hour ≤ 23) && decide (e.minute ≤ 59) && e.days.toList.any id

/-- No two entries share an hour and minute (R131). -/
def startsDistinct : List ShiftStart → Bool
  | [] => true
  | e :: rest => rest.all (fun f => !(decide (e.hour = f.hour) && decide (e.minute = f.minute))) && startsDistinct rest

/-- A CLOCK copy: trim, entry count and the entries in use (R131). -/
def ClockGroup.ok (g : ClockGroup) : Bool :=
  decide (-63 ≤ g.trim) && decide (g.trim ≤ 63) && between 1 g.count 4 && g.inUse.all ShiftStart.ok &&
    startsDistinct g.inUse

/-- The fields of the copies another group's copy is judged against: the active one, and the eligible one where one is
held (R166). -/
def Copies.both {α : Type} (c : Copies α) : List α :=
  (match c.active with | none => [] | some a => [a.fields]) ++
    (match c.eligible with | none => [] | some e => [e.fields])

/-- The validity of a group's image against the shadow and the other groups' copies (R166, R60, R83, R102). -/
def Command.groupValid (c : Command) (g : GroupId) (image : List Byte) : Bool :=
  match c.shadow with
  | none => false
  | some sh =>
    match g with
    | .detect =>
      let d := parseDetect image
      d.ok && c.plan.both.all (fun p => spanOk sh.dCut sh.dCommit p.l1 d.maxLength)
    | .plan =>
      let p := parsePlan image
      p.ok sh.minTrim && c.detect.both.all (fun d => spanOk sh.dCut sh.dCommit p.l1 d.maxLength) &&
        c.strike.both.all (fun st => gateOk st.dGate p.l1)
    | .grade => (parseGrade image).ok
    | .strike =>
      let st := parseStrike image
      st.ok && c.plan.both.all (fun p => gateOk st.dGate p.l1)
    | .clock => (parseClock image).ok

/-! ## CONFIGURE -/

/-- A yes-or-no byte (R174). -/
def yesNoOk (v : Nat) : Bool := decide (v ≤ 1)

/-- The travel fields (R1); the encoder sense is a code (R174). -/
def travelOk (b : List Byte) : Bool :=
  let t := parseTravel b
  between 20 t.pitch 1000 && between 1 t.scale (t.pitch * 65536) && between 64 t.tStop 65535 && yesNoOk (byteAt b 0x00A)

/-- The greatest cross position. -/
abbrev crossLimit : Nat := 8388607

/-- The cross position of column j (R18). -/
def LaneGeometry.cross (g : LaneGeometry) (j : Nat) : Nat :=
  if g.mirrored then g.origin - j * g.pitch / 256 else g.origin + j * g.pitch / 256

/-- Every column of the lane lies within the cross range (R19). -/
def LaneGeometry.columnsOk (g : LaneGeometry) : Bool :=
  let reach := (g.length - 1) * g.pitch / 256
  if g.mirrored then decide (reach ≤ g.origin) else decide (g.origin + reach ≤ crossLimit)

/-- The ranges of one lane's geometry (R18, R19). -/
def LaneGeometry.ok (g : LaneGeometry) : Bool :=
  decide (g.source ≤ 15) && decide (g.base < Config.addressSpace) && decide (g.base % 4096 = 0) &&
    decide (g.slots ∈ [16, 32, 64, 128, 256]) && decide (g.stride % 64 = 0) && decide (g.length ≤ g.stride) &&
    decide (g.stride ≤ 65536) && between 1024 g.length 8192 && decide (g.length % 64 = 0) &&
    decide (g.origin ≤ crossLimit) && between 2560 g.pitch 256000 && decide (g.ownLo ≤ g.ownHi) &&
    decide (g.ownHi ≤ crossLimit) && g.columnsOk

/-- The lane timing fields (R19). -/
def LaneTiming.ok (t : LaneTiming) : Bool := between 1 t.lag 15 && between 4 t.lockLines 64 && between 2 t.stall 255

/-- LANE_GEOMETRY: the net range, the timing fields, and every lane's geometry and codes (R59, R19, R174). -/
def lanesOk (b : List Byte) (sh : Shadow) : Bool :=
  decide (sh.netLo < sh.netHi) && decide (sh.netHi ≤ crossLimit) && sh.timing.ok &&
    allLanes.all fun k =>
      sh.lanes[k].ok && decide (sh.timing.lag < sh.lanes[k].slots) &&
        yesNoOk (byteAt b (laneEntryAt k.val)) && yesNoOk (byteAt b (laneEntryAt k.val + 2))

/-- Every two items of a list pass a test. -/
def pairwise {α : Type} (p : α → α → Bool) : List α → Bool
  | [] => true
  | a :: rest => rest.all (p a) && pairwise p rest

/-- OWNED_OVERLAP: no two owned ranges share a cross position (R19). -/
def ownedOk (sh : Shadow) : Bool :=
  pairwise (fun (j k : LaneId) =>
    decide (sh.lanes[j].ownHi < sh.lanes[k].ownLo) || decide (sh.lanes[k].ownHi < sh.lanes[j].ownLo)) allLanes

/-- Two address ranges (base, size) share no byte. -/
def disjoint (r t : Nat × Nat) : Bool :=
  decide (r.1 + r.2 ≤ t.1) || decide (t.1 + t.2 ≤ r.1)

/-- A range that ends at or below the top of the bus. -/
def fits (r : Nat × Nat) : Bool := decide (r.1 + r.2 ≤ Config.addressSpace)

/-- Powers of two from 16 to 65,536 (R163). -/
def logEntryCounts : List Nat :=
  [16, 32, 64, 128, 256, 512, 1024, 2048, 4096, 8192, 16384, 32768, 65536]

/-- The fields of one log ring (R163). -/
def LogFields.ok (f : LogFields) : Bool :=
  decide (f.base % 4096 = 0) && decide (f.entries ∈ logEntryCounts) && between 1 f.notify f.entries

/-- The anchor, the landing rings and the log rings, as address ranges. -/
def ringRanges (anchor : Nat) (m : RegionMap) : List (Nat × Nat) :=
  (anchor, Config.anchorSize) :: (m.rings.toList ++ m.logs.toList)

/-- RING_LAYOUT: the log ring fields, and no ring that reaches past the bus or overlaps another ring or the anchor (R19,
R163). -/
def ringsOk (anchor : Nat) (sh : Shadow) : Bool :=
  let m := sh.regionMap
  sh.logs.toList.all LogFields.ok && (m.rings.toList ++ m.logs.toList).all fits && pairwise disjoint (ringRanges anchor m)

/-- The rights of an entry against its role (R147). -/
def SourceEntry.ok (e : SourceEntry) : Bool :=
  match e.role with
  | .controller => !e.rights.landingOwn
  | .camera _ => !(e.rights.landingAny || e.rights.configWrite || e.rights.commandWrite || e.rights.viewRead)
  | .other =>
    !(e.rights.landingOwn || e.rights.landingAny || e.rights.configWrite || e.rights.commandWrite || e.rights.viewRead)

/-- SOURCE_TABLE: role codes, rights, one camera per lane, a controller that holds both CONFIG_WRITE and COMMAND_WRITE, and
every lane's camera source (R147, R19, R174). What CONFIGURE does with a CAMERA entry whose lane byte names no lane the spec
leaves open: it is refused, DESIGN CHOICE (notes/assumptions/40). -/
def sourcesOk (b : List Byte) (sh : Shadow) : Bool :=
  let es := sh.sources.toList
  let code := fun s => byteAt b (sourceEntryAt s)
  (List.range 16).all (fun s => decide (code s ≤ 2) && (decide (code s ≠ 2) || decide (byteAt b (sourceEntryAt s + 1) < 8))) &&
    es.all SourceEntry.ok &&
    allLanes.all (fun k => decide ((es.filter (fun e => decide (e.role = .camera k))).length ≤ 1)) &&
    es.any (fun e => decide (e.role = .controller) && e.rights.configWrite && e.rights.commandWrite) &&
    allLanes.all (fun k =>
      match es[sh.lanes[k].source]? with
      | some e => decide (e.role = .camera k)
      | none => false)

/-- The eight windows of the aperture as (offset, size) ranges (R146). -/
def windowRanges (m : RegionMap) : List (Nat × Nat) :=
  allLogs.map (fun l => (m.views.takeAt[l.idx], m.logs[l.idx].2)) ++
    allLogs.map (fun l => (m.views.peekAt[l.idx], m.logs[l.idx].2))

/-- VIEWS: the aperture fields, windows inside it and apart, and the aperture apart from every ring and the anchor (R146). -/
def viewsOk (anchor : Nat) (sh : Shadow) : Bool :=
  let m := sh.regionMap
  let v := sh.views
  decide (v.base % 1048576 = 0) && between 1 v.sizeMiB 64 && fits (v.base, v.size) &&
    (windowRanges m).all (fun w => decide (w.1 % 4096 = 0) && decide (w.1 + w.2 ≤ v.size)) &&
    pairwise disjoint (windowRanges m) && (ringRanges anchor m).all (disjoint (v.base, v.size))

/-- SPAN: D_cut, D_commit and the span check of the configuration read (R82). -/
def distancesOk (sh : Shadow) (p : PlanGroup) (d : DetectGroup) : Bool :=
  between 2000000 sh.dCut 120000000 && between 100000 sh.dCommit (sh.dCut - 1) &&
    spanOk sh.dCut sh.dCommit p.l1 d.maxLength

/-- A configuration as read from memory: the fixed fields, and the image of each live group (R163). -/
structure Area where
  bytes  : List Byte
  shadow : Shadow
  detect : DetectGroup
  plan   : PlanGroup
  grade  : GradeGroup
  strike : StrikeGroup
  clock  : ClockGroup
  deriving DecidableEq, Repr

/-- The 256 bytes of a live group in a configuration area. -/
def groupImage (b : List Byte) (g : GroupId) : List Byte := slice b g.base 256

/-- A configuration from the bytes read. -/
def parseArea (b : List Byte) : Area :=
  { bytes := b, shadow := parseShadow b, detect := parseDetect (groupImage b .detect),
    plan := parsePlan (groupImage b .plan), grade := parseGrade (groupImage b .grade),
    strike := parseStrike (groupImage b .strike), clock := parseClock (groupImage b .clock) }

/-- The checks of CONFIGURE in the order in which their reasons are given (R163). -/
def Area.checks (anchor : Nat) (a : Area) : List (Bool × Reason) :=
  [(travelOk a.bytes && a.clock.ok, .travel),
   (lanesOk a.bytes a.shadow, .laneGeometry),
   (ownedOk a.shadow, .ownedOverlap),
   (ringsOk anchor a.shadow, .ringLayout),
   (sourcesOk a.bytes a.shadow, .sourceTable),
   (viewsOk anchor a.shadow, .views),
   (distancesOk a.shadow a.plan a.detect, .span),
   (between 100000 a.shadow.minTrim 2000000 && a.plan.ok a.shadow.minTrim, .sizes),
   (a.detect.ok && a.grade.ok, .thresholdOrder),
   (a.strike.ok && gateOk a.strike.dGate a.plan.l1, .strikeGate)]

/-- The reason a configuration is refused with, the first check that fails, or none (R163). -/
def Area.refusal (anchor : Nat) (a : Area) : Option Reason :=
  match (a.checks anchor).find? (fun c => !c.1) with
  | some c => some c.2
  | none => none

end Sys2Proof.Machine
end

