-- ==== Sys2Proof/Machine/Time.lean ====
section
/-! DEFINITION. The calendar: its ranges, its advance by one second, and the clock stamp (R129, R174). -/

namespace Sys2Proof.Machine

/-- Whether a year has a 29th of February: every year divisible by 4 (R129). -/
def leapYear (y : Nat) : Bool := decide (y % 4 = 0)

/-- The length of a month in a year (R129). -/
def monthLength (y m : Nat) : Nat :=
  match m with
  | 2 => if leapYear y then 29 else 28
  | 4 | 6 | 9 | 11 => 30
  | _ => 31

/-- A calendar within the ranges of R129, the day within its month. -/
def Calendar.valid (c : Calendar) : Bool :=
  decide (2000 ≤ c.year) && decide (c.year ≤ 2099) && decide (1 ≤ c.month) && decide (c.month ≤ 12) &&
    decide (1 ≤ c.day) && decide (c.day ≤ monthLength c.year c.month) && decide (c.weekday ≤ 6) &&
    decide (c.hour ≤ 23) && decide (c.minute ≤ 59) && decide (c.second ≤ 59)

/-- The year after a December: 2099 returns to 2000 (R129). -/
def Calendar.nextYear (c : Calendar) : Calendar :=
  { c with month := 1, year := if c.year = 2099 then 2000 else c.year + 1 }

/-- The month after the last day of one (R129). -/
def Calendar.nextMonth (c : Calendar) : Calendar :=
  let c := { c with day := 1 }
  if c.month = 12 then c.nextYear else { c with month := c.month + 1 }

/-- Midnight: the weekday advances from 6 to 0, and the day or its month (R129). -/
def Calendar.nextDay (c : Calendar) : Calendar :=
  let c := { c with weekday := if c.weekday = 6 then 0 else c.weekday + 1 }
  if c.day = monthLength c.year c.month then c.nextMonth else { c with day := c.day + 1 }

/-- The hour after minute 59 (R129). -/
def Calendar.nextHour (c : Calendar) : Calendar :=
  if c.hour = 23 then { c with hour := 0 }.nextDay else { c with hour := c.hour + 1 }

/-- The minute after second 59 (R129). -/
def Calendar.nextMinute (c : Calendar) : Calendar :=
  if c.minute = 59 then { c with minute := 0 }.nextHour else { c with minute := c.minute + 1 }

/-- The calendar advanced by one second (R129). -/
def Calendar.advance (c : Calendar) : Calendar :=
  if c.second = 59 then { c with second := 0 }.nextMinute else { c with second := c.second + 1 }

/-- Days of a year before a month. -/
def daysBefore (y : Nat) : Nat → Nat
  | 0 => 0
  | 1 => 0
  | m + 1 => daysBefore y m + monthLength y m

/-- The clock stamp: calendar seconds from 2000-01-01 00:00:00, a leap year in every year divisible by 4 (R174). -/
def Calendar.stamp (c : Calendar) : Nat :=
  let y := c.year - 2000
  let days := 365 * y + (y + 3) / 4 + daysBefore c.year c.month + (c.day - 1)
  ((days * 24 + c.hour) * 60 + c.minute) * 60 + c.second

end Sys2Proof.Machine
end

