-- ==== Sys2Proof/Machine/Images.lean ====
section
/-! DEFINITION. The images the part writes: the codes of R174, the four log records (chapter 11.5), the command slot's
status (R175) and the status page (chapter 11.6). -/

namespace Sys2Proof.Machine

/-! ## Codes (R174) -/

/-- Run state codes. -/
def RunState.code : RunState → Nat
  | .transparent => 0 | .configured => 1 | .running => 2 | .draining => 3

/-- Lane state codes. -/
def LaneState.code : LaneState → Nat
  | .off => 0 | .waiting => 1 | .locking => 2 | .tracking => 3 | .dropout => 4 | .faulted => 5

/-- Severity codes. -/
def Severity.code : Severity → Nat
  | .minor => 1 | .major => 2 | .reject => 3

/-- Class codes. -/
def FlawClass.code : FlawClass → Nat
  | .point => 0 | .streak => 1 | .band => 2 | .area => 3

/-- Polarity codes. -/
def Polarity.code : Polarity → Nat
  | .dark => 0 | .bright => 1 | .mixed => 2

/-- Disposition codes. -/
def Disposition.code : Disposition → Nat
  | .edge => 0 | .orphan => 1 | .held => 2 | .unheld => 3

/-- Piece kind codes. -/
def PieceKind.code : PieceKind → Nat
  | .lead => 0 | .size i => 1 + i.val | .cullet => 5 | .manual => 6 | .overlength => 7 | .runEnd => 8

/-- Grade codes, which are also the tally's places (chapter 11.5). -/
def Grade.idx : Grade → Fin 5
  | .a => 0 | .b => 1 | .c => 2 | .u => 3 | .x => 4

/-- Fault kind codes. -/
def FaultKind.code : FaultKind → Nat
  | .region => 1 | .viewWrite => 2 | .viewRight => 3 | .lockedField => 4 | .postOverrun => 5 | .groupInvalid => 6
  | .slotCross => 7 | .tornLine => 8

/-- Reason codes; none is 0. -/
def reasonCode : Option Reason → Nat
  | none => 0
  | some .travel => 1 | some .laneGeometry => 2 | some .ownedOverlap => 3 | some .ringLayout => 4
  | some .sourceTable => 5 | some .views => 6 | some .span => 7 | some .sizes => 8 | some .thresholdOrder => 9
  | some .strikeGate => 10 | some .runActive => 11 | some .notConfigured => 12 | some .notRunning => 13
  | some .badCommand => 14 | some .badTime => 15 | some .tooLate => 16 | some .tooSoon => 17
  | some .notInspected => 18 | some .noRoom => 19

/-- Outcome codes of a finished command: DONE with no reason, REFUSED with one. -/
def outcomeCode : Option Reason → Nat
  | none => 1
  | some _ => 2

/-- Opening slot codes. -/
def OpeningSlot.code : OpeningSlot → Nat
  | .entry i => i.val | .manual => 4 | .reset => 5

/-- The place of a gap cause in the shift report (chapter 11.5). -/
def GapCause.idx : GapCause → Fin 8
  | .missed => 0 | .torn => 1 | .overrun => 2 | .dropout => 3 | .faulted => 4 | .disabled => 5 | .locking => 6 | .blind => 7

/-- The place of a class and severity in the shift report (chapter 11.5). -/
def flawIdx (c : FlawClass) (v : Severity) : Fin 12 :=
  match c, v with
  | .point, .minor => 0 | .point, .major => 1 | .point, .reject => 2
  | .streak, .minor => 3 | .streak, .major => 4 | .streak, .reject => 5
  | .band, .minor => 6 | .band, .major => 7 | .band, .reject => 8
  | .area, .minor => 9 | .area, .major => 10 | .area, .reject => 11

/-! ## Log records (chapter 11.5) -/

/-- The fields of a list of numbers, each in n bytes. -/
def leAll (n : Nat) (vs : List Nat) : List Byte := vs.flatMap (le n)

/-- The flags byte of a flaw record. -/
def BlobFlags.byte (f : BlobFlags) : Nat :=
  bitsOf [f.merged, f.crowded, f.continued.isSome, f.partialView, f.truncated, f.forced]

/-- A flaw record, 64 bytes, less its sequence word. -/
def FlawRecord.image (r : FlawRecord) : List Byte :=
  layout 60 0
    [(0x00, le 4 r.number ++ le 2 r.run.toNat ++ le 1 r.disposition.code ++ le 1 r.severity.code ++ le 1 r.cls.code ++
        le 1 r.polarity.code ++ le 1 r.flags.byte ++ le 1 (bitsOf r.lanes.toList)),
     (0x0C, leAll 4 [r.first, r.front, r.flags.continued.getD 0]),
     (0x18, leAll 8 [r.start, r.stop]),
     (0x28, leAll 4 [r.lo, r.hi]),
     (0x30, le 2 r.peak),
     (0x34, leAll 4 [r.sum, r.area])]

/-- The reasons of a plate record as bits 0 to 11. -/
def Reasons.bits (r : Reasons) : Nat :=
  bitsOf [r.kind, r.gap, r.overflow, r.reject, r.majorB, r.densityB, r.majorA, r.densityA, r.capPoint, r.capStreak,
    r.capBand, r.capArea]

/-- The clock stamp of a plate record's strike time, and its clock-valid bit. -/
def PlateRecord.stampFields (r : PlateRecord) : Nat × Nat × Bool :=
  match r.stamp with
  | none => (0, 0, false)
  | some t => (t.shift.toNat, t.time.stamp, t.valid)

/-- A plate record, 128 bytes, less its sequence word. -/
def PlateRecord.image (r : PlateRecord) : List Byte :=
  let t := r.stampFields
  layout 124 0
    [(0x00, le 4 r.number ++ le 2 r.run.toNat ++ le 1 r.kind.code ++ le 1 r.grade.idx.val ++ le 2 r.reasons.bits ++
        le 1 (bitsOf [r.head.isSome, r.overflow, r.diverted, t.2.2]) ++ le 1 r.top.length),
     (0x0C, le 4 t.1 ++ le 6 (r.head.getD 0) ++ le 6 r.tail ++ le 4 r.area),
     (0x20, leAll 2 [r.counts.minor, r.counts.major, r.counts.reject, r.counts.point, r.counts.streak, r.counts.band,
        r.counts.area, r.counts.late, r.counts.unplanned, r.counts.total]),
     (0x34, le 4 (min r.overlap max32) ++ le 4 t.2.1),
     (0x3C, leAll 4 r.top)]

/-- A fault record, 32 bytes, less its sequence word (R174). -/
def FaultRecord.image (r : FaultRecord) : List Byte :=
  layout 28 0
    [(0x00, le 1 r.source.val ++ le 1 r.firstKind.code ++ le 1 r.lastKind.code ++
        le 1 (bitsOf [r.firstValid, r.lastValid]) ++ le 2 r.repeats ++ le 2 r.detailA.toNat ++ le 8 r.detailB.toNat ++
        le 4 r.firstTime.stamp ++ le 4 r.lastTime.stamp)]

/-- A shift report, 256 bytes, less its sequence word. -/
def ShiftReport.image (r : ShiftReport) : List Byte :=
  let t := r.tally
  let c := t.counters
  layout 252 0
    [(0x00, le 4 t.shift.toNat ++ le 1 t.slot.code ++
        le 1 (bitsOf [decide (t.slot = .reset), t.clockSet, t.clockUnset, decide (0 < t.merged), t.runs.isSome]) ++
        le 2 t.merged ++ le 4 t.start.stamp ++ le 4 r.fin.stamp ++
        (match t.runs with | none => zeros 4 | some q => le 2 q.first.toNat ++ le 2 q.last.toNat)),
     (0x18, leAll 4 c.pieces.toList),
     (0x2C, leAll 8 c.lengths.toList ++ le 8 c.cullet),
     (0x5C, leAll 4 c.flaws.toList ++ leAll 4 [c.edge, c.orphan, c.late, c.unplanned, c.flawLost]),
     (0xA0, le 4 c.gapLines ++ le 8 (c.gapLength / 1000)),
     (0xAC, leAll 4 [c.stops, c.stopSeconds]),
     (0xB4, leAll 4 [c.queueFull, c.gateLate, c.overlaps]),
     (0xC0, leAll 4 [c.refused, c.abandoned]),
     (0xC8, leAll 4 c.gapCauses.toList)]

/-! ## The status page (chapter 11.6) -/

/-- How many of a list of numbers are distinct. -/
def distinctCount : List Nat → Nat
  | [] => 0
  | a :: rest => (if rest.contains a then 0 else 1) + distinctCount rest

/-- The frontier F: the lowest settled line recorded over all eight lanes (R61). -/
def Assembler.frontier (a : Assembler) : Nat :=
  allLanes.foldl (fun m k => min m a.settled[k]) a.settled[(0 : Fin 8)]

/-- The candidate tail h + L1 of an open piece (R89). -/
def OpenPiece.candidate (o : OpenPiece) : Nat := o.head + o.sizes.l1

/-- Pieces of the piece table, the open piece among them (R80). -/
def Planner.count (p : Planner) : Nat := p.pieces.length + (if p.openPiece.isSome then 1 else 0)

/-- The log entries not released: producer less consumer (R167). -/
def LogState.unreleased (l : LogState) : Nat := (l.producer - l.consumer).toNat

/-- The active sequence value of a group. -/
def Copies.activeSeq {α : Type} (c : Copies α) : Nat :=
  match c.active with
  | none => 0
  | some a => a.seq.toNat

/-- The status of one live group (R166). -/
def groupStatus {α : Type} (c : Command) (g : GroupId) (k : Copies α) : List Byte :=
  le 4 k.activeSeq ++
    le 4 (match c.mirror[g.idx] with | none => 0 | some m => (parseSeq m.image).toNat) ++
    flagByte k.eligible.isSome ++ flagByte c.invalid[g.idx] ++ zeros 2

/-- The Command Unit's part of the page. -/
def Command.page (c : Command) : List Byte :=
  le 1 c.runState.code ++ le 1 (reasonCode c.lastReason) ++ le 2 c.run.toNat ++
    leAll 4 [c.post.toNat, c.taken.toNat, c.completion.toNat] ++
    groupStatus c .detect c.detect ++ groupStatus c .plan c.plan ++ groupStatus c .grade c.grade ++
    groupStatus c .strike c.strike ++ groupStatus c .clock c.clock

/-- The Path Unit's part of the page (R158). -/
def Path.page (p : Path) : List Byte :=
  le 8 p.anchorBase ++ flagByte p.map.isSome ++ le 1 p.queue.length ++
    le 1 (p.queue.filter (fun e => e.held)).length ++ le 1 p.internal.length ++
    le 1 (distinctCount (p.rewrites.map (fun r => r.position))) ++ zeros 3 ++
    leAll 4 [p.forwarded, p.refused, p.heldReads]

/-- The Travel Unit's part of the page (R15). -/
def Travel.page (t : Travel) : List Byte :=
  le 8 t.pos ++ leAll 4 [t.count, t.speed, t.quadErrors] ++ flagByte (decide (t.motion = .stopped)) ++
    flagByte t.positionLimit

/-- One lane's part of the page: the Lane Unit's values, and the engine's for that lane (R29, R57). -/
def lanePage (l : Lane) (e : EngineLane) : List Byte :=
  layout 40 0
    [(0, le 1 l.state.code ++ flagByte l.enabled ++ flagByte l.seeded),
     (4, leAll 4 [l.settled, l.counters.completed, l.counters.declared, l.counters.stale, l.counters.torn,
        l.counters.overruns, l.counters.dropouts]),
     (32, le 1 e.join.length),
     (36, le 4 e.crowded)]

/-- The Pixel Engine's part of the page (R57). -/
def Engine.page (e : Engine) : List Byte := flagByte e.analysis.isSome ++ le 1 e.ready.length

/-- The Blob Assembler's part of the page (R78). -/
def Assembler.page (a : Assembler) : List Byte :=
  le 4 a.frontier ++ le 4 a.joined ++ le 1 a.blobs.length ++ le 1 a.gaps.length ++ le 2 a.table.length ++
    flagByte a.overflow.isSome ++ zeros 3 ++
    (match a.overflow with | none => zeros 16 | some o => le 8 o.lo ++ le 8 o.hi) ++
    leAll 4 [a.nextFlaw, a.forced, a.truncated]

/-- Run-end codes (chapter 11.6). -/
def RunEnd.code : RunEnd → Nat
  | .none => 0 | .waiting => 1 | .fixed => 2

/-- The Cut Planner's part of the page (R100). -/
def Planner.page (p : Planner) : List Byte :=
  le 1 p.count ++ le 1 (p.pieces.filter (fun q => decide (q.state = .waitingLog))).length ++ le 1 p.cuts.length ++
    le 1 (p.cuts.filter (fun c => c.committed)).length ++ flagByte p.overdue ++ le 1 p.runEnd.code ++
    flagByte p.openPiece.isSome ++ zeros 1 ++
    (match p.openPiece with | none => zeros 16 | some o => le 8 o.head ++ le 8 o.candidate) ++
    leSigned 8 (p.cf.getD 0) ++ le 8 p.frontier ++ le 4 p.nextPiece

/-- The Strike Unit's part of the page (R113). -/
def Strike.page (t : Strike) : List Byte :=
  flagByte t.score.level ++ flagByte t.snap.level ++ flagByte t.gate.level ++ flagByte t.claiming.isSome ++
    flagByte t.offered.isSome ++ le 1 t.track.length ++ le 1 t.gates.length ++ flagByte t.gates.getLast?.isSome ++
    le 8 (t.offered.getD 0) ++
    (match t.gates.getLast? with | none => zeros 16 | some g => le 8 g.start ++ le 8 g.stop) ++
    leAll 4 [t.strikes, t.withdrawn, t.merges]

/-- The grading state's code and the piece in grading. -/
def GradingState.view : GradingState → Nat × Option Nat
  | .idle => (0, none)
  | .gathering h => (1, some h.number)
  | .stamping r => (2, some r.number)

/-- The Grading Unit's part of the page (R127). -/
def Grading.page (g : Grading) : List Byte :=
  le 1 g.state.view.1 ++ flagByte g.state.view.2.isSome ++ le 1 g.queue.length ++ le 1 g.outbound.length ++
    flagByte g.outstanding ++ flagByte g.logFull ++ zeros 2 ++ leAll 4 [g.state.view.2.getD 0, g.graded, g.held]

/-- The hold slot's code and the shift number of the report it holds. -/
def HoldSlot.view : HoldSlot → Nat × Nat
  | .empty => (0, 0)
  | .offered r => (1, r.tally.shift.toNat)
  | .held r => (2, r.tally.shift.toNat)

/-- The Shift Unit's part of the page (R141). -/
def Shift.page (t : Shift) : List Byte :=
  let c := t.calendar
  le 2 c.year ++ leAll 1 [c.month, c.day, c.weekday, c.hour, c.minute, c.second] ++ flagByte t.valid ++
    leSigned 1 t.trim ++ flagByte t.table.isSome ++ le 1 t.tally.slot.code ++ le 1 t.hold.view.1 ++ zeros 3 ++
    le 4 t.number.toNat ++ le 2 t.run.toNat ++ le 2 t.tally.merged ++ le 4 t.tally.start.stamp ++ le 4 t.hold.view.2

/-- One log's part of the page (R171). -/
def LogState.page (l : LogState) : List Byte :=
  leAll 4 [l.producer.toNat, l.consumer.toNat, l.unreleased, l.nextSeq.toNat]

/-- The Record Writer's part of the page, with the seen word of the mirror (R171). -/
def Writer.page (w : Writer) (seen : Word32) : List Byte :=
  allLogs.flatMap (fun l => w.logs[l.idx].page) ++
    leAll 4 [w.flawLost, w.faultLost, w.lastCompletion.toNat, seen.toNat]

/-- The 1,024 bytes of the status page, both sequence words holding seq (R171, R176). -/
def State.pageImage (s : State) (seq : Word32) : List Byte :=
  layout 1024 0
    [(0x000, le 4 seq.toNat),
     (0x008, s.cmd.page),
     (0x058, s.path.page),
     (0x078, s.travel.page),
     (0x090, allLanes.flatMap (fun k => lanePage s.lanes[k] s.engine.lanes[k])),
     (0x1D0, s.engine.page),
     (0x1D8, s.asm.page),
     (0x208, s.planner.page),
     (0x238, s.strike.page),
     (0x268, s.grading.page),
     (0x280, s.shift.page),
     (0x2A0, s.writer.page s.cmd.seen),
     (0x3F8, le 4 seq.toNat)]

/-! ## The page at the end of a reset (R176) -/

/-- Whether the Travel Unit holds a configuration: the travel fields (R1, R16). -/
def Travel.configured (t : Travel) : Bool := t.fields.isSome

/-- The values the page at the end of a reset shows. A block that holds no configuration shows zero where its register is
not zero after a reset: the motion state, the next flaw and piece numbers, and each log's next sequence number (R176). That
the rule binds this page alone, and the fields that no configuration gives not at all, is the model's choice
(notes/assumptions/36). -/
def State.shownAtResetEnd (s : State) : State :=
  { s with
    travel := { s.travel with motion := if s.travel.configured then s.travel.motion else .moving }
    asm := { s.asm with nextFlaw := if s.cmd.shadow.isSome then s.asm.nextFlaw else 0 }
    planner := { s.planner with nextPiece := if s.cmd.shadow.isSome then s.planner.nextPiece else 0 }
    writer := { s.writer with logs := s.writer.logs.map fun l =>
      { l with nextSeq := if l.fields.isSome then l.nextSeq else 0 } } }

end Sys2Proof.Machine
end

