-- ==== Sys2Proof/Machine/Flags.lean ====
section
/-! DEFINITION. The conditions the part's levels and status flags are computed from: a full log (R167), ATTN (R172), and
the levels of SCORE, SNAP and GATE (R106, R110). -/

namespace Sys2Proof.Machine

/-- A log is full when its unreleased entries number its entry count; a log whose fields are absent is treated as full
(R167, R169). -/
def LogState.full (l : LogState) : Bool :=
  match l.fields with
  | none => true
  | some f => decide (f.entries ≤ l.unreleased)

/-- The written, unreleased entries of a log (R172). -/
def LogState.writtenCount (l : LogState) : Nat := (l.written - l.consumer).toNat

/-- A log that asks for attention: its written, unreleased entries number at least its notify level. A log whose fields
are absent asserts nothing (R172). -/
def LogState.notifies (l : LogState) : Bool :=
  match l.fields with
  | none => false
  | some f => decide (f.notify ≤ l.writtenCount)

/-- The Fault Log holds a written, unreleased entry (R172). -/
def LogState.pendingFault (l : LogState) : Bool := l.fields.isSome && decide (0 < l.writtenCount)

/-- The condition for ATTN (R172). -/
def attnDue (w : Writer) (seen : Word32) : Bool :=
  allLogs.any (fun l => w.logs[l.idx].notifies) || decide (w.lastCompletion ≠ seen) ||
    w.logs[LogId.fault.idx].pendingFault

/-- ATTN re-evaluated (R172). -/
def State.evalAttn (s : State) : State :=
  { s with writer := { s.writer with attn := attnDue s.writer s.cmd.seen } }

/-- SCORE is asserted while some entry of the track has score state ON (R106). -/
def scoreLevel (track : List TrackEntry) : Bool := track.any fun e => decide (e.score = .on)

/-- SNAP is asserted while some entry of the track has snap state ON (R106). -/
def snapLevel (track : List TrackEntry) : Bool := track.any fun e => decide (e.snap = .on)

/-- GATE is asserted while some window of the list has an arrived start (R110). -/
def gateLevel (gates : List GateWindow) : Bool := gates.any fun g => g.arrived

/-- An output set to a level; a change from released to asserted counts as one assertion. -/
def OutputLine.set (o : OutputLine) (level : Bool) : OutputLine :=
  { level := level, asserted := if level && !o.level then o.asserted + 1 else o.asserted }

/-- A pulse given on an output, asserted and released within the step (R107). It counts one assertion whatever the level:
whether a pulse given while the output stands asserted shows as a fresh assertion, the spec leaves open, DESIGN CHOICE
(notes/assumptions/45). -/
def OutputLine.pulse (o : OutputLine) : OutputLine := { o with asserted := o.asserted + 1 }

end Sys2Proof.Machine
end

