-- ==== Sys2Proof/Machine/Writer.lean ====
section
/-! DEFINITION. The Record Writer: the status page (R171, R176), the four log rings (R167 to R169), fault records (R170)
and releases (R168). -/

namespace Sys2Proof.Machine

/-! ## The status page -/

/-- The writes of one page: the start word's beat, the body, and the end word's beat (R176). -/
def pageTxns (at0 : Nat) (image : List Byte) : List Txn :=
  Txn.full .page at0 (image.take 8) ::
    (chunks .page 8 (at0 + 8) ((image.drop 8).take 1008) ++ [Txn.full .page (at0 + 0x3F8) (image.drop 1016)])

/-- The status page sequence rises by one and a page of the values that `shown` gives is queued (R171). -/
def State.writePageOf (s : State) (shown : State → State) : State :=
  let seq := s.writer.pageSeq + 1
  let s := { s with writer := { s.writer with pageSeq := seq } }
  s.placeWrites (pageTxns (s.path.anchorBase + pageAt) ((shown s).pageImage seq))

/-- The status page sequence rises by one and the page is queued (R171). -/
def State.writePage (s : State) : State := s.writePageOf id

/-- One page for each change that calls for one, written one after another (R171, notes/assumptions/14). -/
def State.writePages : Nat → State → State
  | 0, s => s
  | n + 1, s => State.writePages n s.writePage

/-! ## Log rings -/

/-- A write whose last four bytes, the sequence word's, are not enabled (R167). -/
def Txn.body (tag : TxnTag) (addr : Nat) (bytes : List Byte) : Txn :=
  { tag := tag, addr := addr, span := bytes.length + 4, write := true,
    enables := List.replicate bytes.length true ++ List.replicate 4 false, data := bytes ++ zeros 4 }

/-- The writes of an entry's body, every byte but the sequence word (R167). -/
def bodyTxns (addr : Nat) (bytes : List Byte) : List Txn :=
  if bytes.length ≤ 124 then [Txn.body .entryBody addr bytes]
  else [Txn.full .entryBody addr (bytes.take 128), Txn.body .entryBody (addr + 128) (bytes.drop 128)]

/-- The write of an entry's sequence word, its last four bytes (R167). -/
def seqTxn (l : LogId) (gen addr : Nat) (seq : Word32) : Txn :=
  { tag := .entrySeq l gen, addr := addr + l.entrySize - 8, span := 8, write := true,
    enables := List.replicate 4 false ++ List.replicate 4 true, data := zeros 4 ++ le 4 seq.toNat }

/-- The ring position of a count (R167). -/
def LogFields.position (f : LogFields) (count : Word32) : Nat := count.toNat % f.entries

/-- One log of the Record Writer changed. -/
def State.setLog (s : State) (l : LogId) (g : LogState) : State :=
  { s with writer := { s.writer with logs := upd s.writer.logs l.idx (fun _ => g) } }

/-- An entry placed in a log that is not full: its sequence number, its body, its sequence word, and the producer's rise
(R167). -/
def State.placeEntry (s : State) (l : LogId) (image : List Byte) : State :=
  let g := s.writer.logs[l.idx]
  match g.fields with
  | none => s
  | some f =>
    let addr := f.base + f.position g.producer * l.entrySize
    let s := s.setLog l { g with producer := g.producer + 1, nextSeq := g.nextSeq + 1 }
    s.placeWrites (bodyTxns addr image ++ [seqTxn l g.gen addr g.nextSeq])

/-- A log's refused mark set or cleared (R169). -/
def State.setRefused (s : State) (l : LogId) (b : Bool) : State :=
  s.setLog l { s.writer.logs[l.idx] with refused := b }

/-- FLAW_RECORD taken: placed, or dropped and counted when the log is full (R169). What the flaw-lost counter does past
2^32 − 1 the spec leaves open: it stays there, DESIGN CHOICE (notes/assumptions/34). -/
def takeFlawRecord (r : FlawRecord) (s : State) : State :=
  if s.writer.logs[LogId.flaw.idx].full then
    State.sendIncrements { s with writer := { s.writer with flawLost := bump s.writer.flawLost } } .writer [.flawLost]
  else s.placeEntry .flaw r.image

/-- FLAW_RECORD (R169). -/
def execFlawRecord (s : State) : Host.Outcome State Fault Refusal :=
  .next (receivePlain Wires.flawRecords (fun w r => { w with flawRecords := r }) takeFlawRecord s)

/-- An answer or a room event sent to the Grading Unit (R125). -/
def State.answerPlate (s : State) (a : LogAnswer) : State :=
  s.wire fun w => { w with plateAnswers := w.plateAnswers ++ [s.tag a] }

/-- An answer or a room event sent to the Shift Unit (R140). -/
def State.answerShift (s : State) (a : LogAnswer) : State :=
  s.wire fun w => { w with shiftAnswers := w.shiftAnswers ++ [a] }

/-- PLATE_OFFER taken: placed and answered ACCEPTED, or answered FULL with the refused mark set (R169). -/
def takePlateOffer (r : PlateRecord) (s : State) : State :=
  if s.writer.logs[LogId.plate.idx].full then (s.setRefused .plate true).answerPlate .full
  else (s.placeEntry .plate r.image).answerPlate .accepted

/-- PLATE_OFFER (R169); an offer of an ended run is discarded unanswered. -/
def execPlateOffer (s : State) : Host.Outcome State Fault Refusal :=
  .next (receive Wires.plateOffers (fun w r => { w with plateOffers := r }) takePlateOffer s)

/-- SHIFT_REPORT_OFFER taken (R169). -/
def takeShiftOffer (r : ShiftReport) (s : State) : State :=
  if s.writer.logs[LogId.shift.idx].full then (s.setRefused .shift true).answerShift .full
  else (s.placeEntry .shift r.image).answerShift .accepted

/-- SHIFT_REPORT_OFFER (R169). -/
def execShiftReportOffer (s : State) : Host.Outcome State Fault Refusal :=
  .next (receivePlain Wires.shiftOffers (fun w r => { w with shiftOffers := r }) takeShiftOffer s)

/-! ## Fault records -/

/-- A source's place in the fault collapse set changed (R170). -/
def State.setOpenFault (s : State) (k : SourceId) (o : Option OpenFault) : State :=
  { s with writer := { s.writer with collapse := upd s.writer.collapse k (fun _ => o) } }

/-- The record of a new fault (R170). -/
def newFaultRecord (w : Writer) (m : FaultMsg) : FaultRecord :=
  { source := m.source, firstKind := m.kind, lastKind := m.kind, detailA := m.detailA, detailB := m.detailB, repeats := 1,
    firstTime := w.calendar, lastTime := w.calendar, firstValid := w.clockValid, lastValid := w.clockValid }

/-- The record a further fault collapses into (R170). -/
def FaultRecord.collapse (r : FaultRecord) (w : Writer) (m : FaultMsg) : FaultRecord :=
  { r with repeats := satAdd 65535 r.repeats 1, lastKind := m.kind, lastTime := w.calendar, lastValid := w.clockValid }

/-- The open record of a source that is still unreleased, with the Fault Log's fields (R170). -/
def Writer.openRecord (w : Writer) (k : SourceId) : Option (OpenFault × LogFields) :=
  match w.collapse[k], w.logs[LogId.fault.idx].fields with
  | some o, some f =>
    if (o.count - w.logs[LogId.fault.idx].consumer).toNat < w.logs[LogId.fault.idx].unreleased then some (o, f) else none
  | _, _ => none

/-- An in-place rewrite of a fault record's body, announced to the Path Unit as it is placed (R170, R156). -/
def State.rewriteFault (s : State) (f : LogFields) (o : OpenFault) : State :=
  let p := f.position o.count
  let id := s.writer.nextRewrite
  let s := { s with writer := { s.writer with nextRewrite := id + 1 } }
  s.placeWrite (Txn.body (.rewrite id p) (f.base + p * LogId.fault.entrySize) o.record.image)

/-- FAULT taken: collapsed into the source's open record, placed as a new record, or lost (R170). What the fault-lost
counter does past 2^32 − 1 the spec leaves open: it stays there, DESIGN CHOICE (notes/assumptions/34). -/
def takeFault (m : FaultMsg) (s : State) : State :=
  match s.writer.openRecord m.source with
  | some (o, f) =>
    let o := { o with record := o.record.collapse s.writer m }
    (s.setOpenFault m.source (some o)).rewriteFault f o
  | none =>
    let g := s.writer.logs[LogId.fault.idx]
    if g.full then
      State.setOpenFault { s with writer := { s.writer with faultLost := bump s.writer.faultLost } } m.source none
    else
      let r := newFaultRecord s.writer m
      (s.setOpenFault m.source (some { count := g.producer, record := r })).placeEntry .fault r.image

/-- FAULT: the oldest fault of one block (R170). -/
def execFault (b : FaultSender) (s : State) : Host.Outcome State Fault Refusal :=
  .next (live (fun s =>
    match takeFirst (fun m => decide (m.1 = b)) s.wires.faults with
    | none => s
    | some (m, rest) => takeFault m.2 (s.wire fun w => { w with faults := rest })) s)

/-! ## Releases -/

/-- The offsets above the consumer of the written, unreleased entries at the positions named (R168). -/
def releaseOffsets (g : LogState) (f : LogFields) (ps : List Nat) : List Nat :=
  (ps.map fun p => (p + f.entries - f.position g.consumer) % f.entries).filter fun d => decide (d < g.writtenCount)

/-- The count just above the newest written, unreleased entry named, if any is (R168). -/
def releaseTo (g : LogState) (ps : List Nat) : Option Word32 :=
  match g.fields with
  | none => none
  | some f =>
    match releaseOffsets g f (ps.filter fun p => decide (p < f.entries)) with
    | [] => none
    | d :: ds => some (g.consumer + BitVec.ofNat 32 (ds.foldl max d + 1))

/-- The collapse set without the sources whose open record a release has passed (R168). -/
def Writer.dropReleased (w : Writer) (k : SourceId) : Writer :=
  match w.collapse[k] with
  | none => w
  | some o =>
    let g := w.logs[LogId.fault.idx]
    if (o.count - g.consumer).toNat < g.unreleased then w
    else { w with collapse := upd w.collapse k (fun _ => none) }

/-- The sixteen sources in order. -/
def allSources : List SourceId := [0, 1, 2, 3, 4, 5, 6, 7, 8, 9, 10, 11, 12, 13, 14, 15]

/-- What a release sets going: a room event if the log had refused an offer and is no longer full, or the removal of
released open records (R168). -/
def afterRelease (l : LogId) (s : State) : State :=
  match l with
  | .flaw => s
  | .plate =>
    if s.writer.logs[LogId.plate.idx].refused && !s.writer.logs[LogId.plate.idx].full then
      (s.setRefused .plate false).answerPlate .room
    else s
  | .shift =>
    if s.writer.logs[LogId.shift.idx].refused && !s.writer.logs[LogId.shift.idx].full then
      (s.setRefused .shift false).answerShift .room
    else s
  | .fault => { s with writer := allSources.foldl Writer.dropReleased s.writer }

/-- RELEASE_REQUEST taken: the consumer rises past the newest written entry named, room events go out, and ATTN is
re-evaluated (R168). -/
def takeRelease (r : Release) (s : State) : State :=
  match releaseTo s.writer.logs[r.log.idx] r.positions with
  | none => s
  | some c => (afterRelease r.log (s.setLog r.log { s.writer.logs[r.log.idx] with consumer := c })).evalAttn

/-- RELEASE_REQUEST (R168). -/
def execReleaseRequest (s : State) : Host.Outcome State Fault Refusal :=
  .next (receivePlain Wires.releases (fun w r => { w with releases := r }) takeRelease s)

/-! ## Second ticks -/

/-- The Record Writer's second tick: its copy of the calendar follows the Shift Unit's, and the page is written (R170,
R171). -/
def writerSecond (s : State) : State :=
  let s := { s with
    wires := { s.wires with writerTicks := s.wires.writerTicks - 1 }
    writer := { s.writer with calendar := s.shift.calendar, clockValid := s.shift.valid } }
  s.writePage

/-- WRITER_SECOND_TICK (R171). -/
def execWriterSecondTick (s : State) : Host.Outcome State Fault Refusal :=
  .next (live (fun s => if s.wires.writerTicks = 0 then s else writerSecond s) s)

/-! ## Restarts and resets -/

/-- A log taken under new fields: restarted when its base or entry count has changed, with a room event for a set refused
mark; otherwise only its notify level changes (R163). -/
def State.takeLogFields (s : State) (l : LogId) (f : LogFields) : State :=
  let g := s.writer.logs[l.idx]
  let kept := match g.fields with
    | none => false
    | some old => decide (old.base = f.base) && decide (old.entries = f.entries)
  if kept then s.setLog l { g with fields := some f }
  else
    let s := s.setLog l { g with fields := some f, producer := 0, consumer := 0, written := 0, nextSeq := 1,
                                 refused := false, gen := g.gen + 1 }
    match l with
    | .flaw => s
    | .plate => if g.refused then s.answerPlate .room else s
    | .shift => if g.refused then s.answerShift .room else s
    | .fault => { s with writer := { s.writer with collapse := Vector.replicate 16 none } }

/-- The log fields of a configuration taken by the Record Writer (R163). -/
def State.takeLogs (s : State) (logs : Vector LogFields 4) : State :=
  (allLogs.foldl (fun s l => s.takeLogFields l logs[l.idx]) s).evalAttn

/-- The Record Writer's run reset: the refused mark of the Plate Log is cleared (R169, R173). -/
def State.writerRunReset (s : State) : State := s.setRefused .plate false

end Sys2Proof.Machine
end

