-- ==== Sys2Proof/Machine/Lanes.lean ====
section
/-! DEFINITION. The Lane Units (chapter 2): recognising landing writes, capturing lines, declaring missing ones, lane
states, settled lines and gap lines. -/

namespace Sys2Proof.Machine

/-- A lane's state while it takes one event, with what it hands on at the event's end: faults, the completed line for the
ready list, and how many times its lane state has changed (R29). -/
structure LaneStep where
  lane    : Lane
  faults  : List FaultMsg
  ready   : List (Nat × BufferId × Mode)
  changes : Nat
  deriving DecidableEq, Repr

/-- A lane before it takes an event. -/
def Lane.step (l : Lane) : LaneStep := { lane := l, faults := [], ready := [], changes := 0 }

/-- A lane state entered; only a change counts (R29). -/
def LaneStep.enter (r : LaneStep) (st : LaneState) : LaneStep :=
  if r.lane.state = st then r else { r with lane := { r.lane with state := st }, changes := r.changes + 1 }

/-- A fault raised (R35). -/
def LaneStep.raise (r : LaneStep) (m : FaultMsg) : LaneStep := { r with faults := r.faults ++ [m] }

/-! ## Buffers -/

/-- One of a lane's buffers. -/
def Lane.buffer (l : Lane) : BufferId → Buffer
  | .a => l.bufA
  | .b => l.bufB

/-- One of a lane's buffers replaced. -/
def Lane.setBuffer (l : Lane) (i : BufferId) (v : Buffer) : Lane :=
  match i with
  | .a => { l with bufA := v }
  | .b => { l with bufB := v }

/-- The free buffer a line start takes: A when both are free (R23). -/
def Lane.freeBuffer (l : Lane) : Option BufferId :=
  if l.bufA.state = .free then some .a else if l.bufB.state = .free then some .b else none

/-- The line in progress abandoned: its buffer is freed and it is absent (R26). -/
def Lane.abandon (l : Lane) : Lane :=
  match l.line with
  | none => l
  | some p => { l.setBuffer p.buffer Buffer.empty with line := none }

/-! ## Declarations -/

/-- The cause recorded at a declaration, by the lane state (R28). -/
def LaneState.cause (st : LaneState) (given : GapCause) : GapCause :=
  match st with
  | .waiting | .locking | .tracking => given
  | .dropout => .dropout
  | .faulted => .faulted
  | .off => .disabled

/-- The declared-line list and counter after a declaration (R28). -/
def Lane.record (l : Lane) (x : Nat) (c : GapCause) : Lane :=
  { l with
    declared := l.declared ++ [{ line := x, cause := c }],
    counters := { l.counters with declared := bump l.counters.declared } }

/-- The miss that brings a TRACKING lane to S_stall, or one more miss (R28). -/
def LaneStep.miss (r : LaneStep) (stall : Nat) : LaneStep :=
  if stall ≤ r.lane.misses + 1 then
    let c := { r.lane.counters with dropouts := bump r.lane.counters.dropouts }
    LaneStep.enter { r with lane := { r.lane with misses := 0, counters := c } } .dropout
  else { r with lane := { r.lane with misses := r.lane.misses + 1 } }

/-- One line declared missing (R28). -/
def LaneStep.declare (stall : Nat) (given : GapCause) (r : LaneStep) (x : Nat) : LaneStep :=
  let st := r.lane.state
  let r := { r with lane := r.lane.record x (st.cause given) }
  match st with
  | .locking => { r with lane := { r.lane with lock := 0 } }
  | .tracking => r.miss stall
  | .off | .waiting | .dropout | .faulted => r

/-- Every line from a + 1 to n declared, in increasing order, and a raised to n (R27). -/
def LaneStep.declareUpTo (stall : Nat) (given : GapCause) (r : LaneStep) (n : Nat) : LaneStep :=
  if r.lane.accounted < n then
    let r := (List.range' (r.lane.accounted + 1) (n - r.lane.accounted)).foldl (LaneStep.declare stall given) r
    { r with lane := { r.lane with accounted := n } }
  else r

/-- The line in progress abandoned and declared (R20, R23, R24, R27, R30). -/
def LaneStep.abandonDeclared (stall : Nat) (given : GapCause) (r : LaneStep) : LaneStep :=
  match r.lane.line with
  | none => r
  | some p => LaneStep.declare stall given { r with lane := r.lane.abandon } p.line

/-! ## Landing writes -/

/-- The fault SLOT_CROSS (R35, R174). -/
def slotCrossFault (src : SourceId) (k : LaneId) (slot trigger : Nat) : FaultMsg :=
  { source := src, kind := .slotCross, detailA := BitVec.ofNat 16 (k.val + 256 * slot), detailB := BitVec.ofNat 64 trigger }

/-- The fault TORN_LINE (R35, R174). -/
def tornFault (src : SourceId) (k : LaneId) (line : Nat) : FaultMsg :=
  { source := src, kind := .tornLine, detailA := BitVec.ofNat 16 k.val, detailB := BitVec.ofNat 64 line }

/-- A write that crosses a slot boundary: FAULTED, every line up to the trigger count declared, and SLOT_CROSS (R20). -/
def LaneStep.slotCross (stall : Nat) (k : LaneId) (slot : Nat) (w : LandingCopy) (r : LaneStep) : LaneStep :=
  let r := r.enter .faulted
  let r := r.abandonDeclared stall .faulted
  let r := r.declareUpTo stall .faulted r.lane.trigger
  r.raise (slotCrossFault w.source k slot r.lane.trigger)

/-- The line in progress torn by a write: declared TORN, with fault TORN_LINE and the torn lines counter (R23, R24). -/
def LaneStep.tear (stall : Nat) (k : LaneId) (src : SourceId) (r : LaneStep) : LaneStep :=
  match r.lane.line with
  | none => r
  | some p =>
    let r := r.abandonDeclared stall .torn
    let r := r.raise (tornFault src k p.line)
    { r with lane := { r.lane with counters := { r.lane.counters with torn := bump r.lane.counters.torn } } }

/-- The capture mode and the lane state of a completed line, with the lock counter and seeded flag (R25). -/
def LaneStep.lockStep (lockLines : Nat) (r : LaneStep) : LaneStep × Mode :=
  match r.lane.state with
  | .locking =>
    let r := { r with lane := { r.lane with lock := r.lane.lock + 1 } }
    (if lockLines ≤ r.lane.lock then r.enter .tracking else r, .lock)
  | .tracking => (r, .track)
  | .dropout => (LaneStep.enter { r with lane := { r.lane with lock := 1 } } .locking, .lock)
  | .waiting | .off | .faulted => (LaneStep.enter { r with lane := { r.lane with lock := 1, seeded := true } } .locking, .seed)

/-- A line's completion: its mode, its READY buffer, and the entry for the ready list (R25). -/
def LaneStep.complete (lockLines : Nat) (p : LineInProgress) (r : LaneStep) : LaneStep :=
  let (r, mode) := r.lockStep lockLines
  let v := { r.lane.buffer p.buffer with state := .ready, mode := some mode }
  { r with
    lane := { r.lane.setBuffer p.buffer v with
      line := none, misses := 0, counters := { r.lane.counters with completed := bump r.lane.counters.completed } }
    ready := r.ready ++ [(p.line, p.buffer, mode)] }

/-- The bytes of a write below the line's byte length captured into the line in progress; the line is complete when its
next expected offset reaches that length (R24). -/
def LaneStep.capture (lockLines lb off : Nat) (w : LandingCopy) (p : LineInProgress) (r : LaneStep) : LaneStep :=
  let v := r.lane.buffer p.buffer
  let next := min (off + w.span) lb
  let p := { p with next := next }
  let r := { r with lane := { r.lane.setBuffer p.buffer { v with pixels := v.pixels ++ w.data.take (lb - off) } with
    line := some p } }
  if next = lb then r.complete lockLines p else r

/-- The line number a start write in slot s means: the one line of the lag window (T − W, T] that lands there (R22). -/
def slotLine (lag slots trigger s : Nat) : Option Nat :=
  match (List.range lag).find? (fun d => decide (d < trigger) && decide ((trigger - d) % slots = s)) with
  | none => none
  | some d => some (trigger - d)

/-- A start of line m in slot s (R23). -/
def LaneStep.start (g : LaneGeometry) (tm : LaneTiming) (k : LaneId) (s m : Nat) (w : LandingCopy) (r : LaneStep) :
    LaneStep :=
  let r := r.tear tm.stall k w.source
  let r := r.declareUpTo tm.stall .missed (m - 1)
  let r := { r with lane := { r.lane with accounted := m } }
  match r.lane.freeBuffer with
  | some i =>
    let v : Buffer := { state := .filling, line := m, mode := none, pixels := [] }
    let r := { r with lane := r.lane.setBuffer i v }
    r.capture tm.lockLines g.length 0 w { line := m, slot := s, buffer := i, next := 0 }
  | none =>
    let r := LaneStep.declare tm.stall .overrun r m
    { r with lane := { r.lane with counters := { r.lane.counters with overruns := bump r.lane.counters.overruns } } }

/-- A start write: stale, or the start of a line (R22). -/
def LaneStep.startWrite (g : LaneGeometry) (tm : LaneTiming) (k : LaneId) (s : Nat) (w : LandingCopy) (r : LaneStep) :
    LaneStep :=
  match slotLine tm.lag g.slots r.lane.trigger s with
  | some m =>
    if r.lane.accounted < m then r.start g tm k s m w
    else { r with lane := { r.lane with counters := { r.lane.counters with stale := bump r.lane.counters.stale } } }
  | none => { r with lane := { r.lane with counters := { r.lane.counters with stale := bump r.lane.counters.stale } } }

/-- Every byte enable is set for the bytes of the span below the line's byte length (R21). -/
def enabledBelow (w : LandingCopy) (off lb : Nat) : Bool := (w.enables.take (lb - off)).all id

/-- A write that stays within slot s, sorted by its offset (R21). -/
def LaneStep.sortWrite (g : LaneGeometry) (tm : LaneTiming) (k : LaneId) (s off : Nat) (w : LandingCopy) (r : LaneStep) :
    LaneStep :=
  if g.length ≤ off then r
  else if off = 0 ∧ enabledBelow w off g.length = true then r.startWrite g tm k s w
  else match r.lane.line with
    | none => r
    | some p =>
      if p.slot = s ∧ off = p.next ∧ enabledBelow w off g.length = true then r.capture tm.lockLines g.length off w p
      else r.tear tm.stall k w.source

/-- A landing write taken by a lane; none in OFF and FAULTED, where the lane ignores it (R20). A copy classified under an old
region map and taken in a new run may lie outside the lane's new ring, which the spec does not rule on. DESIGN CHOICE
(notes/assumptions/37): an address below the base counts as slot 0 at offset 0, and a slot at or past the slot count holds no
line, so that a start there is stale. -/
def Lane.write (g : LaneGeometry) (tm : LaneTiming) (k : LaneId) (w : LandingCopy) (l : Lane) : Option LaneStep :=
  match l.state with
  | .off | .faulted => none
  | .waiting | .locking | .tracking | .dropout =>
    let rel := w.addr - g.base
    let s := rel / g.stride
    some (if (rel + w.span - 1) / g.stride = s then l.step.sortWrite g tm k s (rel % g.stride) w
      else l.step.slotCross tm.stall k s w)

/-! ## Line triggers -/

/-- The deadline of line T − W (R27). -/
def LaneStep.deadline (tm : LaneTiming) (t : Nat) (r : LaneStep) : LaneStep :=
  if tm.lag < t then
    let d := t - tm.lag
    let r := match r.lane.line with
      | none => r
      | some p => if p.line ≤ d then r.abandonDeclared tm.stall .missed else r
    r.declareUpTo tm.stall .missed d
  else r

/-- A line trigger taken by a lane (R27). -/
def Lane.takeTrigger (tm : LaneTiming) (t : Nat) (l : Lane) : LaneStep :=
  let r := Lane.step { l with trigger := t }
  match l.state with
  | .waiting | .locking | .tracking | .dropout => r.deadline tm t
  | .faulted => r.declareUpTo tm.stall .faulted t
  | .off => if l.runState = .running then r.declareUpTo tm.stall .disabled t else l.step

/-! ## Commands and run states -/

/-- LANE_ENABLE on one lane (R30). -/
def Lane.enable (l : Lane) : LaneStep :=
  if l.runState = .running then
    if l.state = .off then
      LaneStep.enter (Lane.step { l with enabled := true, seeded := false, lock := 0, misses := 0 }) .waiting
    else l.step
  else Lane.step { l with enabled := true }

/-- LANE_DISABLE on one lane (R30). -/
def Lane.disable (tm : LaneTiming) (l : Lane) : LaneStep :=
  if l.runState = .running then
    let r := (Lane.step { l with enabled := false }).enter .off
    let r := r.abandonDeclared tm.stall .disabled
    r.declareUpTo tm.stall .disabled r.lane.trigger
  else Lane.step { l with enabled := false }

/-- Entry to RUNNING on one lane (R31). -/
def Lane.enterRun (l : Lane) : LaneStep :=
  let l := { l with runState := .running, accounted := 0, settled := 0, seeded := false, lock := 0, misses := 0 }
  if l.enabled then l.step.enter .waiting else l.step

/-- Leaving RUNNING on one lane: OFF, and the line in progress abandoned without a declaration (R31). -/
def Lane.leaveRun (st : RunState) (l : Lane) : LaneStep :=
  (Lane.step { l.abandon with runState := st }).enter .off

/-- Run reset of one lane: its enabled attribute is kept, and it holds the run state that comes with the reset (R37). -/
def Lane.runReset (st : RunState) (l : Lane) : Lane := { Lane.powerOn with enabled := l.enabled, runState := st }

/-! ## Settled lines and gap lines -/

/-- The pending lines: those awaiting analysis in a READY buffer, and the line in progress (R32). -/
def Lane.pendingLines (l : Lane) : List Nat :=
  (if l.bufA.state = .ready then [l.bufA.line] else []) ++ (if l.bufB.state = .ready then [l.bufB.line] else []) ++
    (match l.line with | none => [] | some p => [p.line])

/-- The settled line: one below the lowest pending line, or a when none is pending (R32). -/
def Lane.settledNow (l : Lane) : Nat :=
  match l.pendingLines with
  | [] => l.accounted
  | x :: xs => xs.foldl min x - 1

/-- The cause of a settled line's gap, if it is one: as declared, or as analysed (R33). -/
def Lane.gapCause (l : Lane) (analysed : Option (Nat × Option GapCause)) (x : Nat) : Option GapCause :=
  match l.declared.find? (fun d => decide (d.line = x)) with
  | some d => some d.cause
  | none =>
    match analysed with
    | some (y, c) => if x = y then c else none
    | none => none

/-- What a lane hands on when its settled line rises: the gap lines of the range with their causes, and the new settled
line (R32). -/
structure Settling where
  lane   : Lane
  gaps   : List (Nat × GapCause)
  settle : List Nat
  deriving DecidableEq, Repr

/-- The settled line re-evaluated at the end of an event; outside RUNNING the lane reports nothing (R31, R32). Whether the
settled line on the page moves once the run has left RUNNING, when pending lines go without analysis or declaration, the spec
leaves open: it stays as it was, DESIGN CHOICE (notes/assumptions/39). -/
def Lane.resettle (l : Lane) (analysed : Option (Nat × Option GapCause)) : Settling :=
  let n := l.settledNow
  if l.runState = .running ∧ l.settled < n then
    { lane := { l with settled := n, declared := l.declared.filter fun d => decide (n < d.line) }
      gaps := (List.range' (l.settled + 1) (n - l.settled)).filterMap fun x => (l.gapCause analysed x).map fun c => (x, c)
      settle := [n] }
  else { lane := l, gaps := [], settle := [] }

/-- A lane whose owned range meets the net range: only such a lane hands over gap lines (R33). -/
def meetsNet (g : LaneGeometry) (sh : Shadow) : Bool := decide (sh.netLo ≤ g.ownHi) && decide (g.ownLo ≤ sh.netHi)

/-- The end of a lane's event: faults to the Record Writer, the completed line to the ready list, the gap lines and the
settled line to the assembler, their increments to the Shift Unit, and a status page for each change of lane state (R29,
R32, R35, R38). -/
def State.finishLane (s : State) (k : LaneId) (r : LaneStep) (analysed : Option (Nat × Option GapCause)) : State :=
  let z := r.lane.resettle analysed
  let net := match s.cmd.shadow with | none => false | some sh => meetsNet sh.lanes[k] sh
  let gaps := if net then z.gaps else []
  let msgs := s.tagAll (gaps.map (fun g => LaneMsg.gap g.1) ++ z.settle.map LaneMsg.settled)
  let s := s.setLane k z.lane
  let s := { s with
    engine := { s.engine with ready := s.engine.ready ++ r.ready.map (fun (e : Nat × BufferId × Mode) =>
      ({ lane := k, line := e.1, buffer := e.2.1, mode := e.2.2 } : ReadyEntry)) }
    wires := { s.wires with
      laneMsgs := upd s.wires.laneMsgs k (fun q => q ++ msgs)
      faults := s.wires.faults ++ r.faults.map (fun m => (FaultSender.lane k, m)) } }
  let s := s.sendIncrements (.lane k) (gaps.map (fun (g : Nat × GapCause) => Increment.gapLine g.2))
  s.writePages r.changes

/-- LANDING_WRITE taken by lane k (R20). -/
def takeLanding (k : LaneId) (w : LandingCopy) (s : State) : State :=
  match s.cmd.shadow with
  | none => s
  | some sh =>
    match s.lanes[k].write sh.lanes[k] sh.timing k w with
    | none => s
    | some r => s.finishLane k r none

/-- LANDING_WRITE at lane k: the oldest copy handed to it (R20). -/
def execLandingWrite (k : LaneId) (s : State) : Host.Outcome State Fault Refusal :=
  .next (receivePlain (fun w => w.landing[k]) (fun w r => { w with landing := upd w.landing k (fun _ => r) })
    (takeLanding k) s)

/-- A line trigger taken by lane k (R27). -/
def takeLineTrigger (k : LaneId) (t : Nat) (s : State) : State :=
  match s.cmd.shadow with
  | none => s
  | some sh => s.finishLane k (s.lanes[k].takeTrigger sh.timing t) none

/-- LANE_LINE_TRIGGER at lane k: the oldest line trigger event delivered to it (R27). -/
def execLaneLineTrigger (k : LaneId) (s : State) : Host.Outcome State Fault Refusal :=
  .next (receive (fun w => w.triggers[k]) (fun w r => { w with triggers := upd w.triggers k (fun _ => r) })
    (takeLineTrigger k) s)

end Sys2Proof.Machine
end

