-- ==== Sys2Proof/Machine/Engine.lean ====
section
/-! DEFINITION. The Pixel Engine (chapter 3): the ready list and its arbiter, the analysis of one line against its
background, run building, and the join queues. -/

namespace Sys2Proof.Machine

/-! ## Pixel arithmetic -/

/-- What the analysis of one column gives: its flag, contrast, new background and hold counter, and whether it is an owned
blind column (R46 to R51). -/
structure ColumnResult where
  column     : Nat
  flag       : Option (Polarity × Severity)
  contrast   : Int
  background : Nat
  hold       : Nat
  blind      : Bool
  deriving DecidableEq, Repr

/-- The contrast of a column (R46). -/
def contrast (x b : Nat) : Int := 256 * (x : Int) - b

/-- A threshold: a factor in 1/256 of the background (R48). -/
def threshold (b f : Nat) : Nat := b * f / 256

/-- A threshold reached; one of 0 flags nothing (R48, R49). -/
def reaches (v t : Nat) : Bool := decide (1 ≤ t) && decide (t ≤ v)

/-- The highest level whose threshold a departure reaches (R49). -/
def levelOf (v t1 t2 t3 : Nat) : Option Severity :=
  if reaches v t3 then some .reject else if reaches v t2 then some .major else if reaches v t1 then some .minor else none

/-- The flag of an owned column that is not blind (R49). -/
def columnFlag (d : DetectGroup) (b : Nat) (c : Int) : Option (Polarity × Severity) :=
  if c < 0 then
    (levelOf c.natAbs (threshold b d.d1) (threshold b d.d2) (threshold b d.d3)).map fun v => (Polarity.dark, v)
  else (levelOf c.natAbs (threshold b d.u1) (threshold b d.u2) (threshold b d.u3)).map fun v => (Polarity.bright, v)

/-- Column j is owned when its cross position lies in the lane's owned range (chapter 3). -/
def owned (g : LaneGeometry) (j : Nat) : Bool := decide (g.ownLo ≤ g.cross j) && decide (g.cross j ≤ g.ownHi)

/-- The background after a step toward the pixel: the contrast over 2^k, its fraction discarded toward zero (R51). -/
def adapt (d : DetectGroup) (b : Nat) (c : Int) : Nat := ((b : Int) + c.tdiv (2 ^ d.shift)).toNat

/-- The hold counter after a line: raised to at most H_hold on a flagged column, 0 on an unflagged one (R50). -/
def holdAfter (d : DetectGroup) (h : Nat) (flagged : Bool) : Nat := if flagged then min (h + 1) d.holdLimit else 0

/-- The analysis of column j of a LOCK or TRACK line, from its pixel, background and hold counter (R46 to R51). -/
def analyseColumn (d : DetectGroup) (g : LaneGeometry) (j x b h : Nat) : ColumnResult :=
  let c := contrast x b
  let blind := decide (b < d.blindFloor)
  let flag := if owned g j && !blind then columnFlag d b c else none
  let h' := holdAfter d h flag.isSome
  { column := j, flag := flag, contrast := c,
    background := if flag.isNone || decide (d.holdLimit ≤ h') then adapt d b c else b,
    hold := h', blind := owned g j && blind }

/-- The columns of a line from column j on (R46 to R51). -/
def analyseColumns (d : DetectGroup) (g : LaneGeometry) : Nat → List Byte → List Nat → List Nat → List ColumnResult
  | _, [], _, _ => []
  | j, x :: xs, bs, hs =>
    analyseColumn d g j x.toNat (bs.headD 0) (hs.headD 0) :: analyseColumns d g (j + 1) xs bs.tail hs.tail

/-! ## Runs -/

/-- What a flagged column adds to a run's sum (R55). -/
def sumOf (c : Int) : Nat := c.natAbs / 256

/-- The greatest 24-bit sum (R55). -/
abbrev max24 : Nat := 16777215

/-- The rank of a severity. -/
def Severity.max (v w : Severity) : Severity := if v.code < w.code then w else v

/-- The cross extent of columns first to last (R55). -/
def crossExtent (g : LaneGeometry) (first last : Nat) : Nat × Nat :=
  (min (g.cross first) (g.cross last), max (g.cross first) (g.cross last) + g.pitch / 256 - 1)

/-- A run opened at a flagged column (R54, R55). -/
def openRun (g : LaneGeometry) (k : LaneId) (line : Nat) (c : ColumnResult) (p : Polarity) (v : Severity) : PixelRun :=
  let e := crossExtent g c.column c.column
  { lane := k, line := line, first := c.column, last := c.column, polarity := p, level := v, peak := c.contrast.natAbs,
    sum := min max24 (sumOf c.contrast), lo := e.1, hi := e.2, crowded := false }

/-- A flagged column added at the end of a run (R54, R55, R56). -/
def PixelRun.extend (r : PixelRun) (g : LaneGeometry) (c : ColumnResult) (v : Severity) : PixelRun :=
  let e := crossExtent g r.first c.column
  { r with last := c.column, level := r.level.max v, peak := Nat.max r.peak c.contrast.natAbs,
           sum := satAdd max24 r.sum (sumOf c.contrast), lo := e.1, hi := e.2 }

/-- A column absorbed by run 64: CROWDED, and MIXED once a column of the other polarity is absorbed (R56). -/
def PixelRun.absorb (r : PixelRun) (g : LaneGeometry) (c : ColumnResult) (p : Polarity) (v : Severity) : PixelRun :=
  { r.extend g c v with crowded := true, polarity := if r.polarity = p then p else .mixed }

/-- The run walk at one column; the runs so far stand newest first (R54, R56). -/
def walkColumn (d : DetectGroup) (g : LaneGeometry) (k : LaneId) (line : Nat) (runs : List PixelRun) (c : ColumnResult) :
    List PixelRun :=
  match c.flag with
  | none => runs
  | some (p, v) =>
    match runs with
    | [] => [openRun g k line c p v]
    | r :: rest =>
      if r.crowded then r.absorb g c p v :: rest
      else if r.polarity = p ∧ c.column - r.last - 1 ≤ d.bridge then r.extend g c v :: rest
      else if Config.runLimit ≤ runs.length then r.absorb g c p v :: rest
      else openRun g k line c p v :: r :: rest

/-- The runs of a line, in increasing order of first column (R54). -/
def lineRuns (d : DetectGroup) (g : LaneGeometry) (k : LaneId) (line : Nat) (cs : List ColumnResult) : List PixelRun :=
  (cs.foldl (walkColumn d g k line) []).reverse

/-! ## The analysis of a line -/

/-- What the analysis of a line comes to: the lane's new store, the runs and the blind count (R53). -/
structure LineResult where
  background : List Nat
  hold       : List Nat
  runs       : List PixelRun
  blinds     : Nat
  deriving DecidableEq, Repr

/-- The analysis of a LOCK or TRACK line; columns past the line keep their values (R46 to R56). -/
def analyseLine (d : DetectGroup) (g : LaneGeometry) (e : ReadyEntry) (pixels : List Byte) (st : EngineLane) : LineResult :=
  let cs := analyseColumns d g 0 pixels st.background st.hold
  { background := cs.map (·.background) ++ st.background.drop pixels.length
    hold := cs.map (·.hold) ++ st.hold.drop pixels.length
    runs := lineRuns d g e.lane e.line cs
    blinds := (cs.filter (·.blind)).length }

/-- A SEED line: each background takes its pixel, each hold counter 0 (R52). -/
def seedLine (pixels : List Byte) (st : EngineLane) : LineResult :=
  { background := pixels.map (fun x => 256 * x.toNat) ++ st.background.drop pixels.length
    hold := List.replicate pixels.length 0 ++ st.hold.drop pixels.length
    runs := []
    blinds := 0 }

/-- The stages a line's mode calls for (R53). -/
def lineResult (a : Analysis) (g : LaneGeometry) (pixels : List Byte) (st : EngineLane) : LineResult :=
  match a.entry.mode with
  | .seed => seedLine pixels st
  | .lock | .track => analyseLine a.detect g a.entry pixels st

/-- The blind verdict of a TRACK line (R47). -/
def blindVerdict (d : DetectGroup) (r : LineResult) : Bool := decide (d.blindLimit < r.blinds)

/-- The engine's store of a lane after an analysis: backgrounds and hold counters, and for a TRACK line the join queue
entry and the crowded-line counter (R41, R42, R56). -/
def EngineLane.store (st : EngineLane) (a : Analysis) (r : LineResult) : EngineLane :=
  let st := { st with background := r.background, hold := r.hold }
  match a.entry.mode with
  | .seed | .lock => st
  | .track =>
    { st with
      join := st.join ++ [{ line := a.entry.line, blind := blindVerdict a.detect r, runs := r.runs }]
      crowded := if r.runs.any (·.crowded) then bump st.crowded else st.crowded }

/-- The gap cause an analysed line settles with, if it is a gap line (R33). -/
def analysedCause (a : Analysis) (r : LineResult) : Option GapCause :=
  match a.entry.mode with
  | .seed | .lock => some .locking
  | .track => if blindVerdict a.detect r then some .blind else none

/-! ## The arbiter -/

/-- The oldest eligible entry of the ready list, and the list without it; `older` are the lanes of the entries passed
over (R39). -/
def chooseEntry (e : Engine) : List LaneId → List ReadyEntry → Option (ReadyEntry × List ReadyEntry)
  | _, [] => none
  | older, x :: rest =>
    if !older.contains x.lane && (decide (x.mode ≠ .track) || decide (e.lanes[x.lane].join.length < Config.joinQueueLimit))
    then some (x, rest)
    else match chooseEntry e (x.lane :: older) rest with
      | none => none
      | some (y, r) => some (y, x :: r)

/-- The effect point of the DETECT group (R45, R60). -/
def State.takeDetect (s : State) : State := { s with cmd := { s.cmd with detect := s.cmd.detect.activate } }

/-- The IDLE engine begins its oldest eligible entry with the pixel fields of the active DETECT copy (R39, R40, R45). -/
def analysisBegin (s : State) : State :=
  match s.engine.analysis, chooseEntry s.engine [] s.engine.ready with
  | none, some (x, rest) =>
    let s := s.takeDetect
    match s.cmd.detect.inUse with
    | none => s
    | some d => { s with engine := { s.engine with analysis := some { entry := x, detect := d }, ready := rest } }
  | _, _ => s

/-- ANALYSIS_BEGIN (R39). -/
def execAnalysisBegin (s : State) : Host.Outcome State Fault Refusal := .next (live analysisBegin s)

/-- The engine's store of one lane replaced. -/
def State.setEngineLane (s : State) (k : LaneId) (st : EngineLane) : State :=
  { s with engine := { s.engine with lanes := upd s.engine.lanes k (fun _ => st) } }

/-- A lane's READY buffer freed at the completion of its line (R26). -/
def Lane.freed (l : Lane) (i : BufferId) : Lane := l.setBuffer i Buffer.empty

/-- The completion of the line in analysis: the store, the join queue entry, the completion handed to the lane, and the
engine IDLE (R41). -/
def completeAnalysis (a : Analysis) (sh : Shadow) (s : State) : State :=
  let k := a.entry.lane
  let st := s.engine.lanes[k]
  let r := lineResult a sh.lanes[k] (s.lanes[k].buffer a.entry.buffer).pixels st
  let s := s.setEngineLane k (st.store a r)
  let s := { s with engine := { s.engine with analysis := none } }
  s.finishLane k ((s.lanes[k].freed a.entry.buffer).step) (some (a.entry.line, analysedCause a r))

/-- ANALYSIS_COMPLETION (R41). -/
def execAnalysisCompletion (s : State) : Host.Outcome State Fault Refusal :=
  .next (live (fun s =>
    match s.engine.analysis, s.cmd.shadow with
    | some a, some sh => completeAnalysis a sh s
    | _, _ => s) s)

/-! ## Leaving RUNNING and reset -/

/-- The lines whose completions the engine hands back without analysis when the run leaves RUNNING (R43). -/
def Engine.outstanding (e : Engine) : List ReadyEntry :=
  (match e.analysis with | none => [] | some a => [a.entry]) ++ e.ready

/-- The engine when the run leaves RUNNING: no line in analysis, no ready list, no join queue; backgrounds kept (R43). -/
def Engine.leaveRun (e : Engine) : Engine :=
  { analysis := none, ready := [],
    lanes := allLanes.foldl (fun v k => upd v k (fun st => { st with join := [] })) e.lanes }

/-- The engine at run reset: as when leaving RUNNING, with the crowded-line counters at 0 (R58). -/
def Engine.runReset (e : Engine) : Engine :=
  { analysis := none, ready := [],
    lanes := allLanes.foldl (fun v k => upd v k (fun st => { st with join := [], crowded := 0 })) e.lanes }

end Sys2Proof.Machine
end

