-- ==== Sys2Proof/Machine/Blobs.lean ====
section
/-! DEFINITION. The Blob Assembler (chapter 4): joining runs into blobs, closing blobs into flaws, the Flaw Table, the
overflow span and the gap list. -/

namespace Sys2Proof.Machine

/-! ## Joining runs into blobs -/

/-- The touch test of a run against an interval (R63). -/
def touches (xb : Nat) (r : PixelRun) (lo hi : Nat) : Bool := decide (r.lo ≤ hi + xb) && decide (lo ≤ r.hi + xb)

/-- A connected group of runs of a line with the eligible blobs they reach (R63). -/
structure Component where
  runs  : List PixelRun
  blobs : List Blob
  deriving DecidableEq, Repr

/-- Whether a run touches a run or the front extent of a blob of a group (R63). -/
def Component.touchedBy (xb : Nat) (c : Component) (r : PixelRun) : Bool :=
  c.runs.any (fun q => touches xb r q.lo q.hi) || c.blobs.any (fun b => touches xb r b.frontLo b.frontHi)

/-- A run added to the groups: the groups it touches become one (R63). -/
def addRun (xb : Nat) (cs : List Component) (r : PixelRun) : List Component :=
  let hit := cs.filter (Component.touchedBy xb · r)
  cs.filter (fun c => !c.touchedBy xb r) ++ [{ runs := hit.flatMap (·.runs) ++ [r], blobs := hit.flatMap (·.blobs) }]

/-- The components of a line: the groups that hold a run; a blob that no run reaches forms none (R63). -/
def components (xb : Nat) (eligible : List Blob) (runs : List PixelRun) : List Component :=
  (runs.foldl (addRun xb) (eligible.map fun b => { runs := [], blobs := [b] })).filter fun c => !c.runs.isEmpty

/-- The lowest of a list of numbers, and of a start. -/
def lowest (x : Nat) (xs : List Nat) : Nat := xs.foldl min x

/-- The highest of a list of numbers, and of a start. -/
def highest (x : Nat) (xs : List Nat) : Nat := xs.foldl max x

/-- A run's items folded into a blob, its front extent apart (R64). -/
def Blob.fold (b : Blob) (r : PixelRun) : Blob :=
  { b with
    lo := min b.lo r.lo, hi := max b.hi r.hi,
    dark := b.dark || decide (r.polarity ≠ .bright), bright := b.bright || decide (r.polarity ≠ .dark),
    level := b.level.max r.level, peak := Nat.max b.peak r.peak, sum := satAdd max32 b.sum r.sum,
    area := satAdd max32 b.area (r.last - r.first + 1), lanes := upd b.lanes r.lane (fun _ => true),
    flags := { b.flags with crowded := b.flags.crowded || r.crowded } }

/-- A blob extended by the runs of line n: its front extent comes from those runs alone (R64). -/
def Blob.extend (b : Blob) (n : Nat) (runs : List PixelRun) : Blob :=
  match runs with
  | [] => b
  | r :: rest =>
    { runs.foldl Blob.fold b with
      front := n, frontLo := lowest r.lo (rest.map (·.lo)), frontHi := highest r.hi (rest.map (·.hi)) }

/-- The lower of two previous flaw numbers (R64, R68). -/
def lowerOf : Option Nat → Option Nat → Option Nat
  | none, b => b
  | a, none => a
  | some a, some b => some (min a b)

/-- Two records of one flaw folded into the first, which carries MERGED (R64). -/
def Blob.merge (b o : Blob) : Blob :=
  { b with
    first := min b.first o.first, lo := min b.lo o.lo, hi := max b.hi o.hi, dark := b.dark || o.dark,
    bright := b.bright || o.bright, level := b.level.max o.level, peak := Nat.max b.peak o.peak,
    sum := satAdd max32 b.sum o.sum, area := satAdd max32 b.area o.area,
    lanes := allLanes.foldl (fun v k => upd v k (fun x => x || o.lanes[k])) b.lanes,
    flags := { merged := true, crowded := b.flags.crowded || o.flags.crowded,
               continued := lowerOf b.flags.continued o.flags.continued,
               partialView := b.flags.partialView || o.flags.partialView,
               truncated := b.flags.truncated || o.flags.truncated, forced := b.flags.forced || o.flags.forced } }

/-- No flags. -/
def BlobFlags.none : BlobFlags :=
  { merged := false, crowded := false, continued := Option.none, partialView := false, truncated := false, forced := false }

/-- A new blob from a run, to be extended by its component's runs (R64). -/
def Blob.new (id n : Nat) (r : PixelRun) (continued : Option Nat) : Blob :=
  { id := id, first := n, front := n, frontLo := r.lo, frontHi := r.hi, lo := r.lo, hi := r.hi, dark := false,
    bright := false, level := r.level, peak := 0, sum := 0, area := 0, lanes := Vector.replicate 8 false,
    flags := { BlobFlags.none with continued := continued } }

/-! ## Closure and disposition -/

/-- What a join or a flush works with: the line, the line pitch, the net range, the DETECT copy and the run number. -/
structure JoinContext where
  pitch  : Nat
  netLo  : Nat
  netHi  : Nat
  detect : DetectGroup
  run    : Word16
  deriving DecidableEq, Repr

/-- The assembler while it takes one event, with what it sends (R62, R72). -/
structure AsmStep where
  asm     : Assembler
  planner : List AsmMsg
  records : List FlawRecord
  incs    : List Increment
  deriving DecidableEq, Repr

/-- The assembler before it takes an event. -/
def Assembler.step (a : Assembler) : AsmStep := { asm := a, planner := [], records := [], incs := [] }

/-- The class of a flaw from its length, width and the point size (R71). -/
def classOf (point length width : Nat) : FlawClass :=
  if length ≤ point ∧ width ≤ point then .point
  else if 4 * width ≤ length then .streak
  else if 4 * length ≤ width then .band
  else .area

/-- The polarity of a polarity set (R70). -/
def polarityOf (dark bright : Bool) : Polarity :=
  if dark && bright then .mixed else if bright then .bright else .dark

/-- Where a flaw goes at its closure (R72). -/
def disposition (c : JoinContext) (a : Assembler) (b : Blob) (midpoint : Nat) : Disposition :=
  if b.hi < c.netLo ∨ c.netHi < b.lo then .edge
  else if (match a.gradedTail with | none => false | some t => decide (midpoint < t)) then .orphan
  else if a.table.length < Config.flawTableLimit then .held
  else .unheld

/-- Table order: increasing midpoint, then increasing flaw number (R73). -/
def FlawEntry.before (f g : FlawEntry) : Bool :=
  decide (f.midpoint < g.midpoint) || (decide (f.midpoint = g.midpoint) && decide (f.number < g.number))

/-- The overflow span widened by a midpoint (R76). -/
def widen (o : Option OverflowSpan) (m : Nat) : OverflowSpan :=
  match o with
  | none => { lo := m, hi := m }
  | some s => { lo := min s.lo m, hi := max s.hi m }

/-- The next flaw number taken, and the numbering moved on (R70). -/
def Assembler.countFlaw (a : Assembler) : Assembler :=
  { a with nextFlaw := nextNumber (2 * a.numbersPast) a.nextFlaw,
           numbersPast := if a.nextFlaw < max32 then a.numbersPast else a.numbersPast + 1 }

/-- The next blob id taken, and the numbering moved on (R64). -/
def Assembler.countBlob (a : Assembler) : Assembler :=
  { a with nextBlob := nextNumber (2 * a.numbersPast) a.nextBlob,
           numbersPast := if a.nextBlob < max32 then a.numbersPast else a.numbersPast + 1 }

/-- A closed blob becomes a flaw: numbered, classed, disposed of, counted and recorded (R70 to R72, R76). -/
def AsmStep.close (c : JoinContext) (r : AsmStep) (b : Blob) : AsmStep :=
  let a := r.asm
  let start := b.first * c.pitch
  let stop := (b.front + 1) * c.pitch
  let midpoint := (start + stop) / 2
  let cls := classOf c.detect.pointSize (stop - start) (b.hi - b.lo + 1)
  let polarity := polarityOf b.dark b.bright
  let d := disposition c a b midpoint
  let entry : FlawEntry :=
    { number := a.nextFlaw, start := start, stop := stop, midpoint := midpoint, severity := b.level, cls := cls,
      polarity := polarity, flags := b.flags, late := false, unplanned := false }
  let record : FlawRecord :=
    { run := c.run, number := a.nextFlaw, disposition := d, severity := b.level, cls := cls, polarity := polarity,
      flags := b.flags, lanes := b.lanes, first := b.first, front := b.front, start := start, stop := stop, lo := b.lo,
      hi := b.hi, peak := b.peak, sum := b.sum, area := b.area }
  let a := a.countFlaw
  let a := match d with
    | .held => { a with table := insertBy FlawEntry.before entry a.table }
    | .unheld => { a with overflow := some (widen a.overflow midpoint) }
    | .edge | .orphan => a
  { asm := a
    planner := r.planner ++ (if d = .held then [.heldFlaw entry] else [])
    records := r.records ++ [record]
    incs := r.incs ++ [if d = .edge then .edgeFlaw else .flaw cls b.level (decide (d = .orphan))] }

/-- Blobs in increasing order of first line, then of id (R67, R69). -/
def Blob.earlier (b o : Blob) : Bool := decide (b.first < o.first) || (decide (b.first = o.first) && decide (b.id < o.id))

/-- Of two blobs, the one with the lower front line, then the lower id (R66). -/
def Blob.colder (b o : Blob) : Bool := decide (b.front < o.front) || (decide (b.front = o.front) && decide (b.id < o.id))

/-- The blob a full table closes: the lowest front line, and among those the lowest id (R66). -/
def coldest : Blob → List Blob → Blob
  | b, [] => b
  | b, o :: rest => coldest (if o.colder b then o else b) rest

/-- A place freed in a full open blob table by a forced closure (R66). -/
def AsmStep.makeRoom (c : JoinContext) (r : AsmStep) : AsmStep :=
  if Config.blobLimit ≤ r.asm.blobs.length then
    match r.asm.blobs with
    | [] => r
    | b :: rest =>
      let v := coldest b rest
      let r := { r with asm := { r.asm with
        blobs := r.asm.blobs.filter (fun o => decide (o.id ≠ v.id)), forced := bump r.asm.forced } }
      r.close c { v with flags := { v.flags with forced := true } }
  else r

/-! ## The join of a line -/

/-- A component that holds blobs: the one with the lowest id survives, takes the others' records and the runs (R64). -/
def resolveOld (n : Nat) (blobs : List Blob) (c : Component) : List Blob :=
  match sortBy (fun b o => decide (b.id < o.id)) c.blobs with
  | [] => blobs
  | b :: others =>
    blobs.filter (fun o => !(c.blobs.any fun x => decide (x.id = o.id))) ++ [(others.foldl Blob.merge b).extend n c.runs]

/-- The lowest of a component's runs by lo, ties by lane (R64). -/
def runKey (runs : List PixelRun) : Nat × Nat :=
  match sortBy (fun (r q : PixelRun) =>
      decide (r.lo < q.lo) || (decide (r.lo = q.lo) && decide (r.lane.val < q.lane.val))) runs with
  | [] => (0, 0)
  | r :: _ => (r.lo, r.lane.val)

/-- New blobs are made in increasing order of their component's lowest run lo, ties by the lowest lane (R64). -/
def newBefore (c e : Component) : Bool :=
  decide ((runKey c.runs).1 < (runKey e.runs).1) ||
    (decide ((runKey c.runs).1 = (runKey e.runs).1) && decide ((runKey c.runs).2 < (runKey e.runs).2))

/-- The lowest flaw number of the markers that a component's runs touch (R68). -/
def continuedFrom (xb : Nat) (markers : List Marker) (runs : List PixelRun) : Option Nat :=
  markers.foldl (fun o m => if runs.any (fun r => touches xb r m.lo m.hi) then lowerOf o (some m.flaw) else o) none

/-- A component without a blob makes a new blob, after a forced closure if the table is full (R64, R66, R68). -/
def AsmStep.makeBlob (c : JoinContext) (n : Nat) (r : AsmStep) (k : Component) : AsmStep :=
  match k.runs with
  | [] => r
  | q :: _ =>
    let r := r.makeRoom c
    let b := (Blob.new r.asm.nextBlob n q (continuedFrom c.detect.crossBridge r.asm.markers k.runs)).extend n k.runs
    { r with asm := { r.asm.countBlob with blobs := r.asm.blobs ++ [b] } }

/-- A blob eligible at the join of line n (R63). -/
def Blob.eligible (b : Blob) (n gap : Nat) : Bool := decide (n ≤ b.front + 1 + gap)

/-- A lane that did not inspect a line: no join queue entry for it, or a blind one (R65). -/
def uninspected (e : Option JoinEntry) : Bool :=
  match e with
  | none => true
  | some j => j.blind

/-- PARTIAL_VIEW for a blob with runs of line n: some lane that meets it and the net range did not inspect the line (R65). -/
def partialAt (sh : Shadow) (entries : LaneId → Option JoinEntry) (b : Blob) : Bool :=
  allLanes.any fun k =>
    uninspected (entries k) && meetsNet sh.lanes[k] sh &&
      decide (b.lo ≤ sh.lanes[k].ownHi) && decide (sh.lanes[k].ownLo ≤ b.hi)

/-- Whether a blob's length has reached the maximum at line n (R67). -/
def Blob.overlong (b : Blob) (c : JoinContext) (n : Nat) : Bool :=
  decide (b.front = n) && decide (c.detect.maxLength ≤ (n - b.first + 1) * c.pitch)

/-- Whether a blob has passed Ga lines without runs at line n (R67). -/
def Blob.ended (b : Blob) (c : JoinContext) (n : Nat) : Bool := decide (b.front + c.detect.alongGap < n)

/-- One closure of the pass at the end of a join, with the marker a truncated blob leaves (R67, R68). -/
def AsmStep.closeAt (c : JoinContext) (n : Nat) (r : AsmStep × List Marker) (b : Blob) : AsmStep × List Marker :=
  if b.overlong c n then
    let flaw := r.1.asm.nextFlaw
    let s := { r.1 with asm := { r.1.asm with truncated := bump r.1.asm.truncated } }
    (s.close c { b with flags := { b.flags with truncated := true } },
     r.2 ++ [{ lo := b.frontLo, hi := b.frontHi, flaw := flaw }])
  else (r.1.close c b, r.2)

/-- The join of line n, from its runs and the lanes' entries (R62 to R68). -/
def Assembler.joinLine (c : JoinContext) (sh : Shadow) (n : Nat) (entries : LaneId → Option JoinEntry) (a : Assembler) :
    AsmStep :=
  let runs := allLanes.flatMap fun k => match entries k with | none => [] | some j => j.runs
  let cs := components c.detect.crossBridge (a.blobs.filter (·.eligible n c.detect.alongGap)) runs
  let old := cs.filter fun k => !k.blobs.isEmpty
  let fresh := sortBy newBefore (cs.filter fun k => k.blobs.isEmpty)
  let r := Assembler.step { a with blobs := old.foldl (resolveOld n) a.blobs }
  let r := fresh.foldl (AsmStep.makeBlob c n) r
  let mark := fun (b : Blob) =>
    if b.front = n ∧ partialAt sh entries b = true then { b with flags := { b.flags with partialView := true } } else b
  let blobs := r.asm.blobs.map mark
  let closing := sortBy Blob.earlier (blobs.filter fun b => b.overlong c n || b.ended c n)
  let kept := blobs.filter fun b => !(b.overlong c n || b.ended c n)
  let z := closing.foldl (AsmStep.closeAt c n) ({ r with asm := { r.asm with blobs := kept } }, [])
  { z.1 with asm := { z.1.asm with markers := z.2, joined := n }, planner := z.1.planner ++ [.joined n] }

/-- The end of an assembler event: messages to the Planner, flaw records and increments (R62, R72). -/
def State.finishAsm (s : State) (r : AsmStep) : State :=
  let s := { s with
    asm := r.asm
    wires := { s.wires with
      asmPlanner := s.wires.asmPlanner ++ s.tagAll r.planner
      flawRecords := s.wires.flawRecords ++ r.records } }
  s.sendIncrements .assembler r.incs

/-- The context of a join or flush under a DETECT copy. -/
def State.joinContext (s : State) (sh : Shadow) (d : DetectGroup) : JoinContext :=
  { pitch := sh.travel.pitch, netLo := sh.netLo, netHi := sh.netHi, detect := d, run := s.cmd.run }

/-- The entry of a lane's join queue for line n (R62). -/
def Engine.entryFor (e : Engine) (n : Nat) (k : LaneId) : Option JoinEntry :=
  e.lanes[k].join.find? fun j => decide (j.line = n)

/-- The join queues less the entries of line n (R42, R62). -/
def Engine.takeLine (e : Engine) (n : Nat) : Engine :=
  { e with lanes := allLanes.foldl (fun v k => upd v k fun st =>
      { st with join := st.join.filter fun j => decide (j.line ≠ n) }) e.lanes }

/-- The join of line J + 1, in RUNNING with F above J (R62). -/
def joinNext (s : State) : State :=
  if s.cmd.runState = .running ∧ s.asm.joined < s.asm.frontier then
    let t := s.takeDetect
    match t.cmd.shadow, t.cmd.detect.inUse with
    | some sh, some d =>
      let n := t.asm.joined + 1
      let r := t.asm.joinLine (t.joinContext sh d) sh n (t.engine.entryFor n)
      State.finishAsm { t with engine := t.engine.takeLine n } r
    | _, _ => s
  else s

/-- JOIN (R62). -/
def execJoin (s : State) : Host.Outcome State Fault Refusal := .next (live joinNext s)

/-- The flush at STOP_RUN: every open blob closed, the markers discarded, and the end of the flush handed on (R69). -/
def Assembler.flush (c : JoinContext) (a : Assembler) : AsmStep :=
  let r := (sortBy Blob.earlier a.blobs).foldl (AsmStep.close c) (Assembler.step { a with blobs := [] })
  { r with asm := { r.asm with markers := [] }, planner := r.planner ++ [.flushEnd] }

/-- The assembler at STOP_RUN (R69). -/
def flushBlobs (s : State) : State :=
  match s.cmd.shadow, s.cmd.detect.inUse with
  | some sh, some d => s.finishAsm (s.asm.flush (s.joinContext sh d))
  | _, _ => s

/-! ## Settled lines and gap lines -/

/-- The order of the gap list: increasing first line, then lane, with ALL after lane 7 (R77). -/
def GapEntry.before (e f : GapEntry) : Bool :=
  let key := fun (g : GapEntry) => match g.lane with | none => 8 | some k => k.val
  decide (e.first < f.first) || (decide (e.first = f.first) && decide (key e < key f))

/-- Whether a gap line lies in glass already graded (R77). -/
def Assembler.graded (a : Assembler) (pitch x : Nat) : Bool :=
  match a.gradedTail with
  | none => false
  | some t => decide ((x + 1) * pitch ≤ t)

/-- A lane's newest entry extended by the line that follows it (R77). -/
def extendGap (k : LaneId) (x : Nat) (e : GapEntry) : GapEntry :=
  if e.lane = some k ∧ e.laneNewest = true then { e with last := x } else e

/-- A new entry for line x of lane k, the newest of the list and of its lane (R77). -/
def insertGap (k : LaneId) (x : Nat) (gaps : List GapEntry) : List GapEntry :=
  insertBy GapEntry.before { lane := some k, first := x, last := x, newest := true, laneNewest := true }
    (gaps.map fun e =>
      { e with newest := false, laneNewest := if e.lane = some k then false else e.laneNewest })

/-- A line merged into the newest entry of a full list, whose lane becomes ALL (R77). -/
def mergeGap (x : Nat) (gaps : List GapEntry) : List GapEntry :=
  match takeFirst (fun e => e.newest) gaps with
  | none => gaps
  | some (e, rest) =>
    insertBy GapEntry.before
      { lane := none, first := min e.first x, last := max e.last x, newest := true, laneNewest := false } rest

/-- A gap line of lane k taken into the gap list (R77). -/
def Assembler.gapLine (a : Assembler) (pitch : Nat) (k : LaneId) (x : Nat) : Assembler :=
  if a.graded pitch x then a
  else if a.gaps.any (fun e => decide (e.lane = none) && decide (e.first ≤ x) && decide (x ≤ e.last)) then a
  else if a.gaps.any (fun e => decide (e.lane = some k) && e.laneNewest && decide (e.last + 1 = x)) then
    { a with gaps := a.gaps.map (extendGap k x) }
  else if a.gaps.length < Config.gapListLimit then { a with gaps := insertGap k x a.gaps }
  else { a with gaps := mergeGap x a.gaps }

/-- Whether a lane's message is a gap line. -/
def LaneMsg.isGap : LaneMsg → Bool
  | .gap _ => true
  | .settled _ => false

/-- A message of lane k taken by the assembler (R61, R77). -/
def takeLaneMsg (k : LaneId) (m : LaneMsg) (s : State) : State :=
  match m with
  | .gap x =>
    match s.cmd.shadow with
    | none => s
    | some sh => { s with asm := s.asm.gapLine sh.travel.pitch k x }
  | .settled n => { s with asm := { s.asm with settled := upd s.asm.settled k (fun _ => n) } }

/-- GAP_LINE from lane k: the oldest message of the lane, when it is a gap line (R77). -/
def execGapLine (k : LaneId) (s : State) : Host.Outcome State Fault Refusal :=
  .next (receiveIf LaneMsg.isGap (fun w => w.laneMsgs[k]) (fun w r => { w with laneMsgs := upd w.laneMsgs k (fun _ => r) })
    (takeLaneMsg k) s)

/-- SETTLED_LINE from lane k: the oldest message of the lane, when it is a settled line (R61). -/
def execSettledLine (k : LaneId) (s : State) : Host.Outcome State Fault Refusal :=
  .next (receiveIf (fun m => !m.isGap) (fun w => w.laneMsgs[k])
    (fun w r => { w with laneMsgs := upd w.laneMsgs k (fun _ => r) }) (takeLaneMsg k) s)

/-! ## Scans, marks and gathers -/

/-- Whether an entry answers a scan of [a, b) at a severity floor (R74). -/
def FlawEntry.answers (f : FlawEntry) (a b floor : Nat) : Bool :=
  decide (f.start < b) && decide (a < f.stop) && decide (floor ≤ f.severity.code)

/-- LATE set on the entry with a flaw number, if one is held (R74). -/
def markLateIn (n : Nat) (t : List FlawEntry) : List FlawEntry :=
  t.map fun f => if f.number = n then { f with late := true } else f

/-- UNPLANNED set on the entry with a flaw number, if one is held (R74). -/
def markUnplannedIn (n : Nat) (t : List FlawEntry) : List FlawEntry :=
  t.map fun f => if f.number = n then { f with unplanned := true } else f

/-- Whether a request of the Planner is a scan. -/
def PlanReq.isScan : PlanReq → Bool
  | .scan _ _ _ => true
  | .markLate _ | .markUnplanned _ => false

/-- A request of the Planner taken by the assembler (R74). -/
def takePlanReq (m : PlanReq) (s : State) : State :=
  match m with
  | .scan a b floor =>
    s.wire fun w =>
      { w with asmPlanner := w.asmPlanner ++ [s.tag (.scanAnswer (s.asm.table.filter (·.answers a b floor)))] }
  | .markLate n => { s with asm := { s.asm with table := markLateIn n s.asm.table } }
  | .markUnplanned n => { s with asm := { s.asm with table := markUnplannedIn n s.asm.table } }

/-- SCAN (R74). -/
def execScan (s : State) : Host.Outcome State Fault Refusal :=
  .next (receiveIf PlanReq.isScan Wires.plannerAsm (fun w r => { w with plannerAsm := r }) takePlanReq s)

/-- MARK (R74). -/
def execMark (s : State) : Host.Outcome State Fault Refusal :=
  .next (receiveIf (fun m => !m.isScan) Wires.plannerAsm (fun w r => { w with plannerAsm := r }) takePlanReq s)

/-- Whether a midpoint lies in a piece; a LEAD piece, without a head, takes all below its tail (R75). -/
def GatherReq.holds (g : GatherReq) (m : Nat) : Bool :=
  decide (g.head.getD 0 ≤ m) && decide (m < g.tail)

/-- One entry's part of the gap overlap beyond what the entries before it cover: the µm reached and the length (R75). -/
def addGap (pitch tail : Nat) (acc : Nat × Nat) (e : GapEntry) : Nat × Nat :=
  let lo := max acc.1 (e.first * pitch)
  let hi := min tail ((e.last + 1) * pitch)
  (max acc.1 hi, acc.2 + (hi - lo))

/-- The gap overlap of a piece: each µm in the along span of some entry counted once (R75). -/
def gapOverlap (pitch : Nat) (g : GatherReq) (gaps : List GapEntry) : Nat :=
  match g.head with
  | none => 0
  | some h => (gaps.foldl (addGap pitch g.tail) (h, 0)).2

/-- Whether the overflow span meets a piece (R75). -/
def overflowMeets (g : GatherReq) (o : Option OverflowSpan) : Bool :=
  match o with
  | none => false
  | some s => decide (s.lo < g.tail) && decide (g.head.getD 0 ≤ s.hi)

/-- The overflow span after a gather: removed once its hi is below the tail (R75, R76). -/
def overflowAfter (g : GatherReq) (o : Option OverflowSpan) : Option OverflowSpan :=
  match o with
  | none => none
  | some s => if s.hi < g.tail then none else some s

/-- A gather: the piece's flaws leave the table, the overlaps are measured, the graded tail follows the piece and the gap
list and overflow span are trimmed (R75). -/
def takeGather (g : GatherReq) (s : State) : State :=
  match s.cmd.shadow with
  | none => s
  | some sh =>
    let a := s.asm
    let answer : GatherAnswer :=
      { entries := a.table.filter fun f => g.holds f.midpoint
        overlap := gapOverlap sh.travel.pitch g a.gaps
        overflow := overflowMeets g a.overflow }
    let a := { a with
      table := a.table.filter fun f => !g.holds f.midpoint
      gradedTail := some g.tail
      gaps := a.gaps.filter fun e => decide (g.tail < (e.last + 1) * sh.travel.pitch)
      overflow := overflowAfter g a.overflow }
    State.wire { s with asm := a } fun w => { w with gatherAnswers := w.gatherAnswers ++ [s.tag answer] }

/-- GATHER (R75). -/
def execGather (s : State) : Host.Outcome State Fault Refusal :=
  .next (receive Wires.gathers (fun w r => { w with gathers := r }) takeGather s)

/-- The assembler at run reset (R79). -/
def Assembler.runReset (a : Assembler) : Assembler := { Assembler.powerOn with numbersPast := a.numbersPast }

end Sys2Proof.Machine
end

