-- ==== Sys2Proof/Machine/Planner.lean ====
section
/-! DEFINITION. The Cut Planner (chapter 5): pieces and cuts, the commit frontier, the open piece and room, planning
around flaws, manual cuts and the run end. -/

namespace Sys2Proof.Machine

/-! ## The Planner's step -/

/-- The planning fields a step works with (R82), and whether the run state is RUNNING. -/
structure PlanContext where
  minTrim : Nat
  reach   : Nat
  running : Bool
  deriving DecidableEq, Repr

/-- The Planner while it takes one event: its state, the copies of the PLAN group, and what it sends. -/
structure PlanStep where
  p        : Planner
  plan     : Copies PlanGroup
  toAsm    : List PlanReq
  toStrike : List StrikeMsg
  incs     : List Increment
  deriving DecidableEq, Repr

/-- The fields in the shadow that govern planning: min_trim, and D_cut − D_commit (R82, R86). -/
def State.planContext (s : State) (sh : Shadow) : PlanContext :=
  { minTrim := sh.minTrim, reach := sh.dCut - sh.dCommit, running := decide (s.cmd.runState = .running) }

/-- The Planner before it takes an event. -/
def State.planStep (s : State) : PlanStep :=
  { p := s.planner, plan := s.cmd.plan, toAsm := [], toStrike := [], incs := [] }

/-- The end of a Planner event: its state, the group's copies, its requests, offers and increments. -/
def State.finishPlan (s : State) (r : PlanStep) : State :=
  let s := { s with
    planner := r.p
    cmd := { s.cmd with plan := r.plan }
    wires := { s.wires with
      plannerAsm := s.wires.plannerAsm ++ s.tagAll r.toAsm
      plannerStrike := s.wires.plannerStrike ++ s.tagAll r.toStrike } }
  s.sendIncrements .planner r.incs

/-- The Planner's state changed within a step. -/
def PlanStep.change (r : PlanStep) (f : Planner → Planner) : PlanStep := { r with p := f r.p }

/-- One tally increment sent. -/
def PlanStep.count (r : PlanStep) (i : Increment) : PlanStep := { r with incs := r.incs ++ [i] }

/-! ## Cuts, pieces and room -/

/-- The position at the head of the cut queue. -/
def Planner.headCut (p : Planner) : Option Nat := p.cuts.head?.map (·.pos)

/-- The offer that a change of the head of the queue calls for (R103). -/
def PlanStep.offerChange (before : Option Nat) (r : PlanStep) : PlanStep :=
  if r.p.headCut = before then r else { r with toStrike := r.toStrike ++ [.offer r.p.headCut] }

/-- Room for the cuts and pieces of a change: free queue entries and free table slots, the open piece counted (R88). -/
def Planner.room (p : Planner) (cuts pieces : Nat) : Bool :=
  decide (p.cuts.length + cuts ≤ Config.cutQueueLimit) && decide (p.count + pieces ≤ Config.pieceTableLimit)

/-- The cut kind of a piece's tail (R81). -/
def PieceKind.cutKind : PieceKind → CutKind
  | .lead => .runStart
  | .size _ => .size
  | .cullet => .trim
  | .manual => .manual
  | .overlength => .overlength
  | .runEnd => .runEnd

/-- The next piece number taken (R80). -/
def Planner.countPiece (p : Planner) : Planner :=
  { p with nextPiece := nextNumber (2 * p.numbersPast + 1) p.nextPiece,
           numbersPast := if p.nextPiece < max32 then p.numbersPast else p.numbersPast + 1 }

/-- A piece whose tail is fixed takes the next number and becomes PLANNED; its tail joins the end of the queue (R80,
R81). -/
def Planner.place (p : Planner) (kind : PieceKind) (head : Option Nat) (tail : Nat) (sizes : PlanGroup) : Planner :=
  { p.countPiece with
    pieces := p.pieces ++
      [{ number := p.nextPiece, kind := kind, head := head, tail := tail, state := .planned, sizes := sizes }]
    cuts := p.cuts ++ [{ pos := tail, kind := kind.cutKind, committed := false }] }

/-- A piece placed, with the offer of its cut when the queue was empty (R103). -/
def PlanStep.place (r : PlanStep) (kind : PieceKind) (head : Option Nat) (tail : Nat) (sizes : PlanGroup) : PlanStep :=
  (r.change fun p => p.place kind head tail sizes).offerChange r.p.headCut

/-- An open piece created at h under the PLAN group at its effect point, not overdue, and scanned over [h, h + L1) (R84,
R96). -/
def PlanStep.createOpen (r : PlanStep) (h : Nat) : PlanStep :=
  let plan := r.plan.activate
  match plan.inUse with
  | none => { r with plan := plan, p := { r.p with openPiece := none, overdue := false } }
  | some g =>
    { r with
      plan := plan
      p := { r.p with openPiece := some { head := h, sizes := g }, overdue := false }
      toAsm := r.toAsm ++ [.scan h (h + g.l1) g.level] }

/-- The open piece given a tail and a kind, and a new open piece created there (R89, R90, R94, R97). -/
def PlanStep.fix (r : PlanStep) (o : OpenPiece) (kind : PieceKind) (tail : Nat) : PlanStep :=
  (r.place kind (some o.head) tail o.sizes).createOpen tail

/-- Whether a position lies above Cf; with Cf absent, nothing lies at or below it (R86). -/
def Planner.aboveCf (p : Planner) (x : Nat) : Bool :=
  match p.cf with
  | none => true
  | some c => decide (c < x)

/-- The higher of the frontier position and Cf + 1 (R89, R90). -/
def Planner.overTail (p : Planner) : Nat :=
  match p.cf with
  | none => p.frontier
  | some c => max p.frontier (c + 1).toNat

/-! ## The open piece -/

/-- A due open piece: fixed as SIZE1 or OVERLENGTH when there is room, else overdue (R89, R90). -/
def PlanStep.due (r : PlanStep) (o : OpenPiece) : PlanStep :=
  if r.p.room 1 1 then
    if r.p.aboveCf o.candidate then r.fix o (.size 0) o.candidate else r.fix o .overlength r.p.overTail
  else r.change fun p => { p with overdue := true }

/-- The due test at a joined line: the frontier position has reached h + L1 (R89). -/
def PlanStep.dueByFrontier (r : PlanStep) : PlanStep :=
  match r.p.openPiece with
  | none => r
  | some o => if !r.p.overdue && decide (o.candidate ≤ r.p.frontier) then r.due o else r

/-- The due test at a rise: Cf has reached h + L1 (R86, R89). -/
def PlanStep.dueByRise (r : PlanStep) : PlanStep :=
  match r.p.openPiece with
  | none => r
  | some o => if !r.p.overdue && !r.p.aboveCf o.candidate then r.due o else r

/-- An overdue open piece taken up with freed room: OVERLENGTH, with one queue-full event (R90). -/
def PlanStep.retryOverdue (r : PlanStep) : PlanStep :=
  match r.p.openPiece with
  | none => r
  | some o =>
    if r.p.overdue && r.p.room 1 1 then (r.fix o .overlength r.p.overTail).count .queueFull else r

/-- The highest of the frontier position, h + min_trim and Cf + 1 (R98). -/
def Planner.runEndTail (c : PlanContext) (p : Planner) (o : OpenPiece) : Nat := max p.overTail (o.head + c.minTrim)

/-- A waiting run end taken up: with a free queue entry the open piece becomes the RUN_END piece (R98). -/
def PlanStep.retryRunEnd (c : PlanContext) (r : PlanStep) : PlanStep :=
  match r.p.openPiece with
  | none => r
  | some o =>
    if r.p.runEnd = .waiting ∧ r.p.room 1 0 then
      (r.place .runEnd (some o.head) (r.p.runEndTail c o) o.sizes).change fun p =>
        { p with openPiece := none, overdue := false, runEnd := .fixed }
    else r

/-- The work that waits on room, at each freeing: in RUNNING an overdue open piece, in DRAINING a waiting run end (R88). -/
def PlanStep.takeUpRoom (c : PlanContext) (r : PlanStep) : PlanStep := if c.running then r.retryOverdue else r.retryRunEnd c

/-! ## Flags of flaws -/

/-- A flaw flagged LATE: a mark request and one increment, unless it carries the flag (R95). -/
def PlanStep.late (r : PlanStep) (f : FlawEntry) : PlanStep :=
  if f.late || r.p.markedLate.contains f.number then r
  else PlanStep.count { r with
    p := { r.p with markedLate := r.p.markedLate ++ [f.number] }
    toAsm := r.toAsm ++ [.markLate f.number] } .lateFlaw

/-- A flaw flagged UNPLANNED: a mark request and one increment, unless it carries the flag (R95). -/
def PlanStep.unplanned (r : PlanStep) (f : FlawEntry) : PlanStep :=
  if f.unplanned || r.p.markedUnplanned.contains f.number then r
  else PlanStep.count { r with
    p := { r.p with markedUnplanned := r.p.markedUnplanned ++ [f.number] }
    toAsm := r.toAsm ++ [.markUnplanned f.number] } .unplannedFlaw

/-- A replan refused for want of room: the flaw is UNPLANNED, and one queue-full event is counted (R95). -/
def PlanStep.noRoom (r : PlanStep) (f : FlawEntry) : PlanStep := (r.unplanned f).count .queueFull

/-! ## Planning around flaws -/

/-- The planned sizes of a PLAN group with their places, largest first (R83). -/
def PlanGroup.numbered (g : PlanGroup) : List (Fin 4 × Nat) :=
  [((0 : Fin 4), g.l1), (1, g.l2), (2, g.l3), (3, g.l4)].take g.count

/-- The largest size whose plate ends at or before f0 and above Cf (R92). -/
def Planner.sizedPlate (p : Planner) (o : OpenPiece) (f : FlawEntry) : Option (Fin 4 × Nat) :=
  o.sizes.numbered.find? fun z =>
    decide (o.head + z.2 + o.sizes.margin ≤ f.start) && p.aboveCf (o.head + z.2)

/-- The trim end after a plate that ends at c (R92). -/
def trimEnd (c : PlanContext) (o : OpenPiece) (f : FlawEntry) (cut : Nat) : Nat :=
  min (cut + o.sizes.l1) (max (f.stop + o.sizes.margin) (cut + c.minTrim))

/-- The first step: a sized plate before the flaw, and a CULLET piece over it (R92). -/
def PlanStep.sizedReplan (c : PlanContext) (r : PlanStep) (o : OpenPiece) (f : FlawEntry) (z : Fin 4 × Nat) : PlanStep :=
  if !r.p.overdue && r.p.room 2 2 then
    let cut := o.head + z.2
    let e := trimEnd c o f cut
    ((r.place (.size z.1) (some o.head) cut o.sizes).place .cullet (some cut) e o.sizes).createOpen e
  else r.noRoom f

/-- The CULLET piece whose tail is the open head (R93). -/
def Planner.culletBefore (p : Planner) (o : OpenPiece) : Option Piece :=
  p.pieces.find? fun q => decide (q.kind = .cullet) && decide (q.tail = o.head)

/-- The tail of a cullet merge: the higher of f1 and the piece's head + min_trim (R93). -/
def mergeTail (c : PlanContext) (o : OpenPiece) (f : FlawEntry) (q : Piece) : Nat :=
  max (f.stop + o.sizes.margin) (q.head.getD 0 + c.minTrim)

/-- A merge that leaves the CULLET piece no longer than L1 (R93). -/
def mergeFits (c : PlanContext) (o : OpenPiece) (f : FlawEntry) (q : Piece) : Bool :=
  decide (mergeTail c o f q ≤ q.head.getD 0 + o.sizes.l1)

/-- The cullet merge on the table and the queue: the last cut goes, and the piece takes its new tail (R93). -/
def Planner.mergeCullet (p : Planner) (q : Piece) (e : Nat) : Planner :=
  { p with
    pieces := p.pieces.map fun x => if x.tail = q.tail then { x with tail := e } else x
    cuts := p.cuts.filter (fun x => decide (x.pos ≠ q.tail)) ++ [{ pos := e, kind := .trim, committed := false }] }

/-- LATE for a made replan when the flaw starts below the head of its CULLET piece (R95). R95 does not say whether its mark
request or the scan of the new open piece goes first: the scan does, DESIGN CHOICE (notes/assumptions/42). -/
def PlanStep.lateBelow (r : PlanStep) (f : FlawEntry) (head : Nat) : PlanStep := if f.start < head then r.late f else r

/-- The second step: the CULLET piece before the open piece extended over the flaw (R93, R95). When the replan is made and the
flaw is also LATE, the scan of the new open piece is sent before the mark request: DESIGN CHOICE (notes/assumptions/42). -/
def PlanStep.mergeReplan (c : PlanContext) (r : PlanStep) (o : OpenPiece) (f : FlawEntry) (q : Piece) : PlanStep :=
  let e := mergeTail c o f q
  if r.p.aboveCf e then
    (((r.change fun p => p.mergeCullet q e).offerChange r.p.headCut).createOpen e).lateBelow f (q.head.getD 0)
  else r.late f

/-- The tail of the open piece turned into cullet (R94). -/
def culletTail (c : PlanContext) (o : OpenPiece) (f : FlawEntry) : Nat :=
  min o.candidate (max (f.stop + o.sizes.margin) (o.head + c.minTrim))

/-- The third step: the open piece turned into cullet (R94, R95). When it is made and the flaw is also LATE, the scan of the new
open piece is sent before the mark request: DESIGN CHOICE (notes/assumptions/42). -/
def PlanStep.culletReplan (c : PlanContext) (r : PlanStep) (o : OpenPiece) (f : FlawEntry) : PlanStep :=
  let e := culletTail c o f
  if !r.p.aboveCf e then r.late f
  else if !r.p.overdue && r.p.room 1 1 then (r.fix o .cullet e).lateBelow f o.head
  else r.noRoom f

/-- The first of the three steps that applies (R92 to R94). Where the merge would apply but for its cut's commitment, the
flaw is LATE and the open piece is still turned into cullet (R86, R93, R95; notes/assumptions/13). -/
def PlanStep.replan (c : PlanContext) (r : PlanStep) (o : OpenPiece) (f : FlawEntry) : PlanStep :=
  match r.p.sizedPlate o f with
  | some z => r.sizedReplan c o f z
  | none =>
    match r.p.culletBefore o with
    | none => r.culletReplan c o f
    | some q =>
      if mergeFits c o f q then
        if q.state = .planned then r.mergeReplan c o f q else (r.late f).culletReplan c o f
      else r.culletReplan c o f

/-- The µm up to which the CULLET and OVERLENGTH pieces cover a span without a break, from x on (R91). -/
def coveredTo (x : Nat) (ps : List Piece) : Nat :=
  ps.foldl (fun x q =>
    if (q.kind = .cullet ∨ q.kind = .overlength) ∧ q.head.getD 0 ≤ x ∧ x < q.tail then q.tail else x) x

/-- A span that lies wholly within CULLET and OVERLENGTH pieces of the table (R91). -/
def Planner.covered (p : Planner) (f : FlawEntry) : Bool := decide (f.stop ≤ coveredTo f.start p.pieces)

/-- The examination of one flaw against the open piece (R91). -/
def PlanStep.examine (c : PlanContext) (r : PlanStep) (f : FlawEntry) : PlanStep :=
  match r.p.openPiece with
  | none => r
  | some o =>
    if f.severity.code < o.sizes.level then r
    else if f.stop ≤ o.head then (if r.p.covered f then r else r.late f)
    else if o.candidate ≤ f.start then r
    else r.replan c o f

/-! ## Messages from the assembler -/

/-- A joined line taken: the frontier position, and the due test (R89). -/
def PlanStep.joinedLine (pitch n : Nat) (r : PlanStep) : PlanStep :=
  (r.change fun p => { p with frontier := (n + 1) * pitch }).dueByFrontier

/-- The end of the flush: the run end waits, and is fixed at once with a free queue entry (R98). -/
def PlanStep.flushEnd (c : PlanContext) (r : PlanStep) : PlanStep :=
  (r.change fun p => { p with runEnd := .waiting, overdue := false }).retryRunEnd c

/-- A message of the assembler taken by the Planner (R91, R96, R89, R98). -/
def PlanStep.takeAsm (c : PlanContext) (pitch : Nat) (r : PlanStep) : AsmMsg → PlanStep
  | .heldFlaw f => r.examine c f
  | .scanAnswer fs => fs.foldl (PlanStep.examine c) r
  | .joined n => r.joinedLine pitch n
  | .flushEnd => r.flushEnd c

/-- A message of the assembler taken. -/
def takeAsmMsg (m : AsmMsg) (s : State) : State :=
  match s.cmd.shadow with
  | none => s
  | some sh => s.finishPlan (s.planStep.takeAsm (s.planContext sh) sh.travel.pitch m)

/-- Taking the assembler's oldest message when it is of one kind. -/
def takeAsmIf (kind : AsmMsg → Bool) (s : State) : State :=
  receiveIf kind Wires.asmPlanner (fun w r => { w with asmPlanner := r }) takeAsmMsg s

/-- The kinds of the assembler's messages. -/
def AsmMsg.isHeldFlaw : AsmMsg → Bool
  | .heldFlaw _ => true
  | .scanAnswer _ | .joined _ | .flushEnd => false

/-- An answer to a scan. -/
def AsmMsg.isScanAnswer : AsmMsg → Bool
  | .scanAnswer _ => true
  | .heldFlaw _ | .joined _ | .flushEnd => false

/-- A joined line. -/
def AsmMsg.isJoined : AsmMsg → Bool
  | .joined _ => true
  | .heldFlaw _ | .scanAnswer _ | .flushEnd => false

/-- The end of the flush. -/
def AsmMsg.isFlushEnd : AsmMsg → Bool
  | .flushEnd => true
  | .heldFlaw _ | .scanAnswer _ | .joined _ => false

/-- HELD_FLAW (R91). -/
def execHeldFlaw (s : State) : Host.Outcome State Fault Refusal := .next (takeAsmIf AsmMsg.isHeldFlaw s)

/-- SCAN_ANSWER (R96). -/
def execScanAnswer (s : State) : Host.Outcome State Fault Refusal := .next (takeAsmIf AsmMsg.isScanAnswer s)

/-- JOINED_LINE (R89). -/
def execJoinedLine (s : State) : Host.Outcome State Fault Refusal := .next (takeAsmIf AsmMsg.isJoined s)

/-- FLUSH_END (R98). -/
def execFlushEnd (s : State) : Host.Outcome State Fault Refusal := .next (takeAsmIf AsmMsg.isFlushEnd s)

/-! ## Rises, strikes and removals -/

/-- A cut committed at Cf (R86). -/
def Cut.commitAt (cf : Int) (x : Cut) : Cut := if (x.pos : Int) ≤ cf then { x with committed := true } else x

/-- A piece COMMITTED with its tail cut (R86). -/
def Piece.commitAt (cf : Int) (q : Piece) : Piece :=
  if q.state = .planned ∧ (q.tail : Int) ≤ cf then { q with state := .committed } else q

/-- Cf set, and every cut at or below it committed (R86). -/
def Planner.setCf (p : Planner) (cf : Int) : Planner :=
  { p with cf := some cf, cuts := p.cuts.map (Cut.commitAt cf), pieces := p.pieces.map (Piece.commitAt cf) }

/-- A rise of P taken by the Planner (R86). -/
def takePlannerRise (m : Rise) (s : State) : State :=
  match s.cmd.shadow with
  | none => s
  | some sh =>
    let c := s.planContext sh
    s.finishPlan ((s.planStep.change fun p => p.setCf ((m.p1 : Int) - c.reach)).dueByRise)

/-- PLANNER_RISE (R86). -/
def execPlannerRise (s : State) : Host.Outcome State Fault Refusal :=
  .next (receive Wires.plannerRises (fun w r => { w with plannerRises := r }) takePlannerRise s)

/-- The strike of the head cut: it leaves the queue, its piece is STRUCK, and the next head is offered (R87, R103). -/
def PlanStep.strike (r : PlanStep) (q : Piece) : PlanStep :=
  let p : Planner :=
    { r.p with
      cuts := r.p.cuts.tail
      pieces := r.p.pieces.map fun x => if x.tail = q.tail then { x with state := .struck } else x }
  { r with p := p, toStrike := r.toStrike ++ [.grant q.number q.kind q.head q.tail, .offer p.headCut] }

/-- A strike claim for the cut at c: granted when the head of the queue is there, else withdrawn (R104). -/
def PlanStep.claim (k : PlanContext) (r : PlanStep) (c : Nat) : PlanStep :=
  match r.p.pieces.find? (fun q => decide (q.tail = c)) with
  | some q =>
    if r.p.headCut = some c then (r.strike q).takeUpRoom k else { r with toStrike := r.toStrike ++ [.withdrawal] }
  | none => { r with toStrike := r.toStrike ++ [.withdrawal] }

/-- A strike claim taken by the Planner (R104, R87). -/
def takeClaim (c : Nat) (s : State) : State :=
  match s.cmd.shadow with
  | none => s
  | some sh => s.finishPlan (s.planStep.claim (s.planContext sh) c)

/-- STRIKE_CLAIM (R104). -/
def execStrikeClaim (s : State) : Host.Outcome State Fault Refusal :=
  .next (receive Wires.claims (fun w r => { w with claims := r }) takeClaim s)

/-- A piece removed from the table, and the freed room taken up (R80, R88). -/
def PlanStep.remove (c : PlanContext) (r : PlanStep) (n : Nat) : PlanStep :=
  (r.change fun p => { p with pieces := p.pieces.filter fun q => decide (q.number ≠ n) }).takeUpRoom c

/-- The completion of the run end handed to the Command Unit when the run end is FIXED and the table empty (R99). -/
def State.runEndDone (s : State) : State :=
  if s.planner.runEnd = .fixed ∧ s.planner.count = 0 then s.wire fun w => { w with runEnds := w.runEnds ++ [s.tag ()] }
  else s

/-- A removal, or a move to WAITING_LOG, taken by the Planner (R88, R125). -/
def takePieceReq (m : PieceReq) (s : State) : State :=
  match s.cmd.shadow, m with
  | none, _ => s
  | some sh, .removal n => (s.finishPlan (s.planStep.remove (s.planContext sh) n)).runEndDone
  | some _, .waitingLog n =>
    { s with planner := { s.planner with
      pieces := s.planner.pieces.map fun q => if q.number = n then { q with state := .waitingLog } else q } }

/-- Whether a request of the Grading Unit is a removal. -/
def PieceReq.isRemoval : PieceReq → Bool
  | .removal _ => true
  | .waitingLog _ => false

/-- PIECE_REMOVAL (R88). -/
def execPieceRemoval (s : State) : Host.Outcome State Fault Refusal :=
  .next (receiveIf PieceReq.isRemoval Wires.pieceReqs (fun w r => { w with pieceReqs := r }) takePieceReq s)

/-- WAITING_LOG_MOVE (R125). -/
def execWaitingLogMove (s : State) : Host.Outcome State Fault Refusal :=
  .next (receiveIf (fun m => !m.isRemoval) Wires.pieceReqs (fun w r => { w with pieceReqs := r }) takePieceReq s)

/-! ## Manual cuts, run start and reset -/

/-- The position of a manual cut: as given, or the frontier position (R97). -/
def Planner.manualPosition (p : Planner) (given : Option Nat) : Nat := given.getD p.frontier

/-- The first test that a manual cut at x fails, if any (R97). -/
def Planner.manualRefusal (c : PlanContext) (p : Planner) (o : OpenPiece) (x : Nat) : Option Reason :=
  if !p.aboveCf x then some .tooLate
  else if x < o.head + c.minTrim then some .tooSoon
  else if p.frontier < x then some .notInspected
  else if p.overdue || !p.room 1 1 then some .noRoom
  else none

/-- MANUAL_CUT in the Planner: a refusal reason, or the cut made (R97). -/
def PlanStep.manualCut (c : PlanContext) (r : PlanStep) (given : Option Nat) : Option Reason × PlanStep :=
  match c.running, r.p.openPiece with
  | true, some o =>
    let x := r.p.manualPosition given
    match r.p.manualRefusal c o x with
    | some e => (some e, r)
    | none => (none, r.fix o .manual x)
  | _, _ => (some .notRunning, r)

/-- Entry to RUNNING: the counters of the run, the LEAD piece and its cut, and the open piece at 0 (R85). -/
def PlanStep.enterRun (c : PlanContext) (r : PlanStep) : PlanStep :=
  match r.plan.activate.inUse with
  | none => r
  | some g =>
    ((r.change fun p => { p with nextPiece := 1, frontier := 0, cf := some (-(c.reach : Int)), overdue := false,
                                 runEnd := .none }).place .lead none 0 g).createOpen 0

/-- A piece whose tail cut has not been struck (R80). -/
def Piece.unstruck (q : Piece) : Bool := decide (q.state = .planned) || decide (q.state = .committed)

/-- The pieces a run reset abandons: those in OPEN, PLANNED or COMMITTED (R80). -/
def Planner.abandonedCount (p : Planner) : Nat :=
  (p.pieces.filter Piece.unstruck).length + (if p.openPiece.isSome then 1 else 0)

/-- The Planner at run reset (R101). -/
def Planner.runReset (p : Planner) : Planner := { Planner.powerOn with numbersPast := p.numbersPast }

/-- Run reset of the Planner: one increment for each piece abandoned (R80, R101). -/
def State.plannerRunReset (s : State) : State :=
  State.sendIncrements { s with planner := s.planner.runReset } .planner
    (List.replicate s.planner.abandonedCount .abandoned)

end Sys2Proof.Machine
end

