-- ==== Sys2Proof/Machine/Strike.lean ====
section
/-! DEFINITION. The Strike Unit (chapter 6): the claim of the head cut, the strike track, the gate list and the levels of
SCORE, SNAP and GATE. -/

namespace Sys2Proof.Machine

/-! ## Output levels -/

/-- The levels of SCORE, SNAP and GATE set from the track and the gate list (R106, R110). -/
def Strike.setLevels (t : Strike) : Strike :=
  { t with score := t.score.set (scoreLevel t.track), snap := t.snap.set (snapLevel t.track),
           gate := t.gate.set (gateLevel t.gates) }

/-! ## Arrivals -/

/-- The arrival of the score end and the snap end of an entry at value v (R106, R111). -/
def TrackEntry.endAt (v : Nat) (e : TrackEntry) : TrackEntry :=
  { e with score := if e.scoreEnd = v then .done else e.score, snap := if e.snapEnd = v then .done else e.snap }

/-- The arrival of the snap start of an entry at value v (R106, R111). -/
def TrackEntry.startAt (v : Nat) (e : TrackEntry) : TrackEntry :=
  { e with snap := if e.snapStart = v ∧ e.snap = .waiting then .on else e.snap }

/-- An entry whose score and snap states are both DONE leaves the track (R106). -/
def TrackEntry.finished (e : TrackEntry) : Bool := decide (e.score = .done) && decide (e.snap = .done)

/-- The arrival of a gate window's start at value v (R110). -/
def GateWindow.startAt (v : Nat) (g : GateWindow) : GateWindow := if g.start = v then { g with arrived := true } else g

/-- The targets of one value, but for the strike target: ends, then starts, and then the levels (R111). -/
def Strike.arrive (t : Strike) (v : Nat) : Strike :=
  let track := (t.track.map fun e => (e.endAt v).startAt v).filter fun e => !e.finished
  let gates := (t.gates.filter fun g => decide (g.stop ≠ v)).map (GateWindow.startAt v)
  Strike.setLevels { t with track := track, gates := gates }

/-- The targets of a track entry not yet arrived (R105). -/
def TrackEntry.targets (e : TrackEntry) : List Nat :=
  (if e.score = .on then [e.scoreEnd] else []) ++ (if e.snap = .waiting then [e.snapStart] else []) ++
    (if e.snap = .done then [] else [e.snapEnd])

/-- The targets of a gate window not yet arrived (R110). -/
def GateWindow.targets (g : GateWindow) : List Nat := (if g.arrived then [] else [g.start]) ++ [g.stop]

/-- The strike target, when the claim state is IDLE (R103). -/
def Strike.strikeTarget (t : Strike) (dCut : Nat) : Option Nat :=
  match t.claiming with
  | some _ => none
  | none => t.offered.map (· + dCut)

/-- Every target the unit holds (R111). -/
def Strike.targets (t : Strike) (dCut : Nat) : List Nat :=
  t.track.flatMap TrackEntry.targets ++ t.gates.flatMap GateWindow.targets ++ (t.strikeTarget dCut).toList

/-- Values in increasing order. -/
def inOrder (vs : List Nat) : List Nat := sortBy (fun a b => decide (a < b)) vs

/-- The unit while it takes one event, with the claims it sends (R104). -/
structure StrikeStep where
  t      : Strike
  claims : List Nat
  deriving DecidableEq, Repr

/-- The strike target arrived: a claim goes to the Planner and the claim state becomes CLAIMING (R104). -/
def StrikeStep.claim (r : StrikeStep) (c : Nat) : StrikeStep :=
  { t := { r.t with claiming := some c }, claims := r.claims ++ [c] }

/-- The targets of one value of a rise, the strike target last (R111). -/
def StrikeStep.value (dCut : Nat) (r : StrikeStep) (v : Nat) : StrikeStep :=
  let r := { r with t := r.t.arrive v }
  match r.t.claiming, r.t.offered with
  | none, some c => if c + dCut = v then r.claim c else r
  | _, _ => r

/-- A rise from p0 to p1: the targets in (p0, p1] in increasing order of value (R111). -/
def Strike.rise (dCut : Nat) (m : Rise) (t : Strike) : StrikeStep :=
  let vs := inOrder ((t.targets dCut).filter fun v => decide (m.p0 < v) && decide (v ≤ m.p1))
  let r := vs.foldl (StrikeStep.value dCut) { t := t, claims := [] }
  { r with t := { r.t with lastPos := m.p1 } }

/-- The end of a unit event: its state, and its claims to the Planner. -/
def State.finishStrike (s : State) (r : StrikeStep) : State :=
  { s with strike := r.t, wires := { s.wires with claims := s.wires.claims ++ s.tagAll r.claims } }

/-- A rise of P taken by the Strike Unit; outside the counting window no rise reaches it (R111, R112). -/
def takeStrikeRise (m : Rise) (s : State) : State :=
  match s.cmd.shadow with
  | none => s
  | some sh => if s.cmd.runState.counting then s.finishStrike (s.strike.rise sh.dCut m) else s

/-- STRIKE_RISE (R111). -/
def execStrikeRise (s : State) : Host.Outcome State Fault Refusal :=
  .next (receive Wires.strikeRises (fun w r => { w with strikeRises := r }) takeStrikeRise s)

/-! ## Offers, withdrawals and grants -/

/-- The offered head taken up with the claim state IDLE: its target counts as arrived when it lies at or below the p1 of
the last rise taken (R103). -/
def StrikeStep.takeUp (dCut : Nat) (r : StrikeStep) : StrikeStep :=
  match r.t.claiming, r.t.offered with
  | none, some c => if c + dCut ≤ r.t.lastPos then r.claim c else r
  | _, _ => r

/-- An offer of the head of the queue (R103). -/
def Strike.offer (dCut : Nat) (c : Option Nat) (t : Strike) : StrikeStep :=
  StrikeStep.takeUp dCut { t := { t with offered := c }, claims := [] }

/-- The claim state IDLE again; the offered head then held is taken up if it is not the cut claimed (R104). -/
def Strike.endClaim (dCut : Nat) (t : Strike) : StrikeStep :=
  let r : StrikeStep := { t := { t with claiming := none }, claims := [] }
  if t.offered = t.claiming then r else r.takeUp dCut

/-- A withdrawal of the claim (R104). -/
def Strike.withdraw (dCut : Nat) (t : Strike) : StrikeStep :=
  match t.claiming with
  | none => { t := t, claims := [] }
  | some _ => Strike.endClaim dCut { t with withdrawn := bump t.withdrawn }

/-- An entry closed: a snap not yet given is given as a pulse (R107, R112). The pulse counts as one more assertion of SNAP also
while another entry holds SNAP asserted: DESIGN CHOICE (notes/assumptions/45). -/
def Strike.closeEntry (t : Strike) (e : TrackEntry) : Strike :=
  if e.snap = .waiting then { t with snap := t.snap.pulse } else t

/-- Room for a strike in the track: with 4 entries the oldest is closed (R105, R107). -/
def Strike.makeRoom (t : Strike) : Strike :=
  if Config.strikeTrackLimit ≤ t.track.length then
    match t.track with
    | [] => t
    | e :: rest => { t.closeEntry e with track := rest }
  else t

/-- The track entry of a strike at c (R105). -/
def strikeEntry (dCut : Nat) (g : StrikeGroup) (c : Nat) : TrackEntry :=
  { cut := c, strike := c + dCut, scoreEnd := c + dCut + g.wScore, snapStart := c + dCut + g.dSnap,
    snapEnd := c + dCut + g.dSnap + g.wSnap, score := .on, snap := .waiting }

/-- The strike at c: room, the new entry, SCORE asserted, and the targets at or below the p1 of the last rise arrived at
once (R105, R106). R107 sets the outputs after the closure and the new entry together; whether the new entry's targets that
have arrived at once are taken before that, the spec leaves open. They are taken after it, so that an overlapped SNAP released
for the oldest entry is asserted afresh by a snap start that has arrived: DESIGN CHOICE (notes/assumptions/43). -/
def Strike.strikeAt (dCut : Nat) (g : StrikeGroup) (c : Nat) (t : Strike) : Strike :=
  let t := t.makeRoom
  let e := strikeEntry dCut g c
  let t := Strike.setLevels { t with track := t.track ++ [e], strikes := bump t.strikes }
  (inOrder (e.targets.filter fun v => decide (v ≤ t.lastPos))).foldl Strike.arrive t

/-- Whether a strike now would overlap (R107). -/
def Strike.trackFull (t : Strike) : Bool := decide (Config.strikeTrackLimit ≤ t.track.length)

/-- The hand-off of a struck piece to grading (R108). -/
def handoffOf (g : StrikeGroup) (number : Nat) (kind : PieceKind) (head : Option Nat) (tail : Nat) : Handoff :=
  { number := number, kind := kind, head := head, tail := tail, dGate := g.dGate, mask := g.mask }

/-- A grant taken: the strike made under the STRIKE group at its effect point, the piece handed to grading, and the claim
ended (R102, R104, R105). -/
def takeGrant (number : Nat) (kind : PieceKind) (head : Option Nat) (tail : Nat) (sh : Shadow) (s : State) : State :=
  let s := { s with cmd := { s.cmd with strike := s.cmd.strike.activate } }
  match s.cmd.strike.inUse with
  | none => s
  | some g =>
    let incs := if s.strike.trackFull then [Increment.strikeOverlap] else []
    let h := handoffOf g number kind head tail
    let s := s.finishStrike ((s.strike.strikeAt sh.dCut g tail).endClaim sh.dCut)
    (s.wire fun w => { w with handoffs := w.handoffs ++ [s.tag h] }).sendIncrements .strike incs

/-- A message of the Planner taken by the Strike Unit (R103, R104). -/
def takeStrikeMsg (m : StrikeMsg) (s : State) : State :=
  match s.cmd.shadow, m with
  | none, _ => s
  | some sh, .offer c => s.finishStrike (s.strike.offer sh.dCut c)
  | some sh, .grant number kind head tail => takeGrant number kind head tail sh s
  | some sh, .withdrawal => s.finishStrike (s.strike.withdraw sh.dCut)

/-- Taking the Planner's oldest message when it is of one kind. -/
def takeStrikeIf (kind : StrikeMsg → Bool) (s : State) : State :=
  receiveIf kind Wires.plannerStrike (fun w r => { w with plannerStrike := r }) takeStrikeMsg s

/-- An offer. -/
def StrikeMsg.isOffer : StrikeMsg → Bool
  | .offer _ => true
  | .grant _ _ _ _ | .withdrawal => false

/-- A grant. -/
def StrikeMsg.isGrant : StrikeMsg → Bool
  | .grant _ _ _ _ => true
  | .offer _ | .withdrawal => false

/-- A withdrawal. -/
def StrikeMsg.isWithdrawal : StrikeMsg → Bool
  | .withdrawal => true
  | .offer _ | .grant _ _ _ _ => false

/-- HEAD_OFFER (R103). -/
def execHeadOffer (s : State) : Host.Outcome State Fault Refusal := .next (takeStrikeIf StrikeMsg.isOffer s)

/-- A grant of an ended run: discarded (R112), its piece, struck but never handed on, counted as abandoned (R80, R128;
notes/assumptions/15). -/
def staleGrant (_ : StrikeMsg) (s : State) : State := s.sendIncrements .grading [.abandoned]

/-- STRIKE_GRANT (R105). -/
def execStrikeGrant (s : State) : Host.Outcome State Fault Refusal :=
  .next (receiveWith StrikeMsg.isGrant Wires.plannerStrike (fun w r => { w with plannerStrike := r }) takeStrikeMsg
    staleGrant s)

/-- CLAIM_WITHDRAWAL (R104). -/
def execClaimWithdrawal (s : State) : Host.Outcome State Fault Refusal := .next (takeStrikeIf StrikeMsg.isWithdrawal s)

/-! ## Gate windows -/

/-- Whether a grade is in a gate mask; grade A never is (R102). -/
def GateMask.holds (m : GateMask) : Grade → Bool
  | .a => false | .b => m.b | .c => m.c | .u => m.u | .x => m.x

/-- The start of a piece's gate window; the LEAD window starts at its strike position (R109). -/
def gateStart (dCut : Nat) (a : GradeAnswer) : Nat :=
  match a.kind with
  | .lead => dCut
  | .size _ | .cullet | .manual | .overlength | .runEnd => a.head.getD 0 + dCut + a.dGate

/-- The end of a piece's gate window (R109). -/
def gateStop (dCut : Nat) (a : GradeAnswer) : Nat := a.tail + dCut + a.dGate

/-- A window that starts below its piece's strike position (R109). -/
def gateIsLate (dCut : Nat) (a : GradeAnswer) : Bool := decide (gateStart dCut a < a.tail + dCut)

/-- The newest window's end raised to a new window's (R110). -/
def joinNewest (stop : Nat) : List GateWindow → List GateWindow
  | [] => []
  | [g] => [{ g with stop := max g.stop stop }]
  | g :: rest => g :: joinNewest stop rest

/-- Whether a new window starts at or below the newest window's end (R110). -/
def joinsNewest (start : Nat) (gs : List GateWindow) : Bool :=
  match gs.getLast? with
  | none => false
  | some g => decide (start ≤ g.stop)

/-- A window entered in the gate list: joined, a new entry, or merged across the gap; then the level (R110). -/
def Strike.enterWindow (t : Strike) (w : GateWindow) : Strike :=
  let t :=
    if joinsNewest w.start t.gates then { t with gates := joinNewest w.stop t.gates }
    else if t.gates.length < Config.gateListLimit then { t with gates := t.gates ++ [w] }
    else { t with gates := joinNewest w.stop t.gates, merges := bump t.merges }
  t.setLevels

/-- A grade answer whose grade is in its mask: a window whose end has arrived is discarded, any other is entered (R109). -/
def Strike.answer (dCut : Nat) (a : GradeAnswer) (t : Strike) : Strike :=
  if gateStop dCut a ≤ t.lastPos then t
  else t.enterWindow
    { start := gateStart dCut a, stop := gateStop dCut a, arrived := decide (gateStart dCut a ≤ t.lastPos) }

/-- A grade answer taken by the Strike Unit: one GATE_LATE for a late window or one that has already ended; none after the
return to CONFIGURED (R109, R112). -/
def takeGradeAnswer (a : GradeAnswer) (s : State) : State :=
  match s.cmd.shadow with
  | none => s
  | some sh =>
    if s.cmd.runState.counting && a.mask.holds a.grade then
      let late := gateIsLate sh.dCut a || decide (gateStop sh.dCut a ≤ s.strike.lastPos)
      State.sendIncrements { s with strike := s.strike.answer sh.dCut a } .strike (if late then [.gateLate] else [])
    else s

/-- GRADE_ANSWER (R109). -/
def execGradeAnswer (s : State) : Host.Outcome State Fault Refusal :=
  .next (receive Wires.gradeAnswers (fun w r => { w with gradeAnswers := r }) takeGradeAnswer s)

/-! ## Return to CONFIGURED and reset -/

/-- The return to CONFIGURED: each snap not yet given is given as a pulse, the gate list is emptied and every output
released (R112). Each pulse counts as one assertion, also while an entry holds SNAP asserted: DESIGN CHOICE
(notes/assumptions/45). -/
def Strike.close (t : Strike) : Strike :=
  let t := t.track.foldl Strike.closeEntry t
  Strike.setLevels { t with track := [], gates := [], offered := none, claiming := none }

/-- The unit at run reset: outputs released without a pulse (R112, R114). -/
def Strike.runReset (t : Strike) : Strike :=
  { Strike.powerOn with
    score := { t.score with level := false }, snap := { t.snap with level := false },
    gate := { t.gate with level := false } }

end Sys2Proof.Machine
end

