-- ==== Sys2Proof/Machine/Grading.lean ====
section
/-! DEFINITION. The Grading Unit (chapter 7): the grading queue, the grade of a piece, its plate record, and the handing
on of records to the Plate Log. -/

namespace Sys2Proof.Machine

/-! ## The grading queue -/

/-- A hand-off joins the end of the grading queue (R116). -/
def takeHandoff (h : Handoff) (s : State) : State :=
  { s with grading := { s.grading with queue := s.grading.queue ++ [h] } }

/-- A hand-off of an ended run: discarded, and its piece counted as abandoned (R128). -/
def staleHandoff (_ : Handoff) (s : State) : State := s.sendIncrements .grading [.abandoned]

/-- GRADING_HANDOFF (R116). -/
def execGradingHandoff (s : State) : Host.Outcome State Fault Refusal :=
  .next (receiveWith (fun _ => true) Wires.handoffs (fun w r => { w with handoffs := r }) takeHandoff staleHandoff s)

/-- The IDLE unit begins its oldest hand-off: the GRADE group at its effect point, a gather sent, and GATHERING (R115,
R116). -/
def gradingBegin (s : State) : State :=
  match s.grading.state, s.grading.queue with
  | .idle, h :: rest =>
    let cmd := { s.cmd with grade := s.cmd.grade.activate }
    State.wire { s with
        cmd := cmd
        grading := { s.grading with queue := rest, state := .gathering h, group := cmd.grade.inUse } }
      fun w => { w with gathers := w.gathers ++ [s.tag { head := h.head, tail := h.tail }] }
  | _, _ => s

/-- GRADING_BEGIN (R116). -/
def execGradingBegin (s : State) : Host.Outcome State Fault Refusal := .next (live gradingBegin s)

/-! ## Counts, length and area -/

/-- Entries of a list of a severity. -/
def countSeverity (v : Severity) (fs : List FlawEntry) : Nat := (fs.filter fun f => decide (f.severity = v)).length

/-- Entries of a list of a class. -/
def countClass (c : FlawClass) (fs : List FlawEntry) : Nat := (fs.filter fun f => decide (f.cls = c)).length

/-- The flaw counts of a piece (R117). -/
def countsOf (fs : List FlawEntry) : FlawCounts :=
  { minor := countSeverity .minor fs, major := countSeverity .major fs, reject := countSeverity .reject fs,
    point := countClass .point fs, streak := countClass .streak fs, band := countClass .band fs,
    area := countClass .area fs, late := (fs.filter (·.late)).length, unplanned := (fs.filter (·.unplanned)).length,
    total := fs.length }

/-- The µm between a piece's head and tail; 0 for LEAD, which has no head (R118). -/
def Handoff.extent (h : Handoff) : Nat :=
  match h.head with
  | none => 0
  | some x => h.tail - x

/-- The length of a piece in mm (R118). -/
def Handoff.length (h : Handoff) : Nat := h.extent / 1000

/-- The area of a piece in dm² over the net width, saturating at 2^32 − 1 (R118). -/
def Handoff.area (h : Handoff) (netLo netHi : Nat) : Nat := min max32 (h.extent * (netHi - netLo) / 10000000000)

/-! ## The grade -/

/-- Kinds graded X by kind alone (R119). -/
def PieceKind.gradedX : PieceKind → Bool
  | .lead | .cullet | .overlength | .runEnd => true
  | .size _ | .manual => false

/-- A MINOR count that exceeds a density limit per 1,000 dm² (R119). -/
def denser (minor limit area : Nat) : Bool := decide (limit * area < minor * 1000)

/-- The grade by the grade order (R119). -/
def orderGrade (g : GradeGroup) (k : PieceKind) (n : FlawCounts) (area overlap : Nat) (overflow : Bool) : Grade :=
  if k.gradedX then .x
  else if decide (0 < overlap) || overflow then .u
  else if 0 < n.reject then .c
  else if decide (g.majorMaxB < n.major) || denser n.minor g.dB area then .c
  else if decide (g.majorMaxA < n.major) || denser n.minor g.dA area then .b
  else .a

/-- The cap of a class, as its code (R115). -/
def GradeGroup.cap (g : GradeGroup) : FlawClass → Nat
  | .point => g.capPoint | .streak => g.capStreak | .band => g.capBand | .area => g.capArea

/-- The grade of a code among A, B and C (R120). -/
def gradeOfCode : Nat → Grade
  | 0 => .a
  | 1 => .b
  | _ => .c

/-- A grade on which caps act, as its code (R120). -/
def Grade.capCode : Grade → Option Nat
  | .a => some 0
  | .b => some 1
  | .c => some 2
  | .u | .x => none

/-- The cap of a class applies when the piece holds a MAJOR or REJECT flaw of it (R120). -/
def capApplies (fs : List FlawEntry) (c : FlawClass) : Bool :=
  fs.any fun f => decide (f.cls = c) && decide (f.severity ≠ .minor)

/-- The classes in the order of the caps. -/
def allClasses : List FlawClass := [.point, .streak, .band, .area]

/-- The grade after the class caps: the worst of the order's grade and every cap that applies (R120). -/
def cappedGrade (g : GradeGroup) (fs : List FlawEntry) (order : Grade) : Grade :=
  match order.capCode with
  | none => order
  | some n => gradeOfCode ((allClasses.filter (capApplies fs)).foldl (fun m c => max m (g.cap c)) n)

/-- A class's cap recorded as a reason: it applies and lies below the order's grade (R120). -/
def capReason (g : GradeGroup) (fs : List FlawEntry) (order : Grade) (c : FlawClass) : Bool :=
  match order.capCode with
  | none => false
  | some n => capApplies fs c && decide (n < g.cap c)

/-- The reasons for a grade (R120). -/
def reasonsOf (g : GradeGroup) (k : PieceKind) (n : FlawCounts) (fs : List FlawEntry) (area overlap : Nat) (overflow : Bool)
    (order : Grade) : Reasons :=
  { kind := k.gradedX, gap := decide (0 < overlap), overflow := overflow, reject := decide (0 < n.reject),
    majorB := decide (g.majorMaxB < n.major), densityB := denser n.minor g.dB area,
    majorA := decide (g.majorMaxA < n.major), densityA := denser n.minor g.dA area,
    capPoint := capReason g fs order .point, capStreak := capReason g fs order .streak,
    capBand := capReason g fs order .band, capArea := capReason g fs order .area }

/-- The top-flaw list: up to 16 numbers, by severity and then in table order (R122). -/
def topFlaws (fs : List FlawEntry) : List Nat :=
  ((sortBy (fun e f : FlawEntry => decide (f.severity.code ≤ e.severity.code)) fs).take Config.topFlawLimit).map (·.number)

/-! ## The gather's answer and the stamp -/

/-- The plate record of a piece before its stamp (R118 to R122). -/
def plateRecordOf (run : Word16) (netLo netHi : Nat) (g : GradeGroup) (h : Handoff) (a : GatherAnswer) : PlateRecord :=
  let n := countsOf a.entries
  let area := h.area netLo netHi
  let order := orderGrade g h.kind n area a.overlap a.overflow
  let grade := cappedGrade g a.entries order
  { run := run, number := h.number, kind := h.kind, grade := grade,
    reasons := reasonsOf g h.kind n a.entries area a.overlap a.overflow order, head := h.head, tail := h.tail,
    length := h.length, area := area, counts := n, top := topFlaws a.entries, overlap := a.overlap,
    overflow := a.overflow, diverted := h.mask.holds grade, stamp := none }

/-- The grade answer of a graded piece (R108, R123). -/
def gradeAnswerOf (h : Handoff) (r : PlateRecord) : GradeAnswer :=
  { number := h.number, kind := h.kind, head := h.head, tail := h.tail, grade := r.grade, dGate := h.dGate,
    mask := h.mask }

/-- The tally increments of a graded piece (R124). -/
def gradingIncrementOf (r : PlateRecord) : GradingIncrement :=
  { grade := r.grade, length := r.length, cullet := decide (r.kind = .cullet) }

/-- The gather's answer taken in GATHERING (R117, R123). -/
def takeGatherAnswer (a : GatherAnswer) (s : State) : State :=
  match s.grading.state, s.grading.group, s.cmd.shadow with
  | .gathering h, some g, some sh =>
    let r := plateRecordOf s.cmd.run sh.netLo sh.netHi g h a
    State.wire { s with grading := { s.grading with state := .stamping r } } fun w =>
      { w with
        gradeAnswers := w.gradeAnswers ++ [s.tag (gradeAnswerOf h r)]
        gradingIncs := w.gradingIncs ++ [s.tag (gradingIncrementOf r)] }
  | _, _, _ => s

/-- GATHER_ANSWER (R123). -/
def execGatherAnswer (s : State) : Host.Outcome State Fault Refusal :=
  .next (receive Wires.gatherAnswers (fun w r => { w with gatherAnswers := r }) takeGatherAnswer s)

/-- A request to the Cut Planner (R125). -/
def State.askPlanner (s : State) (m : PieceReq) : State :=
  s.wire fun w => { w with pieceReqs := w.pieceReqs ++ [s.tag m] }

/-- The oldest record offered when the list is not empty, no offer is outstanding and the log-full mark is clear (R125). -/
def State.offerPlate (s : State) : State :=
  match s.grading.outbound with
  | [] => s
  | o :: _ =>
    if s.grading.outstanding || s.grading.logFull then s
    else State.wire { s with grading := { s.grading with outstanding := true } } fun w =>
      { w with plateOffers := w.plateOffers ++ [s.tag o.record] }

/-- A stamped piece joins the outbound list; with the log-full mark set it goes to WAITING_LOG at once (R125). -/
def State.joinOutbound (s : State) (r : PlateRecord) : State :=
  let g := s.grading
  if g.logFull then
    State.askPlanner { s with grading := { g with
      outbound := g.outbound ++ [{ record := r, waiting := true }], held := g.held + 1 } } (.waitingLog r.number)
  else State.offerPlate { s with grading := { g with outbound := g.outbound ++ [{ record := r, waiting := false }] } }

/-- The stamp taken in STAMPING: the record completed, the piece on the outbound list, and IDLE (R123). -/
def takeStamp (t : ShiftStamp) (s : State) : State :=
  match s.grading.state with
  | .stamping r =>
    State.joinOutbound { s with grading := { s.grading with state := .idle, graded := bump s.grading.graded } }
      { r with stamp := some t }
  | .idle | .gathering _ => s

/-- STAMP (R123). -/
def execStamp (s : State) : Host.Outcome State Fault Refusal :=
  .next (receive Wires.stamps (fun w r => { w with stamps := r }) takeStamp s)

/-! ## Handing records on -/

/-- ACCEPTED: the oldest piece leaves the list and the table, and the next record is offered (R125). -/
def plateAccepted (s : State) : State :=
  match s.grading.outbound with
  | [] => s
  | o :: rest =>
    State.offerPlate (State.askPlanner { s with grading := { s.grading with
      outbound := rest, outstanding := false, held := if o.waiting then s.grading.held - 1 else s.grading.held } }
      (.removal o.record.number))

/-- The pieces of the list not yet in WAITING_LOG. -/
def Grading.notWaiting (g : Grading) : List Outbound := g.outbound.filter fun o => !o.waiting

/-- FULL: the log-full mark is set, and every piece on the list moves to WAITING_LOG (R125). -/
def plateFull (s : State) : State :=
  let g := s.grading
  g.notWaiting.foldl (fun s o => s.askPlanner (.waitingLog o.record.number)) { s with grading := { g with
    outstanding := false, logFull := true, held := g.held + g.notWaiting.length,
    outbound := g.outbound.map fun o => { o with waiting := true } } }

/-- A room event: the mark is cleared and the oldest record offered; with the mark clear nothing changes (R126). -/
def plateRoom (s : State) : State :=
  if s.grading.logFull then State.offerPlate { s with grading := { s.grading with logFull := false } } else s

/-- An answer or room event of the Record Writer taken by the Grading Unit (R125, R126). -/
def takePlateAnswer (a : LogAnswer) (s : State) : State :=
  match a with
  | .accepted => plateAccepted s
  | .full => plateFull s
  | .room => plateRoom s

/-- Taking the Record Writer's oldest answer when it is the one named. -/
def takePlateIf (a : LogAnswer) (s : State) : State :=
  receiveIf (fun b => decide (b = a)) Wires.plateAnswers (fun w r => { w with plateAnswers := r }) takePlateAnswer s

/-- PLATE_ACCEPTED (R125). -/
def execPlateAccepted (s : State) : Host.Outcome State Fault Refusal := .next (takePlateIf .accepted s)

/-- PLATE_FULL (R125). -/
def execPlateFull (s : State) : Host.Outcome State Fault Refusal := .next (takePlateIf .full s)

/-- PLATE_ROOM (R126). -/
def execPlateRoom (s : State) : Host.Outcome State Fault Refusal := .next (takePlateIf .room s)

/-! ## Run reset -/

/-- The pieces a run reset abandons in the unit: the hand-offs queued, and a piece in GATHERING (R128). -/
def Grading.abandonedCount (g : Grading) : Nat :=
  g.queue.length + (match g.state with | .gathering _ => 1 | .idle | .stamping _ => 0)

/-- The unit at run reset: the GRADE group kept, everything else as at power-on (R128). -/
def Grading.runReset (g : Grading) : Grading := { Grading.powerOn with group := g.group }

/-- Run reset of the Grading Unit: one increment for each piece abandoned (R128). -/
def State.gradingRunReset (s : State) : State :=
  State.sendIncrements { s with grading := s.grading.runReset } .grading
    (List.replicate s.grading.abandonedCount .abandoned)

end Sys2Proof.Machine
end

