-- ==== Sys2Proof/Machine/Shift.lean ====
section
/-! DEFINITION. The Shift Unit (chapter 8): the time base, the calendar, shift boundaries, the tally and its reports, and
the run number. -/

namespace Sys2Proof.Machine

/-! ## Tallies and boundaries -/

/-- The Shift Unit's state changed. -/
def State.setShift (s : State) (t : Shift) : State := { s with shift := t }

/-- The runs seen by a tally at its opening: the run in progress, if one is (R138). -/
def Shift.runsAtOpening (t : Shift) : Option RunsSeen :=
  if t.runState.counting then some { first := t.run, last := t.run } else none

/-- A new tally: every counter at 0, the shift number held, the calendar as it stands (R135, R142). -/
def Shift.openTally (t : Shift) (slot : OpeningSlot) : Shift :=
  { t with tally :=
      { shift := t.number, start := t.calendar, slot := slot, clockSet := false, clockUnset := !t.valid, merged := 0,
        runs := t.runsAtOpening, counters := TallyCounters.zero } }

/-- The report a boundary freezes (R139). -/
def Shift.report (t : Shift) : ShiftReport := { tally := t.tally, fin := t.calendar }

/-- A report offered to the Record Writer (R140). -/
def State.offerShift (s : State) (r : ShiftReport) : State :=
  State.wire { s with shift := { s.shift with hold := .offered r } } fun w => { w with shiftOffers := w.shiftOffers ++ [r] }

/-- A boundary: with the hold slot EMPTY the tally is frozen, offered, and a new one opened; otherwise it merges (R135). -/
def State.boundary (s : State) (slot : OpeningSlot) : State :=
  match s.shift.hold with
  | .empty =>
    let s := s.offerShift s.shift.report
    s.setShift (Shift.openTally { s.shift with number := s.shift.number + 1 } slot)
  | .offered _ | .held _ =>
    s.setShift { s.shift with tally := { s.shift.tally with merged := satAdd 65535 s.shift.tally.merged 1 } }

/-- An entry that matches the calendar (R133). -/
def ShiftStart.hits (e : ShiftStart) (c : Calendar) : Bool :=
  decide (e.hour = c.hour) && decide (e.minute = c.minute) && e.days.toList.getD c.weekday false

/-- The place of the first entry that matches, from place i on (R133). -/
def matchFrom (c : Calendar) : Nat → List ShiftStart → Option Nat
  | _, [] => none
  | i, e :: rest => if e.hits c then some i else matchFrom c (i + 1) rest

/-- The entry a second tick meets: second 0, with the clock valid and the table present (R133). -/
def Shift.clockBoundary (t : Shift) : Option Nat :=
  match t.table with
  | none => none
  | some es => if t.valid && decide (t.calendar.second = 0) then matchFrom t.calendar 0 es else none

/-- A boundary by the clock, if the calendar gives one (R133). -/
def State.testBoundary (s : State) : State :=
  match s.shift.clockBoundary with
  | none => s
  | some i => s.boundary (.entry (Fin.ofNat 4 i))

/-! ## The time base -/

/-- The length of the current second in TB32K periods: the first second of a minute is the trimmed one (R130). -/
def Shift.secondLength (t : Shift) : Nat := if t.calendar.second = 0 then (32768 + t.trim).toNat else 32768

/-- Whether the next TB32K period ends the current second (R130). -/
def Shift.secondDue (t : Shift) : Bool := decide (t.secondLength ≤ t.sub + 1)

/-- The end of a second: the counter restarts and the calendar advances; outside reset a boundary is tested and the second
ticks are delivered (R130, R142). -/
def secondEnd (s : State) : State :=
  let s := s.setShift { s.shift with sub := 0, calendar := s.shift.calendar.advance }
  if s.inReset then s
  else s.testBoundary.wire fun w => { w with travelTicks := w.travelTicks + 1, writerTicks := w.writerTicks + 1 }

/-- The Travel Unit's divider at a TB32K period: one unit tick for every 32, none taken in reset (R11). -/
def dividePeriod (s : State) : State :=
  if s.travel.divider + 1 < 32 then { s with travel := { s.travel with divider := s.travel.divider + 1 } }
  else
    let s := { s with travel := { s.travel with divider := 0 } }
    if s.inReset then s else s.wire fun w => { w with unitTicks := w.unitTicks + 1 }

/-- One TB32K period (R130, R11). -/
def period (s : State) : State :=
  let s := dividePeriod s
  if s.shift.secondDue then secondEnd s else s.setShift { s.shift with sub := s.shift.sub + 1 }

/-- TB32K_PERIOD (R130). -/
def execTb32kPeriod (s : State) : Host.Outcome State Fault Refusal := .next (period s)

/-- SECOND_END: the TB32K period that ends the current second; with no such period due there is no event (R130,
notes/assumptions/6). -/
def execSecondEnd (s : State) : Host.Outcome State Fault Refusal :=
  .next (if s.shift.secondDue then period s else s)

/-! ## Tally increments -/

/-- A count of a vector raised by one. -/
def countIn {n : Nat} (v : Vector Nat n) (i : Fin n) : Vector Nat n := upd v i bump

/-- One increment added to the counters, each saturating (R136). -/
def TallyCounters.add (c : TallyCounters) (pitch : Nat) : Increment → TallyCounters
  | .stop => { c with stops := bump c.stops }
  | .stopSecond => { c with stopSeconds := bump c.stopSeconds }
  | .gapLine g =>
    { c with gapLines := bump c.gapLines, gapCauses := countIn c.gapCauses g.idx,
             gapLength := satAdd max48 c.gapLength pitch }
  | .flaw k v o =>
    { c with flaws := countIn c.flaws (flawIdx k v), orphan := if o then bump c.orphan else c.orphan }
  | .edgeFlaw => { c with edge := bump c.edge }
  | .lateFlaw => { c with late := bump c.late }
  | .unplannedFlaw => { c with unplanned := bump c.unplanned }
  | .queueFull => { c with queueFull := bump c.queueFull }
  | .abandoned => { c with abandoned := bump c.abandoned }
  | .flawLost => { c with flawLost := bump c.flawLost }
  | .gateLate => { c with gateLate := bump c.gateLate }
  | .strikeOverlap => { c with overlaps := bump c.overlaps }
  | .refusedAccess => { c with refused := bump c.refused }

/-- The increments of one grading added to the counters, each saturating (R124, R136). -/
def TallyCounters.addGrading (c : TallyCounters) (g : GradingIncrement) : TallyCounters :=
  { c with
    pieces := countIn c.pieces g.grade.idx
    lengths := upd c.lengths g.grade.idx fun n => satAdd max48 n g.length
    cullet := if g.cullet then satAdd max48 c.cullet g.length else c.cullet }

/-- The counters of the open tally changed. -/
def State.tallyAdd (s : State) (f : TallyCounters → TallyCounters) : State :=
  s.setShift { s.shift with tally := { s.shift.tally with counters := f s.shift.tally.counters } }

/-- The line pitch in the shadow, which a gap line's increment adds (R136). -/
def State.shadowPitch (s : State) : Nat :=
  match s.cmd.shadow with
  | none => 0
  | some sh => sh.travel.pitch

/-- TALLY_INCREMENT: the oldest increment of one block, added to the open tally (R136). -/
def execTallyIncrement (b : Sender) (s : State) : Host.Outcome State Fault Refusal :=
  .next (live (fun s =>
    match takeFirst (fun m => decide (m.1 = b)) s.wires.increments with
    | none => s
    | some (m, rest) =>
      (s.wire fun w => { w with increments := rest }).tallyAdd fun c => c.add s.shadowPitch m.2) s)

/-- The Shift Unit's stamp: the open tally's shift number, the calendar and the clock-valid flag (R137). -/
def Shift.stamp (t : Shift) : ShiftStamp := { shift := t.tally.shift, time := t.calendar, valid := t.valid }

/-- The increments of one grading taken whole, whatever run they belong to, and answered with a stamp that belongs to the
same run (R137, R128). -/
def takeGradingIncrement (m : Tagged GradingIncrement) (s : State) : State :=
  (s.tallyAdd fun c => c.addGrading m.msg).wire fun w =>
    { w with stamps := w.stamps ++ [{ epoch := m.epoch, msg := s.shift.stamp }] }

/-- GRADING_INCREMENTS (R137). -/
def execGradingIncrements (s : State) : Host.Outcome State Fault Refusal :=
  .next (receivePlain Wires.gradingIncs (fun w r => { w with gradingIncs := r }) takeGradingIncrement s)

/-! ## The hold slot -/

/-- An answer or room event of the Record Writer taken by the Shift Unit (R140). -/
def takeShiftAnswer (a : LogAnswer) (s : State) : State :=
  match a, s.shift.hold with
  | .accepted, .offered _ => s.setShift { s.shift with hold := .empty }
  | .full, .offered r => s.setShift { s.shift with hold := .held r }
  | .room, .held r => s.offerShift r
  | _, _ => s

/-- Taking the Record Writer's oldest answer when it is the one named. -/
def takeShiftIf (a : LogAnswer) (s : State) : State :=
  receivePlainIf (fun b => decide (b = a)) Wires.shiftAnswers (fun w r => { w with shiftAnswers := r }) takeShiftAnswer s

/-- SHIFT_ACCEPTED (R140). -/
def execShiftAccepted (s : State) : Host.Outcome State Fault Refusal := .next (takeShiftIf .accepted s)

/-- SHIFT_FULL (R140). -/
def execShiftFull (s : State) : Host.Outcome State Fault Refusal := .next (takeShiftIf .full s)

/-- SHIFT_ROOM (R140). -/
def execShiftRoom (s : State) : Host.Outcome State Fault Refusal := .next (takeShiftIf .room s)

/-! ## What the Command Unit asks -/

/-- SET_CLOCK in the Shift Unit: refused with BAD_TIME and nothing changed, or the calendar set, the counter at 0, the
flag set and the tally flagged (R132). -/
def Shift.setClock (t : Shift) (c : Calendar) : Option Reason × Shift :=
  if c.valid then (none, { t with calendar := c, sub := 0, valid := true, tally := { t.tally with clockSet := true } })
  else (some .badTime, t)

/-- The CLOCK group active at once: its trim, and its entries as the shift start table (R131). -/
def Shift.takeClock (t : Shift) (g : ClockGroup) : Shift :=
  { t with trim := g.trim, table := some (g.entries.toList.take g.count) }

/-- A new run number, recorded as the newest run seen by the tally (R138). -/
def Shift.newRun (t : Shift) : Shift :=
  let n := t.run + 1
  let runs : RunsSeen := match t.tally.runs with
    | none => { first := n, last := n }
    | some r => { r with last := n }
  { t with run := n, tally := { t.tally with runs := some runs } }

/-! ## Reset -/

/-- The Shift Unit at warm reset: the clock, the trim and the numbers are kept; the table is absent and a held report
discarded (R142). -/
def Shift.warmReset (t : Shift) : Shift := { t with table := none, runState := .transparent, hold := .empty }

end Sys2Proof.Machine
end

