-- ==== Sys2Proof/Machine/Path.lean ====
section
/-! DEFINITION. The Path Unit (chapter 9): taking and checking C-port requests, verdicts, views and held reads, and the
M-port with its two queues. -/

namespace Sys2Proof.Machine

/-! ## Checking a request -/

/-- What the check of a request comes to: how its entry is marked, or the fault it is refused with (R148). -/
inductive Check where
  | pass (m : Mark)
  | refuse (f : FaultKind)
  deriving DecidableEq, Repr

/-- A check that passes with a right and is refused with REGION without it (R148). -/
def Check.withRight (right : Bool) (m : Mark) : Check := if right then .pass m else .refuse .region

/-- The address a translated view read goes to: the log's ring base plus the offset in its window (R154). -/
def translation (m : RegionMap) (a : Nat) : Option (LogId × Nat × Nat) :=
  match windowAt m (a - m.views.base) with
  | none => none
  | some (l, _, o) => some (l, o, m.logs[l.idx].1 + o)

/-- A read of a view window (R148, R154). -/
def Path.checkView (p : Path) (q : Request) : Check :=
  if (p.entry q.source).rights.viewRead then
    match p.map with
    | none => .pass .forwarded
    | some m =>
      match translation m q.addr.toNat with
      | none => .pass .forwarded
      | some (_, _, t) => .pass (.translated t)
  else .refuse .viewRight

/-- The check of a read by its class (R148). -/
def Path.checkRead (p : Path) (q : Request) : Region → Check
  | .plain | .landing _ | .anchorConfig | .anchorCommand | .anchorOwned | .log => .pass .forwarded
  | .view _ _ => p.checkView q
  | .viewSpare => if (p.entry q.source).rights.viewRead then .pass .localZeros else .refuse .viewRight

/-- Whether a write's enabled bytes include one of a fixed configuration field (R150). -/
def Path.touchesFixed (p : Path) (q : Request) : Bool := q.enabledBytes.any fun a => isFixedByte (a - p.anchorBase)

/-- A write to the configuration area by a source with CONFIG_WRITE (R150, R151). -/
def Path.checkConfig (p : Path) (q : Request) : Check :=
  if p.runState.counting && p.touchesFixed q then .refuse .lockedField
  else if (seqGroup p.anchorBase q).isSome then .pass .awaiting
  else .pass .forwarded

/-- Whether a write's enabled bytes include one of the post word (R151). -/
def Path.touchesPost (p : Path) (q : Request) : Bool := q.touches (p.anchorBase + postAt) 4

/-- The check of a write by its class (R148, R150, R151). -/
def Path.checkWrite (p : Path) (q : Request) : Region → Check
  | .plain => .withRight (p.entry q.source).rights.plainWrite .forwarded
  | .landing k =>
    let e := p.entry q.source
    .withRight ((e.rights.landingOwn && decide (e.role = .camera k)) || e.rights.landingAny) .forwarded
  | .anchorConfig => if (p.entry q.source).rights.configWrite then p.checkConfig q else .refuse .region
  | .anchorCommand =>
    .withRight (p.entry q.source).rights.commandWrite (if p.touchesPost q then .awaiting else .forwarded)
  | .anchorOwned | .log => .refuse .region
  | .view _ _ | .viewSpare => .refuse .viewWrite

/-- The check of a request: one that spans two classes is refused with REGION (R145, R148). -/
def Path.check (p : Path) (kind : ReqKind) (q : Request) : Check :=
  if p.spansTwo q then .refuse .region
  else match kind with
    | .read => p.checkRead q (p.region q.addr.toNat)
    | .write => p.checkWrite q (p.region q.addr.toNat)

/-! ## Held reads -/

/-- The offset of a view read in its window (R154). -/
def Path.viewOffset (p : Path) (q : Request) : Nat :=
  match p.map with
  | none => 0
  | some m => match translation m q.addr.toNat with
    | none => 0
    | some (_, o, _) => o

/-- Whether a read of n bytes at offset o of the Fault Log's window meets the entry at a ring position (R156). -/
def meetsEntry (o n position : Nat) : Bool :=
  decide (position * LogId.fault.entrySize < o + n) && decide (o < (position + 1) * LogId.fault.entrySize)

/-- A translated view read of the Fault Log that meets an entry of the pending-rewrite list (R156). -/
def PassEntry.meets (e : PassEntry) (rs : List PendingRewrite) : Bool :=
  match e.mark, e.region with
  | .translated _, .view .fault _ => rs.any fun r => meetsEntry e.viewAt e.req.span r.position
  | _, _ => false

/-- The pass-through queue with reads newly held, each raising the held-read counter (R156, R158). -/
def Path.hold (p : Path) : Path :=
  { p with
    queue := p.queue.map fun e => if e.meets p.rewrites then { e with held := true } else e
    heldReads := satAdd max32 p.heldReads (p.queue.filter fun e => !e.held && e.meets p.rewrites).length }

/-- The pass-through queue after a rewrite has left: a read that meets none is no longer held (R156). -/
def Path.unhold (p : Path) : Path :=
  { p with queue := p.queue.map fun e => { e with held := e.held && e.meets p.rewrites } }

/-! ## Responses -/

/-- The responses that may return: each source's in C-port order, up to its first request not yet answered (R144). -/
def returnable : List SourceId → List ResponseSlot → List Response × List ResponseSlot
  | _, [] => ([], [])
  | blocked, x :: rest =>
    if blocked.contains x.source then
      let r := returnable blocked rest
      (r.1, x :: r.2)
    else match x.response with
      | some a =>
        let r := returnable blocked rest
        (a :: r.1, r.2)
      | none =>
        let r := returnable (x.source :: blocked) rest
        (r.1, x :: r.2)

/-- Responses returned at the C-port (R144). -/
def Path.respond (p : Path) : Path :=
  let r := returnable [] p.slots
  { p with slots := r.2, returned := p.returned ++ r.1 }

/-- The response to one request filled in (R144). -/
def Path.answer (p : Path) (id : Nat) (done : Bool) (data : List Byte) : Path :=
  { p with slots := p.slots.map fun x =>
      if x.id = id then { x with response := some { source := x.source, done := done, data := data } } else x }

/-- The data of a response that does not come from memory: zeros for a read (R143, R149). -/
def PassEntry.zeroData (e : PassEntry) : List Byte :=
  match e.kind with
  | .read => zeros e.req.span
  | .write => []

/-- Whether an entry is refused or answered locally (R144). -/
def PassEntry.isLocal (e : PassEntry) : Bool :=
  match e.mark with
  | .refused | .localZeros => true
  | .awaiting | .forwarded | .translated _ => false

/-- The refused and locally answered entries that are ready: those with no older entry of their source that stays (R144).
The first list is what leaves, the second what stays. -/
def localLeavers : List SourceId → List PassEntry → List PassEntry × List PassEntry
  | _, [] => ([], [])
  | waiting, e :: rest =>
    if e.isLocal && !waiting.contains e.req.source then
      let r := localLeavers waiting rest
      (e :: r.1, r.2)
    else
      let r := localLeavers (e.req.source :: waiting) rest
      (r.1, e :: r.2)

/-- Every ready refused or locally answered entry leaves the queue with its response (R144). -/
def Path.settle (p : Path) : Path :=
  let r := localLeavers [] p.queue
  Path.respond (r.1.foldl (fun p e => p.answer e.id (decide (e.mark = .localZeros)) e.zeroData) { p with queue := r.2 })

/-! ## Taking a request -/

/-- The kind of a request as fault details code it (R174). -/
def ReqKind.code : ReqKind → Nat
  | .read => 0
  | .write => 1

/-- The fault of a refused request: the request's kind and length in detail A, its address in detail B (R149, R174). -/
def refusalFault (f : FaultKind) (kind : ReqKind) (q : Request) : FaultMsg :=
  { source := q.source, kind := f, detailA := BitVec.ofNat 16 (kind.code + 256 * q.beats),
    detailB := BitVec.ofNat 64 q.addr.toNat }

/-- What a refusal does: the fault, the tally increment and the refused counter (R149). -/
def State.refuse (s : State) (f : FaultKind) (kind : ReqKind) (q : Request) : State :=
  let s := { s with
    path := { s.path with refused := bump s.path.refused }
    wires := { s.wires with faults := s.wires.faults ++ [(FaultSender.path, refusalFault f kind q)] } }
  s.sendIncrements .path [.refusedAccess]

/-- An entry placed at the end of the pass-through queue, with the place of its response (R143, R144). -/
def Path.enqueue (p : Path) (kind : ReqKind) (q : Request) (m : Mark) : Path :=
  let e : PassEntry :=
    { id := p.nextId, kind := kind, req := q, region := p.region q.addr.toNat, mark := m,
      viewAt := p.viewOffset q, held := false }
  Path.hold { p with
    queue := p.queue ++ [e], slots := p.slots ++ [{ id := p.nextId, source := q.source, response := none }],
    nextId := p.nextId + 1 }

/-- A verdict request sent for an entry that awaits one (R151). -/
def verdictAsksFor (m : Mark) (id : Nat) (q : Request) : List VerdictRequest :=
  match m with
  | .awaiting => [{ id := id, req := q }]
  | .forwarded | .translated _ | .localZeros | .refused => []

/-- A request taken: classified, checked, and placed in the pass-through queue (R143). -/
def State.takeOne (s : State) (kind : ReqKind) (q : Request) : State :=
  match s.path.check kind q with
  | .pass m =>
    { s with
      path := (s.path.enqueue kind q m).settle
      wires := { s.wires with verdictAsks := s.wires.verdictAsks ++ verdictAsksFor m s.path.nextId q } }
  | .refuse f =>
    let s := { s with path := s.path.enqueue kind q .refused }
    let s := s.refuse f kind q
    { s with path := s.path.settle }

/-- The requests held off, taken in the order they arrived while the queue has room (R143). -/
def takeHeldOff : List HeldOff → State → State
  | [], s => { s with path := { s.path with heldOff := [] } }
  | h :: rest, s =>
    if s.path.queue.length < Config.passQueueLimit then takeHeldOff rest (s.takeOne h.kind h.req)
    else { s with path := { s.path with heldOff := h :: rest } }

/-- The room an entry has left in the pass-through queue taken up (R143). -/
def State.takeHeld (s : State) : State := takeHeldOff s.path.heldOff s

/-- A request at the C-port: held off while the queue is full, and in reset (R143, R159). -/
def State.request (s : State) (kind : ReqKind) (q : Request) : State :=
  if s.inReset || decide (Config.passQueueLimit ≤ s.path.queue.length) then
    { s with path := { s.path with heldOff := s.path.heldOff ++ [{ kind := kind, req := q }] } }
  else s.takeOne kind q

/-- A read that has R143's forms, at the C-port; any other is not presented (R143). -/
def readRequest (q : Request) (s : State) : State := if q.readFormed then s.request .read q else s

/-- A write that has R143's forms, at the C-port; any other is not presented (R143). -/
def writeRequest (q : Request) (s : State) : State := if q.writeFormed then s.request .write q else s

/-- BUS_READ (R143). -/
def execBusRead (q : Request) (s : State) : Host.Outcome State Fault Refusal := .next (readRequest q s)

/-- BUS_WRITE (R148). -/
def execBusWrite (q : Request) (s : State) : Host.Outcome State Fault Refusal := .next (writeRequest q s)

/-- A write to ANCHOR_COMMAND that touches the post word (R151). -/
def Path.isPostWrite (p : Path) (q : Request) : Bool :=
  decide (p.region q.addr.toNat = .anchorCommand) && p.touchesPost q

/-- A write to ANCHOR_CONFIG that touches a live group's sequence word (R151). -/
def Path.isSeqWrite (p : Path) (q : Request) : Bool :=
  decide (p.region q.addr.toNat = .anchorConfig) && (seqGroup p.anchorBase q).isSome

/-- A request in a window of a kind (R154). -/
def Path.isViewRead (p : Path) (v : ViewKind) (q : Request) : Bool :=
  match p.region q.addr.toNat with
  | .view _ w => decide (w = v)
  | _ => false

/-- POST_WORD_WRITE: a write that touches the post word (R151). -/
def execPostWordWrite (q : Request) (s : State) : Host.Outcome State Fault Refusal :=
  .next (if s.path.isPostWrite q then writeRequest q s else s)

/-- SEQUENCE_WORD_WRITE: a write that touches a live group's sequence word (R166). -/
def execSequenceWordWrite (q : Request) (s : State) : Host.Outcome State Fault Refusal :=
  .next (if s.path.isSeqWrite q then writeRequest q s else s)

/-- TAKE_VIEW_READ: a read whose first byte lies in a take window (R155). -/
def execTakeViewRead (q : Request) (s : State) : Host.Outcome State Fault Refusal :=
  .next (if s.path.isViewRead .take q then readRequest q s else s)

/-- PEEK_VIEW_READ: a read whose first byte lies in a peek window (R154). -/
def execPeekViewRead (q : Request) (s : State) : Host.Outcome State Fault Refusal :=
  .next (if s.path.isViewRead .peek q then readRequest q s else s)

/-! ## Verdicts and announcements -/

/-- One entry of the pass-through queue marked anew. -/
def Path.remark (p : Path) (id : Nat) (m : Mark) : Path :=
  { p with queue := p.queue.map fun e => if e.id = id then { e with mark := m } else e }

/-- The fault a verdict refuses with, none when it accepts (R151). -/
def Verdict.fault : Verdict → Option FaultKind
  | .accept => none
  | .postOverrun => some .postOverrun
  | .groupInvalid => some .groupInvalid

/-- A verdict taken by the Path Unit: the entry is marked forwarded or refused (R151). -/
def takeVerdict (v : VerdictMsg) (s : State) : State :=
  match s.path.queue.find? (fun e => decide (e.id = v.id) && decide (e.mark = .awaiting)) with
  | none => s
  | some e =>
    match v.verdict.fault with
    | none => { s with path := s.path.remark v.id .forwarded }
    | some f =>
      let s := State.refuse { s with path := s.path.remark v.id .refused } f e.kind e.req
      State.takeHeld { s with path := s.path.settle }

/-- VERDICT (R151). -/
def execVerdict (s : State) : Host.Outcome State Fault Refusal :=
  .next (receivePlain Wires.verdicts (fun w r => { w with verdicts := r }) takeVerdict s)

/-- Whether a rewrite still stands in the internal queue (R156). -/
def Path.rewriteQueued (p : Path) (id : Nat) : Bool :=
  p.internal.any fun t => match t.tag with
    | .rewrite i _ => decide (i = id)
    | _ => false

/-- An announced rewrite enters the pending-rewrite list while its rewrite stands in the internal queue, and holds the view
reads that meet it (R156). -/
def takeAnnouncement (r : PendingRewrite) (s : State) : State :=
  if s.path.rewriteQueued r.id then
    { s with path := Path.hold { s.path with rewrites := s.path.rewrites ++ [r] } }
  else s

/-- REWRITE_ANNOUNCEMENT (R156). -/
def execRewriteAnnouncement (s : State) : Host.Outcome State Fault Refusal :=
  .next (receivePlain Wires.announcements (fun w r => { w with announcements := r }) takeAnnouncement s)

/-! ## Copies to the blocks -/

/-- The copy of a landing write (R153). -/
def landingCopy (q : Request) : LandingCopy :=
  { source := q.source, addr := q.addr.toNat, span := q.span, enables := q.enables, data := q.data }

/-- The field and sequence bytes of a group at offset o on, with a write's enabled bytes replaced; reserved bytes keep
their values (R153, R174). -/
def mirrorBytes (anchor : Nat) (g : GroupId) (q : Request) : Nat → List Byte → List Byte
  | _, [] => []
  | o, b :: rest =>
    (if g.isField o || isSeqByte o then (q.byteFor (anchor + g.base + o)).getD b else b) ::
      mirrorBytes anchor g q (o + 1) rest

/-- One group's place in the mirror updated by a forwarded write (R153, R166). -/
def mirrorGroup (anchor : Nat) (q : Request) (m : Vector (Option GroupMirror) 5) (g : GroupId) :
    Vector (Option GroupMirror) 5 :=
  upd m g.idx fun o => o.map fun x => { image := mirrorBytes anchor g q 0 x.image }

/-- A forwarded configuration write copied to the mirror (R153). -/
def copyConfig (q : Request) (s : State) : State :=
  { s with cmd := { s.cmd with mirror := allGroups.foldl (mirrorGroup s.path.anchorBase q) s.cmd.mirror } }

/-- The four bytes of the seen word that a write carries (R161). -/
def seenWriteOf (anchor : Nat) (q : Request) : SeenWrite :=
  let bytes := (List.range 4).map fun i => q.byteFor (anchor + seenAt + i)
  { enables := bytes.map Option.isSome, data := bytes.map fun b => b.getD 0 }

/-- A forwarded command write copied to the mirror: the post word at once, the seen word as an event of its own (R153,
R161, R172). -/
def copyCommand (q : Request) (s : State) : State :=
  let anchor := s.path.anchorBase
  let s := { s with cmd := { s.cmd with post := q.overlayWord (anchor + postAt) s.cmd.post } }
  if q.touches (anchor + seenAt) 4 then
    s.wire fun w => { w with seenWrites := w.seenWrites ++ [seenWriteOf anchor q] }
  else s

/-- The copy of a forwarded write handed on by its class as it leaves the M-port (R153). -/
def copyOn (e : PassEntry) (s : State) : State :=
  match e.region with
  | .landing k => s.wire fun w => { w with landing := upd w.landing k fun l => l ++ [landingCopy e.req] }
  | .anchorConfig => copyConfig e.req s
  | .anchorCommand => copyCommand e.req s
  | .anchorOwned | .log | .view _ _ | .viewSpare | .plain => s

/-! ## The M-port -/

/-- The address a leaving entry reads or writes (R154). -/
def PassEntry.target (e : PassEntry) : Nat :=
  match e.mark with
  | .translated t => t
  | .awaiting | .forwarded | .localZeros | .refused => e.req.addr.toNat

/-- An entry bound for memory: forwarded, or translated and not held (R144). -/
def PassEntry.bound (e : PassEntry) : Bool :=
  match e.mark with
  | .forwarded => true
  | .translated _ => !e.held
  | .awaiting | .localZeros | .refused => false

/-- The oldest ready entry bound for memory, and the queue without it; `older` are the sources passed over (R144). -/
def readyEntry : List SourceId → List PassEntry → Option (PassEntry × List PassEntry)
  | _, [] => none
  | older, e :: rest =>
    if e.bound && !older.contains e.req.source then some (e, rest)
    else match readyEntry (e.req.source :: older) rest with
      | none => none
      | some (x, r) => some (x, e :: r)

/-- The ring positions whose sequence words, the last four bytes of an entry, lie wholly within n bytes at offset o
(R155). -/
def coveredPositions (l : LogId) (o n : Nat) : List Nat :=
  (List.range' (o / l.entrySize) (n / l.entrySize + 2)).filter fun p =>
    decide (o ≤ p * l.entrySize + l.entrySize - 4) && decide ((p + 1) * l.entrySize ≤ o + n)

/-- The release request a leaving take read hands the Record Writer, none when it covers no sequence word (R155). -/
def releasesOf (e : PassEntry) : List Release :=
  match e.mark, e.region with
  | .translated _, .view l .take =>
    match coveredPositions l e.viewAt e.req.span with
    | [] => []
    | p :: ps => [{ log := l, positions := p :: ps }]
  | _, _ => []

/-- The part's copies, and memory, as an entry of the pass-through queue leaves (R144, R153). -/
def passEffect (e : PassEntry) (s : State) : State :=
  match e.kind with
  | .read =>
    let data := readBytes s.mem e.target e.req.span
    { s with path := { s.path with atMemory := s.path.atMemory ++ [{ dest := .source e.id, data := data }] } }
  | .write =>
    let s := { s with
      mem := writeBytes s.mem e.target e.req.enables e.req.data
      path := { s.path with atMemory := s.path.atMemory ++ [{ dest := .source e.id, data := [] }] } }
    copyOn e s

/-- An entry of the pass-through queue leaves through the M-port: the forwarded counter rises, a take read hands its
release, and the entries it held back may follow (R144, R155, R158). -/
def sendPass (e : PassEntry) (rest : List PassEntry) (s : State) : State :=
  let s := passEffect e { s with path := { s.path with
    queue := rest, marker := .pass, forwarded := bump s.path.forwarded } }
  let s := s.wire fun w => { w with releases := w.releases ++ releasesOf e }
  State.takeHeld { s with path := s.path.settle }

/-- Where memory's answer to a transaction of the part goes (R157). -/
def Txn.dest (t : Txn) : AnswerTo :=
  match t.tag with
  | .slotRead => .slotRead
  | .areaRead => .areaRead
  | .entryBody | .entrySeq _ _ | .rewrite _ _ | .slotStatus | .completionWord _ | .page => .writer

/-- Memory as a transaction of the part leaves (R144). -/
def txnMemory (t : Txn) (s : State) : State :=
  if t.write then
    { s with
      mem := writeBytes s.mem t.addr t.enables t.data
      path := { s.path with atMemory := s.path.atMemory ++ [{ dest := t.dest, data := [] }] } }
  else
    { s with path := { s.path with
      atMemory := s.path.atMemory ++ [{ dest := t.dest, data := readBytes s.mem t.addr t.span }] } }

/-- An entry of a log is written: its sequence word has left, unless the log has restarted since (R167, R163). -/
def entryWritten (l : LogId) (gen : Nat) (s : State) : State :=
  let g := s.writer.logs[l.idx]
  if g.gen = gen then (s.setLog l { g with written := g.written + 1 }).evalAttn else s

/-- A rewrite has left: its entry leaves the pending-rewrite list, and the reads that met it alone are held no longer
(R156). -/
def rewriteLeft (id : Nat) (s : State) : State :=
  { s with path := Path.unhold { s.path with rewrites := s.path.rewrites.filter fun r => decide (r.id ≠ id) } }

/-- What the leaving of a transaction of the part brings about (R161, R167, R156, R172). -/
def txnEffect (t : Txn) (s : State) : State :=
  match t.tag with
  | .entrySeq l gen => entryWritten l gen s
  | .rewrite id _ => rewriteLeft id s
  | .completionWord v => State.evalAttn { s with writer := { s.writer with lastCompletion := v } }
  | .slotRead | .areaRead | .entryBody | .slotStatus | .page => s

/-- A transaction of the part leaves through the M-port, and a block that waits places its next one (R157). -/
def sendInternal (t : Txn) (rest : List Txn) (s : State) : State :=
  (txnEffect t (txnMemory t { s with path := { s.path with internal := rest, marker := .internal } })).refill

/-- The arbiter's turn: with both queues ready, the one the marker does not name sends (R157). -/
def mPortSend (s : State) : State :=
  match readyEntry [] s.path.queue, s.path.internal with
  | none, [] => s
  | some (e, rest), [] => sendPass e rest s
  | none, t :: ts => sendInternal t ts s
  | some (e, rest), t :: ts =>
    match s.path.marker with
    | .pass => sendInternal t ts s
    | .internal => sendPass e rest s

/-- M_PORT_SEND (R157). -/
def execMPortSend (s : State) : Host.Outcome State Fault Refusal := .next (live mPortSend s)

/-! ## Memory's answers -/

/-- The data of a slot read handed to the Command Unit (R160). -/
def slotData (data : List Byte) (s : State) : State :=
  match s.cmd.execution with
  | some { slot := n, phase := .readingSlot } =>
    { s with cmd := { s.cmd with execution := some { slot := n, phase := .ready data } } }
  | _ => s

/-- The data of a configuration read handed to the Command Unit (R163). -/
def areaData (data : List Byte) (s : State) : State :=
  match s.cmd.execution with
  | some { slot := n, phase := .readingArea bytes } =>
    { s with cmd := { s.cmd with execution := some { slot := n, phase := .readingArea (bytes ++ data) } } }
  | _ => s

/-- Memory's answer to the oldest transaction not yet answered: to the source that asked, or to the block of the part
(R144, R157). -/
def memoryAnswer (s : State) : State :=
  match s.path.atMemory with
  | [] => s
  | m :: rest =>
    let s := { s with path := { s.path with atMemory := rest } }
    match m.dest with
    | .source id => { s with path := (s.path.answer id true m.data).respond }
    | .slotRead => slotData m.data s
    | .areaRead => areaData m.data s
    | .writer => s

/-- MEMORY_ANSWER (R144). -/
def execMemoryAnswer (s : State) : Host.Outcome State Fault Refusal := .next (live memoryAnswer s)

/-! ## Reset -/

/-- The Path Unit at warm reset: every queue emptied, the map absent and the counters 0; requests at the C-port stay held
off (R159). The anchor base is held until the end of the reset samples it anew (R146). The responses already returned and
the model's numbering are kept. -/
def Path.warmReset (p : Path) : Path :=
  { Path.powerOn with anchorBase := p.anchorBase, heldOff := p.heldOff, returned := p.returned, nextId := p.nextId }

end Sys2Proof.Machine
end

