-- ==== Sys2Proof/Machine/Travel.lean ====
section
/-! DEFINITION. The Travel Unit (chapter 1): encoder counting, the high-water position, line triggers, the position limit,
stops and speed. -/

namespace Sys2Proof.Machine

/-! ## Encoder counting -/

/-- What one edge counts (R2). -/
inductive Count where
  | forward | backward | illegal
  deriving DecidableEq, Repr

/-- The place of a pair of levels in the order 00, 10, 11, 01 of forward motion under A_LEADS (R2). -/
def pairPhase (a b : Bool) : Nat :=
  match a, b with
  | false, false => 0
  | true, false => 1
  | true, true => 2
  | false, true => 3

/-- The count of an edge from one pair to another, none when no level has changed; B_LEADS exchanges forward and backward
(R2). -/
def edgeCount (bLeads a0 b0 a1 b1 : Bool) : Option Count :=
  match (pairPhase a1 b1 + 4 - pairPhase a0 b0) % 4 with
  | 0 => none
  | 1 => some (if bLeads then .backward else .forward)
  | 2 => some .illegal
  | _ => some (if bLeads then .forward else .backward)

/-- The position limit P_lim in µm (R9). -/
def lastPosition (f : TravelFields) : Nat := 4294967296 * f.pitch - 1

/-- The lowest value of the accumulator, −2^48 µm (R5). -/
abbrev accumulatorFloor : Int := -(281474976710656 * 65536)

/-- A forward count on A and H (R5, R6, R9). -/
def Travel.forward (t : Travel) (f : TravelFields) : Travel :=
  let a := t.acc + f.scale
  if t.positionLimit then { t with acc := if a > t.high then (t.high : Int) else a }
  else if (lastPosition f * 65536 : Nat) ≤ a then
    { t with acc := (lastPosition f * 65536 : Nat), high := lastPosition f * 65536, positionLimit := true }
  else { t with acc := a, high := if a > t.high then a.toNat else t.high }

/-- A backward count on A; H keeps its value (R5). -/
def Travel.backward (t : Travel) (f : TravelFields) : Travel := { t with acc := max (t.acc - f.scale) accumulatorFloor }

/-- Any count restarts the stop timer and ends a stop (R11, R12). -/
def Travel.restart (t : Travel) : Travel := { t with timer := 0, motion := .moving }

/-- The line trigger a rise of P makes: the trigger count becomes N / L_p and N advances (R7). -/
def Travel.trigger (t : Travel) (f : TravelFields) : Travel :=
  match t.nextPoint with
  | none => t
  | some n =>
    if n ≤ t.pos then { t with count := n / f.pitch, nextPoint := some (n + f.pitch), pulses := t.pulses + 1 } else t

/-- What an edge of the counting window does to the unit (R2, R3, R5 to R9). -/
def Travel.edge (t : Travel) (a b : Bool) : Travel :=
  let t' := { t with refA := a, refB := b }
  match t.fields with
  | none => t'
  | some f =>
    match edgeCount f.bLeads t.refA t.refB a b with
    | none => t'
    | some .forward => ((t'.forward f).restart).trigger f
    | some .backward => (t'.backward f).restart
    | some .illegal => { t' with quadErrors := bump t.quadErrors }

/-- The rise a count has made, delivered to the Cut Planner and the Strike Unit (R6, R10). -/
def riseMsgs (t t' : Travel) : List Rise := if t.pos = t'.pos then [] else [{ p0 := t.pos, p1 := t'.pos }]

/-- The line triggers a count has made, delivered to every Lane Unit (R8). -/
def triggerMsgs (t t' : Travel) : List Nat := if t.pulses = t'.pulses then [] else [t'.count]

/-- Messages put on every lane's trigger wire (R8). -/
def sendTriggers (s : State) (ns : List Nat) : State :=
  s.wire fun w =>
    { w with triggers := allLanes.foldl (fun v k => upd v k (fun q => q ++ s.tagAll ns)) w.triggers }

/-- An edge taken by the Travel Unit: counted in the counting window, and otherwise only the new reference pair (R4). -/
def encoderEdge (a b : Bool) (s : State) : State :=
  if s.cmd.runState.counting then
    let t := s.travel.edge a b
    let s := sendTriggers s (triggerMsgs s.travel t)
    let rises := s.tagAll (riseMsgs s.travel t)
    State.wire { s with travel := t } fun w =>
      { w with plannerRises := w.plannerRises ++ rises, strikeRises := w.strikeRises ++ rises }
  else { s with travel := { s.travel with refA := a, refB := b } }

/-- ENCODER_EDGE (R2). -/
def execEncoderEdge (a b : Bool) (s : State) : Host.Outcome State Fault Refusal := .next (live (encoderEdge a b) s)

/-! ## Motion and stops -/

/-- Whether the unit tick now due is the one that brings the stop timer to T_stop in the counting window (R12). -/
def stopDue (s : State) : Bool :=
  match s.travel.fields with
  | none => false
  | some f => s.cmd.runState.counting && decide (s.travel.motion = .moving) && decide (s.travel.timer + 1 = f.tStop)

/-- A unit tick in the counting window raises the stop timer below T_stop, and holds it there (R11). -/
def Travel.tick (t : Travel) : Travel :=
  match t.fields with
  | none => t
  | some f => if t.timer < f.tStop then { t with timer := t.timer + 1 } else t

/-- A unit tick taken by the Travel Unit: the timer rises, and the tick that brings it to T_stop stops the ribbon and
sends one increment of stops (R11, R12). -/
def takeUnitTick (s : State) : State :=
  let s' := { s with wires := { s.wires with unitTicks := s.wires.unitTicks - 1 } }
  if stopDue s then
    State.sendIncrements { s' with travel := { s.travel.tick with motion := .stopped } } .travel [.stop]
  else if s.cmd.runState.counting then { s' with travel := s.travel.tick }
  else s'

/-- UNIT_TICK (R11). -/
def execUnitTick (s : State) : Host.Outcome State Fault Refusal :=
  .next (live (fun s => if s.wires.unitTicks = 0 then s else takeUnitTick s) s)

/-- STOP_TIMER_EXPIRY: the unit tick due is the one that stops the ribbon (R12). -/
def execStopTimerExpiry (s : State) : Host.Outcome State Fault Refusal :=
  .next (live (fun s => if s.wires.unitTicks = 0 then s else if stopDue s then takeUnitTick s else s) s)

/-- The Travel Unit's second tick: the speed from P and the held position, which then follows P; a stop in the counting
window adds a stop second (R13, R14). -/
def travelSecond (s : State) : State :=
  let t := s.travel
  let s' := { s with
    wires := { s.wires with travelTicks := s.wires.travelTicks - 1 }
    travel := { t with speed := min max32 (t.pos - t.heldPos), heldPos := t.pos } }
  if s.cmd.runState.counting && decide (t.motion = .stopped) then s'.sendIncrements .travel [.stopSecond] else s'

/-- TRAVEL_SECOND_TICK (R14). -/
def execTravelSecondTick (s : State) : Host.Outcome State Fault Refusal :=
  .next (live (fun s => if s.wires.travelTicks = 0 then s else travelSecond s) s)

/-! ## Run start and reset -/

/-- Run reset: the fields in use, the reference pair and the unit divider are kept (R16). -/
def Travel.runReset (t : Travel) : Travel :=
  { Travel.powerOn with fields := t.fields, refA := t.refA, refB := t.refB, divider := t.divider, pulses := t.pulses }

/-- Entry to RUNNING: the shadow's travel fields come into use, N becomes L_p, and the ribbon moves (R17). -/
def Travel.enter (t : Travel) (f : TravelFields) : Travel :=
  { t with fields := some f, nextPoint := some f.pitch, motion := .moving, timer := 0 }

end Sys2Proof.Machine
end

