-- ==== Sys2Proof/Machine/Command.lean ====
section
/-! DEFINITION. The Command Unit (chapter 10): the command ring, run states, CONFIGURE, the run commands, the commands
other blocks carry out, the live groups and the run reset. -/

namespace Sys2Proof.Machine

/-! ## The command ring -/

/-- The Command Unit's state changed. -/
def State.setCmd (s : State) (c : Command) : State := { s with cmd := c }

/-- A posted command is taken when none is in execution: its slot is read and the taken index rises (R160). -/
def commandTake (s : State) : State :=
  match s.cmd.execution with
  | some _ => s
  | none =>
    if s.cmd.taken = s.cmd.post then s
    else
      let n := s.cmd.taken.toNat % Config.commandSlots
      State.placeRead
        (s.setCmd { s.cmd with taken := s.cmd.taken + 1, execution := some { slot := n, phase := .readingSlot } })
        (Txn.fetch .slotRead (s.path.anchorBase + slotsAt + 64 * n) 64)

/-- COMMAND_TAKE (R160). -/
def execCommandTake (s : State) : Host.Outcome State Fault Refusal := .next (live commandTake s)

/-- The command in execution finished with an outcome, DONE or a reason (R161). -/
def State.finishCommand (s : State) (slot : Nat) (r : Option Reason) : State :=
  s.setCmd { s.cmd with execution := some { slot := slot, phase := .finished r } }

/-- A command whose slot has been read, carried out when its kind is the one named; none is a byte that names no kind
(R160). -/
def onCommand (kind : Option CommandKind) (act : List Byte → State → Option Reason × State) (s : State) : State :=
  if s.inReset then s else
    match s.cmd.execution with
    | some { slot := n, phase := .ready bytes } =>
      if commandKind bytes = kind then
        let r := act bytes s
        r.2.finishCommand n r.1
      else s
    | _ => s

/-- The status beat of a slot: outcome, reason and completion number (R175). -/
def statusBeat (r : Option Reason) (completion : Word32) : List Byte :=
  le 1 (outcomeCode r) ++ le 1 (reasonCode r) ++ zeros 2 ++ le 4 completion.toNat

/-- The completion word's beat, its reserved bytes zero (R174). -/
def completionBeat (v : Word32) : List Byte := le 4 v.toNat ++ zeros 4

/-- The completion of a command: the completion count rises, and its status and the completion word are written in order
(R161, R175). -/
def commandCompletion (s : State) : State :=
  match s.cmd.execution with
  | some { slot := n, phase := .finished r } =>
    let v := s.cmd.completion + 1
    let anchor := s.path.anchorBase
    State.placeWrites (s.setCmd { s.cmd with completion := v, execution := none })
      [Txn.full .slotStatus (anchor + slotsAt + 64 * n + 0x38) (statusBeat r v),
       Txn.full (.completionWord v) (anchor + completionAt) (completionBeat v)]
  | _ => s

/-- COMMAND_COMPLETION (R161). -/
def execCommandCompletion (s : State) : Host.Outcome State Fault Refusal := .next (live commandCompletion s)

/-- BAD_COMMAND: a kind that names no command is refused at once (R160). -/
def execBadCommand (s : State) : Host.Outcome State Fault Refusal :=
  .next (onCommand none (fun _ s => (some .badCommand, s)) s)

/-! ## Run state changes -/

/-- The new run state handed to every block that holds it (R162). -/
def State.handRunState (s : State) (st : RunState) : State :=
  { s with
    cmd := { s.cmd with runState := st }
    lanes := s.lanes.map fun l => { l with runState := st }
    shift := { s.shift with runState := st }
    path := { s.path with runState := st } }

/-- A step of every lane at once, with the number of lane states that change. -/
def State.stepLanes (s : State) (f : Lane → LaneStep) : State × Nat :=
  let r := s.lanes.map f
  ({ s with lanes := r.map (·.lane) }, (r.toList.map (·.changes)).foldl (· + ·) 0)

/-- The lanes not OFF: those whose state a run reset changes (R37). -/
def State.activeLanes (s : State) : Nat := (s.lanes.toList.filter fun l => decide (l.state ≠ .off)).length

/-- The run reset of every block (R164): run state emptied, the configuration, logs and command ring kept. Messages of the
ended run are told by the run reset count (notes/assumptions/5). -/
def State.runReset (s : State) : State :=
  let s := s.plannerRunReset.gradingRunReset.writerRunReset
  { s with
    epoch := s.epoch + 1
    travel := s.travel.runReset
    lanes := s.lanes.map fun l => l.runReset l.runState
    engine := s.engine.runReset
    asm := s.asm.runReset
    strike := s.strike.runReset }

/-! ## START_RUN, STOP_RUN and RESET_RUN -/

/-- Every eligible copy becomes active (R164). -/
def Command.activateAll (c : Command) : Command :=
  { c with
    detect := c.detect.activate, plan := c.plan.activate, grade := c.grade.activate, strike := c.strike.activate,
    clock := c.clock.activate }

/-- The entry to RUNNING in every block that acts on it (R17, R31, R85), and the page for each change (R171). -/
def State.enterRunning (s : State) (sh : Shadow) : State :=
  let s := s.handRunState .running
  let s := { s with travel := s.travel.enter sh.travel }
  let r := s.stepLanes Lane.enterRun
  let s := r.1.finishPlan (r.1.planStep.enterRun (r.1.planContext sh))
  s.writePages (r.2 + 1)

/-- START_RUN by run state: refused outside CONFIGURED; in it the run reset, the new run number, the eligible copies and
the entry to RUNNING, in that order (R164). -/
def startRun (s : State) : Option Reason × State :=
  match s.cmd.runState, s.cmd.shadow with
  | .configured, some sh =>
    let s := s.runReset
    let s := s.setShift s.shift.newRun
    let s := s.setCmd { s.cmd.activateAll with run := s.shift.run }
    (none, s.enterRunning sh)
  | .running, _ | .draining, _ => (some .runActive, s)
  | .transparent, _ | .configured, none => (some .notConfigured, s)

/-- START_RUN (R164). -/
def execStartRun (s : State) : Host.Outcome State Fault Refusal :=
  .next (onCommand (some .startRun) (fun _ s => startRun s) s)

/-- The buffers of the engine's outstanding lines freed, their completions handed back without analysis (R43). -/
def State.freeOutstanding (s : State) : State :=
  s.engine.outstanding.foldl (fun s e => s.setLane e.lane (s.lanes[e.lane].freed e.buffer)) s

/-- Leaving RUNNING by STOP_RUN: lanes OFF, the engine emptied, open blobs flushed, and DRAINING entered (R31, R43, R69,
R162). -/
def State.leaveRunning (s : State) : State :=
  let s := s.handRunState .draining
  let r := s.stepLanes (Lane.leaveRun .draining)
  let s := r.1.freeOutstanding
  let s := { s with engine := s.engine.leaveRun }
  (flushBlobs s).writePages (r.2 + 1)

/-- STOP_RUN by run state (R164). -/
def stopRun (s : State) : Option Reason × State :=
  match s.cmd.runState with
  | .running => (none, s.leaveRunning)
  | .transparent | .configured | .draining => (some .notRunning, s)

/-- STOP_RUN (R164). -/
def execStopRun (s : State) : Host.Outcome State Fault Refusal :=
  .next (onCommand (some .stopRun) (fun _ s => stopRun s) s)

/-- RESET_RUN by run state: a run reset, with the run state to CONFIGURED from RUNNING and DRAINING (R164). -/
def resetRun (s : State) : Option Reason × State :=
  match s.cmd.runState with
  | .transparent => (some .notConfigured, s)
  | .configured => (none, s.runReset)
  | .running | .draining => (none, (s.runReset.handRunState .configured).writePages (s.activeLanes + 1))

/-- RESET_RUN (R164). -/
def execResetRun (s : State) : Host.Outcome State Fault Refusal :=
  .next (onCommand (some .resetRun) (fun _ s => resetRun s) s)

/-- The completion of the run end taken in DRAINING: CONFIGURED, with the Strike Unit's windows closed (R162, R112, R99);
in any other state it is discarded. -/
def takeRunEnd (s : State) : State :=
  match s.cmd.runState with
  | .draining =>
    let s := s.handRunState .configured
    State.writePages 1 { s with strike := s.strike.close, planner := { s.planner with runEnd := .none } }
  | .transparent | .configured | .running => s

/-- RUN_END_COMPLETION (R162). -/
def execRunEndCompletion (s : State) : Host.Outcome State Fault Refusal :=
  .next (receive Wires.runEnds (fun w r => { w with runEnds := r }) (fun _ => takeRunEnd) s)

/-! ## CONFIGURE -/

/-- Bytes of the configuration area, fixed fields and live groups (chapter 11.2). -/
abbrev areaBytes : Nat := 0x1500

/-- The internal reads of the whole configuration area, 16 beats each (R163, R143; notes/assumptions/10). -/
def areaReads (anchor : Nat) : List Txn :=
  (List.range 42).map fun i => Txn.fetch .areaRead (anchor + 128 * i) 128

/-- A group's copy read from memory, as its only copy (R163). -/
def freshCopy {α : Type} (fields : α) (image : List Byte) : Copies α :=
  { active := some { fields := fields, seq := parseSeq image }, eligible := none }

/-- The Command Unit after a successful CONFIGURE (R163). -/
def Command.configured (c : Command) (a : Area) : Command :=
  let image := fun g => groupImage a.bytes g
  let place := fun g : GroupId => some ({ image := image g } : GroupMirror)
  { c with
    shadow := some a.shadow, lastReason := none
    mirror := #v[place .detect, place .plan, place .grade, place .strike, place .clock]
    invalid := Vector.replicate 5 false
    detect := freshCopy a.detect (image .detect), plan := freshCopy a.plan (image .plan),
    grade := freshCopy a.grade (image .grade), strike := freshCopy a.strike (image .strike),
    clock := freshCopy a.clock (image .clock) }

/-- Each lane's enabled attribute set from its enabled-at-start field (R18). -/
def State.enableAtStart (s : State) (sh : Shadow) : State :=
  { s with lanes := allLanes.foldl (fun v k => upd v k fun l => { l with enabled := sh.lanes[k].enabledAtStart }) s.lanes }

/-- A successful CONFIGURE: the fixed fields and the region map, the live groups, the logs, and CONFIGURED; the page for a
change of run state (R163, R171). -/
def State.applyConfiguration (s : State) (a : Area) : State :=
  let changed := decide (s.cmd.runState ≠ .configured)
  let s := s.enableAtStart a.shadow
  let s := { s with path := { s.path with map := some a.shadow.regionMap } }
  let s := (s.setCmd (s.cmd.configured a)).setShift (s.shift.takeClock a.clock)
  let s := (s.takeLogs a.shadow.logs).handRunState .configured
  s.writePages (if changed then 1 else 0)

/-- A CONFIGURE refused: its reason is recorded for the status page, and nothing else changes (R163). -/
def State.configureRefused (s : State) (r : Reason) : Option Reason × State :=
  (some r, s.setCmd { s.cmd with lastReason := some r })

/-- The configuration read, validated and applied or refused (R163). -/
def configureRead (bytes : List Byte) (s : State) : Option Reason × State :=
  let a := parseArea bytes
  match a.refusal s.path.anchorBase with
  | some r => s.configureRefused r
  | none => (none, s.applyConfiguration a)

/-- The begin of a CONFIGURE: refused with RUN_ACTIVE in a run, else the reads of the area issued (R163). -/
def configureBegin (slot : Nat) (s : State) : State :=
  if s.cmd.runState.counting then
    let r := s.configureRefused .runActive
    r.2.finishCommand slot r.1
  else
    State.placeReads (s.setCmd { s.cmd with execution := some { slot := slot, phase := .readingArea [] } })
      (areaReads s.path.anchorBase)

/-- CONFIGURE as far as it has come: its begin, and, with the whole area read, its validation (R163). -/
def configure (s : State) : State :=
  match s.cmd.execution with
  | some { slot := n, phase := .ready bytes } =>
    if commandKind bytes = some .configure then configureBegin n s else s
  | some { slot := n, phase := .readingArea bytes } =>
    if bytes.length = areaBytes then
      let r := configureRead bytes s
      r.2.finishCommand n r.1
    else s
  | _ => s

/-- CONFIGURE (R163). -/
def execConfigure (s : State) : Host.Outcome State Fault Refusal := .next (live configure s)

/-! ## Commands other blocks carry out -/

/-- SET_CLOCK carried out by the Shift Unit (R132, R165). -/
def setClock (bytes : List Byte) (s : State) : Option Reason × State :=
  let r := s.shift.setClock (slotCalendar bytes)
  (r.1, s.setShift r.2)

/-- SET_CLOCK (R132). -/
def execSetClock (s : State) : Host.Outcome State Fault Refusal := .next (onCommand (some .setClock) setClock s)

/-- CLOSE_SHIFT: a boundary with slot MANUAL (R134). -/
def execCloseShift (s : State) : Host.Outcome State Fault Refusal :=
  .next (onCommand (some .closeShift) (fun _ s => (none, s.boundary .manual)) s)

/-- A command on the lanes of a mask, in ascending order; refused in TRANSPARENT (R165). Each lane takes it as an event of its
own with its page after it, so that a page shows the lanes above it in the mask as they were: DEDUCED (R29, R30,
notes/assumptions/14). An empty mask in TRANSPARENT is refused too, by the table of R165 and not by its sentence that such a
mask completes DONE: DESIGN CHOICE (notes/assumptions/44). -/
def onLanes (f : Lane → LaneStep) (bytes : List Byte) (s : State) : Option Reason × State :=
  match s.cmd.runState with
  | .transparent => (some .notConfigured, s)
  | .configured | .running | .draining =>
    (none, (allLanes.filter (slotMask bytes)).foldl (fun s k => s.finishLane k (f s.lanes[k]) none) s)

/-- LANE_ENABLE (R30). -/
def execLaneEnable (s : State) : Host.Outcome State Fault Refusal :=
  .next (onCommand (some .laneEnable) (onLanes Lane.enable) s)

/-- The lane timing fields in the shadow; the fields are present outside TRANSPARENT (R19). -/
def State.timing (s : State) : LaneTiming :=
  match s.cmd.shadow with
  | none => { lag := 0, lockLines := 0, stall := 0 }
  | some sh => sh.timing

/-- LANE_DISABLE (R30). -/
def execLaneDisable (s : State) : Host.Outcome State Fault Refusal :=
  .next (onCommand (some .laneDisable) (onLanes (Lane.disable s.timing)) s)

/-- MANUAL_CUT carried out by the Cut Planner (R97, R165). -/
def manualCut (bytes : List Byte) (s : State) : Option Reason × State :=
  match s.cmd.shadow with
  | none => (some .notRunning, s)
  | some sh =>
    let r := s.planStep.manualCut (s.planContext sh) (slotPosition bytes)
    (r.1, s.finishPlan r.2)

/-- MANUAL_CUT (R97). -/
def execManualCut (s : State) : Host.Outcome State Fault Refusal := .next (onCommand (some .manualCut) manualCut s)

/-! ## Verdicts and the mirror -/

/-- The verdict on a post word write: at most 16 commands outstanding (R151). -/
def postVerdict (s : State) (q : Request) : Verdict :=
  if (q.overlayWord (s.path.anchorBase + postAt) s.cmd.post - s.cmd.completion).toNat ≤ Config.commandSlots then .accept
  else .postOverrun

/-- An eligible copy held beside the active one (R166). -/
def Copies.offer {α : Type} (c : Copies α) (fields : α) (seq : Word32) : Copies α :=
  { c with eligible := some { fields := fields, seq := seq } }

/-- The validated pending copy of a group made eligible, its invalid mark cleared; a CLOCK copy becomes active at once
(R166, R131). -/
def makeEligible (g : GroupId) (image : List Byte) (s : State) : State :=
  let c := { s.cmd with invalid := upd s.cmd.invalid g.idx fun _ => false }
  let seq := parseSeq image
  match g with
  | .detect => s.setCmd { c with detect := c.detect.offer (parseDetect image) seq }
  | .plan => s.setCmd { c with plan := c.plan.offer (parsePlan image) seq }
  | .grade => s.setCmd { c with grade := c.grade.offer (parseGrade image) seq }
  | .strike => s.setCmd { c with strike := c.strike.offer (parseStrike image) seq }
  | .clock =>
    (s.setCmd { c with clock := (c.clock.offer (parseClock image) seq).activate }).setShift
      (s.shift.takeClock (parseClock image))

/-- The pending copy of a group as it would stand with a write's bytes applied (R151). -/
def State.pendingImage (s : State) (g : GroupId) (q : Request) : Option (List Byte) :=
  s.cmd.mirror[g.idx].map fun m => mirrorBytes s.path.anchorBase g q 0 m.image

/-- The verdict on a sequence word write, with what the Command Unit does with the copy (R151, R166). -/
def groupVerdict (s : State) (g : GroupId) (q : Request) : Verdict × State :=
  match s.pendingImage g q with
  | some image =>
    if s.cmd.groupValid g image then (.accept, makeEligible g image s)
    else (.groupInvalid, s.setCmd { s.cmd with invalid := upd s.cmd.invalid g.idx fun _ => true })
  | none => (.groupInvalid, s)

/-- A verdict sent back to the Path Unit (R151). -/
def State.sendVerdict (s : State) (id : Nat) (v : Verdict) : State :=
  s.wire fun w => { w with verdicts := w.verdicts ++ [{ id := id, verdict := v }] }

/-- A verdict request taken by the Command Unit (R151). -/
def takeVerdictRequest (m : VerdictRequest) (s : State) : State :=
  match seqGroup s.path.anchorBase m.req with
  | some g =>
    let r := groupVerdict s g m.req
    r.2.sendVerdict m.id r.1
  | none => s.sendVerdict m.id (postVerdict s m.req)

/-- VERDICT_REQUEST (R151). -/
def execVerdictRequest (s : State) : Host.Outcome State Fault Refusal :=
  .next (receivePlain Wires.verdictAsks (fun w r => { w with verdictAsks := r }) takeVerdictRequest s)

/-- A write of the seen word taken: the mirror's seen word, and ATTN re-evaluated (R161, R172). -/
def takeSeenWrite (m : SeenWrite) (s : State) : State :=
  let word := fromLe (patch (le 4 s.cmd.seen.toNat) 0 m.enables m.data)
  (s.setCmd { s.cmd with seen := BitVec.ofNat 32 word }).evalAttn

/-- SEEN_WORD_WRITE (R172). -/
def execSeenWordWrite (s : State) : Host.Outcome State Fault Refusal :=
  .next (receivePlain Wires.seenWrites (fun w r => { w with seenWrites := r }) takeSeenWrite s)

end Sys2Proof.Machine
end

