-- ==== Sys2Proof/Machine/Resets.lean ====
section
/-! DEFINITION. Power-on, warm reset and the end of a reset (R142, R159, R173, R176, and the reset table of every chapter).
The run reset stands in Machine/Command.lean. -/

namespace Sys2Proof.Machine

/-- Power-on: every block at its power-on values, held in reset until RESET_END; memory behind the M-port is not the
part's, and keeps its bytes (R142, R173; notes/assumptions/1, notes/assumptions/3). -/
def powerOn (s : State) : State := { State.reset with pending := s.pending, mem := s.mem }

/-- POWER_ON (R142). -/
def execPowerOn (s : State) : Host.Outcome State Fault Refusal := .next (powerOn s)

/-- The Travel Unit at warm reset: as at power-on, its unit divider restarted (R16, R11). -/
def Travel.warmReset (t : Travel) : Travel := { Travel.powerOn with pulses := t.pulses }

/-- Warm reset: every block in its warm-reset state, every message between blocks and every queued transaction abandoned,
outputs and ATTN released (R173, R159, R142). The part stays in reset until RESET_END. -/
def warmReset (s : State) : State :=
  { s with
    inReset := true
    travel := s.travel.warmReset
    lanes := Vector.replicate 8 Lane.powerOn
    engine := Engine.powerOn
    asm := { Assembler.powerOn with numbersPast := s.asm.numbersPast }
    planner := { Planner.powerOn with numbersPast := s.planner.numbersPast }
    strike := s.strike.runReset
    grading := Grading.powerOn
    shift := s.shift.warmReset
    path := s.path.warmReset
    cmd := Command.powerOn
    writer := Writer.powerOn
    wires := Wires.quiet }

/-- WARM_RESET (R173). -/
def execWarmReset (s : State) : Host.Outcome State Fault Refusal := .next (warmReset s)

/-- The anchor base of a strap setting: 128 MiB times ANCHOR_SEL (R146). -/
def anchorBaseOf (sel : Fin 16) : Nat := sel.val * 134217728

/-- The end of a reset: the straps and the encoder levels sampled, a RESET tally opened, the calendar copied to the Record
Writer, completion word 0 and the first page written, and the requests held off at the C-port taken (R176, R146, R16,
R142, R173). That page shows zero where a block holds no configuration (R176). -/
def resetEnd (sel : Fin 16) (a b : Bool) (s : State) : State :=
  let s := { s with
    inReset := false
    travel := { s.travel with refA := a, refB := b }
    path := { s.path with anchorBase := anchorBaseOf sel }
    shift := s.shift.openTally .reset
    writer := { s.writer with calendar := s.shift.calendar, clockValid := s.shift.valid } }
  let s := s.placeWrite (Txn.full (.completionWord 0) (s.path.anchorBase + completionAt) (completionBeat 0))
  (s.writePageOf State.shownAtResetEnd).takeHeld

/-- RESET_END; with no reset in progress there is no event (R176, notes/assumptions/2). -/
def execResetEnd (sel : Fin 16) (a b : Bool) (s : State) : Host.Outcome State Fault Refusal :=
  .next (if s.inReset then resetEnd sel a b s else s)

end Sys2Proof.Machine
end

