-- ==== Sys2Proof/Machine/Dispatch.lean ====
section
/-! DEFINITION. Which meaning each command has: one arm per constructor of Instr, in the table's order. -/

namespace Sys2Proof.Machine

/-- The effect of a command on the state, but for the queue (spec/opcode_table.json). -/
def exec (i : Instr) (s : State) : Host.Outcome State Fault Refusal :=
  match i with
  | .powerOn => Sys2Proof.Machine.execPowerOn s
  | .warmReset => Sys2Proof.Machine.execWarmReset s
  | .resetEnd anchorSel encA encB => Sys2Proof.Machine.execResetEnd anchorSel encA encB s
  | .encoderEdge encA encB => Sys2Proof.Machine.execEncoderEdge encA encB s
  | .tb32kPeriod => Sys2Proof.Machine.execTb32kPeriod s
  | .unitTick => Sys2Proof.Machine.execUnitTick s
  | .stopTimerExpiry => Sys2Proof.Machine.execStopTimerExpiry s
  | .secondEnd => Sys2Proof.Machine.execSecondEnd s
  | .travelSecondTick => Sys2Proof.Machine.execTravelSecondTick s
  | .writerSecondTick => Sys2Proof.Machine.execWriterSecondTick s
  | .laneLineTrigger k => Sys2Proof.Machine.execLaneLineTrigger k s
  | .landingWrite k => Sys2Proof.Machine.execLandingWrite k s
  | .analysisBegin => Sys2Proof.Machine.execAnalysisBegin s
  | .analysisCompletion => Sys2Proof.Machine.execAnalysisCompletion s
  | .gapLine k => Sys2Proof.Machine.execGapLine k s
  | .settledLine k => Sys2Proof.Machine.execSettledLine k s
  | .join => Sys2Proof.Machine.execJoin s
  | .scan => Sys2Proof.Machine.execScan s
  | .mark => Sys2Proof.Machine.execMark s
  | .gather => Sys2Proof.Machine.execGather s
  | .heldFlaw => Sys2Proof.Machine.execHeldFlaw s
  | .scanAnswer => Sys2Proof.Machine.execScanAnswer s
  | .joinedLine => Sys2Proof.Machine.execJoinedLine s
  | .plannerRise => Sys2Proof.Machine.execPlannerRise s
  | .flushEnd => Sys2Proof.Machine.execFlushEnd s
  | .strikeClaim => Sys2Proof.Machine.execStrikeClaim s
  | .pieceRemoval => Sys2Proof.Machine.execPieceRemoval s
  | .waitingLogMove => Sys2Proof.Machine.execWaitingLogMove s
  | .runEndCompletion => Sys2Proof.Machine.execRunEndCompletion s
  | .headOffer => Sys2Proof.Machine.execHeadOffer s
  | .strikeRise => Sys2Proof.Machine.execStrikeRise s
  | .strikeGrant => Sys2Proof.Machine.execStrikeGrant s
  | .claimWithdrawal => Sys2Proof.Machine.execClaimWithdrawal s
  | .gradingHandoff => Sys2Proof.Machine.execGradingHandoff s
  | .gradingBegin => Sys2Proof.Machine.execGradingBegin s
  | .gatherAnswer => Sys2Proof.Machine.execGatherAnswer s
  | .gradeAnswer => Sys2Proof.Machine.execGradeAnswer s
  | .gradingIncrements => Sys2Proof.Machine.execGradingIncrements s
  | .tallyIncrement b => Sys2Proof.Machine.execTallyIncrement b s
  | .stamp => Sys2Proof.Machine.execStamp s
  | .plateOffer => Sys2Proof.Machine.execPlateOffer s
  | .plateAccepted => Sys2Proof.Machine.execPlateAccepted s
  | .plateFull => Sys2Proof.Machine.execPlateFull s
  | .plateRoom => Sys2Proof.Machine.execPlateRoom s
  | .shiftReportOffer => Sys2Proof.Machine.execShiftReportOffer s
  | .shiftAccepted => Sys2Proof.Machine.execShiftAccepted s
  | .shiftFull => Sys2Proof.Machine.execShiftFull s
  | .shiftRoom => Sys2Proof.Machine.execShiftRoom s
  | .flawRecord => Sys2Proof.Machine.execFlawRecord s
  | .fault b => Sys2Proof.Machine.execFault b s
  | .releaseRequest => Sys2Proof.Machine.execReleaseRequest s
  | .rewriteAnnouncement => Sys2Proof.Machine.execRewriteAnnouncement s
  | .commandTake => Sys2Proof.Machine.execCommandTake s
  | .configure => Sys2Proof.Machine.execConfigure s
  | .startRun => Sys2Proof.Machine.execStartRun s
  | .stopRun => Sys2Proof.Machine.execStopRun s
  | .resetRun => Sys2Proof.Machine.execResetRun s
  | .setClock => Sys2Proof.Machine.execSetClock s
  | .closeShift => Sys2Proof.Machine.execCloseShift s
  | .laneEnable => Sys2Proof.Machine.execLaneEnable s
  | .laneDisable => Sys2Proof.Machine.execLaneDisable s
  | .manualCut => Sys2Proof.Machine.execManualCut s
  | .badCommand => Sys2Proof.Machine.execBadCommand s
  | .commandCompletion => Sys2Proof.Machine.execCommandCompletion s
  | .busRead q => Sys2Proof.Machine.execBusRead q s
  | .busWrite q => Sys2Proof.Machine.execBusWrite q s
  | .postWordWrite q => Sys2Proof.Machine.execPostWordWrite q s
  | .seenWordWrite => Sys2Proof.Machine.execSeenWordWrite s
  | .sequenceWordWrite q => Sys2Proof.Machine.execSequenceWordWrite q s
  | .takeViewRead q => Sys2Proof.Machine.execTakeViewRead q s
  | .peekViewRead q => Sys2Proof.Machine.execPeekViewRead q s
  | .verdictRequest => Sys2Proof.Machine.execVerdictRequest s
  | .verdict => Sys2Proof.Machine.execVerdict s
  | .mPortSend => Sys2Proof.Machine.execMPortSend s
  | .memoryAnswer => Sys2Proof.Machine.execMemoryAnswer s

end Sys2Proof.Machine
end

