-- ==== Sys2Proof/Safety.lean ====
section
/-! DEFINITION. What a safe state of the part is, in the terms the statements use: memory in its canonical form, the
bounds and agreements the spec gives the blocks, and the conditions its outputs stand for. -/

namespace Sys2Proof.Machine

/-- The memory behind the M-port is in its canonical form. -/
def State.memoryWf (s : State) : Prop := Memory.wf s.mem = true

/-- The blocks that hold the run state hold the Command Unit's: it is handed to them at each change (R162). -/
def State.runStatesAgree (s : State) : Prop :=
  (∀ k : LaneId, s.lanes[k].runState = s.cmd.runState) ∧ s.shift.runState = s.cmd.runState ∧
    s.path.runState = s.cmd.runState

/-- The queues and tables hold no more than the spec allows: the pass-through queue (R143), the internal queue (R157), the
Flaw Table (R73), the gap list (R77), the strike track (R105) and the gate list (R110). -/
def State.queuesBounded (s : State) : Prop :=
  s.path.queue.length ≤ 32 ∧ s.path.internal.length ≤ 16 ∧ s.asm.table.length ≤ 512 ∧ s.asm.gaps.length ≤ 64 ∧
    s.strike.track.length ≤ 4 ∧ s.strike.gates.length ≤ 8

/-- No join queue holds more than 8 entries, and a TRACK line in analysis has room in its lane's (R39, R42). -/
def State.joinQueuesBounded (s : State) : Prop :=
  (∀ k : LaneId, s.engine.lanes[k].join.length ≤ 8) ∧
    ∀ a, s.engine.analysis = some a → a.entry.mode = .track → s.engine.lanes[a.entry.lane].join.length < 8

/-- No plate record on its way to the Plate Log, in STAMPING, on the outbound list or on offer, names more than 16 flaws
(R122). -/
def State.topFlawsBounded (s : State) : Prop :=
  (∀ r, s.grading.state = .stamping r → r.top.length ≤ 16) ∧ (∀ o ∈ s.grading.outbound, o.record.top.length ≤ 16) ∧
    ∀ m ∈ s.wires.plateOffers, m.msg.top.length ≤ 16

/-- The Shift Unit's calendar and the Record Writer's copy hold a date and time within the ranges of R129. -/
def State.calendarsValid (s : State) : Prop := s.shift.calendar.valid = true ∧ s.writer.calendar.valid = true

/-- SCORE and SNAP are asserted while some track entry is ON, and GATE while some gate window's start has arrived (R106,
R110). -/
def State.outputsRight (s : State) : Prop :=
  (s.strike.score.level = true ↔ ∃ e ∈ s.strike.track, e.score = .on) ∧
    (s.strike.snap.level = true ↔ ∃ e ∈ s.strike.track, e.snap = .on) ∧
    (s.strike.gate.level = true ↔ ∃ g ∈ s.strike.gates, g.arrived = true)

/-- ATTN is asserted exactly while one of R172's three conditions holds; a log whose fields are absent asserts nothing. -/
def State.attnRight (s : State) : Prop :=
  s.writer.attn = true ↔
    ((∃ l : LogId, ∃ f, s.writer.logs[l.idx].fields = some f ∧
        f.notify ≤ (s.writer.logs[l.idx].written - s.writer.logs[l.idx].consumer).toNat) ∨
      s.writer.lastCompletion ≠ s.cmd.seen ∨
      (s.writer.logs[LogId.fault.idx].fields ≠ none ∧
        s.writer.logs[LogId.fault.idx].written ≠ s.writer.logs[LogId.fault.idx].consumer))

/-- The accumulator lies at or below the high-water mark and at or above −2^48 µm, and the high-water mark at or below the
position limit of the fields in use, which the POSITION_LIMIT flag says it has reached (R5, R6, R9). -/
def State.positionRight (s : State) : Prop :=
  s.travel.acc ≤ s.travel.high ∧ -(2 ^ 48 * 65536) ≤ s.travel.acc ∧
    ∀ f, s.travel.fields = some f →
      s.travel.high ≤ (2 ^ 32 * f.pitch - 1) * 65536 ∧
        (s.travel.positionLimit = true → s.travel.high = (2 ^ 32 * f.pitch - 1) * 65536)

/-- With fields in their ranges and a next trigger point held, the trigger count n satisfies n × L_p ≤ P < (n + 1) × L_p,
and the next trigger point is (n + 1) × L_p (R7). -/
def State.triggersRight (s : State) : Prop :=
  ∀ f n, s.travel.fields = some f → s.travel.nextPoint = some n → 1 ≤ f.pitch → f.scale ≤ f.pitch * 65536 →
    s.travel.count * f.pitch ≤ s.travel.pos ∧ s.travel.pos < (s.travel.count + 1) * f.pitch ∧
      n = (s.travel.count + 1) * f.pitch

/-- What n declarations of one event do to a lane in a capturing state, the accounted line and the declared-line list apart:
the lines declared counter rises by n; in LOCKING the lock counter is 0; in TRACKING the consecutive misses rise by n, and
the one that reaches S_stall takes the lane to DROPOUT with one more dropout and no misses (R28). -/
def Lane.declaring (stall n : Nat) (l : Lane) : Lane :=
  let c := { l.counters with declared := min 4294967295 (l.counters.declared + n) }
  if n = 0 then l
  else match l.state with
  | .locking => { l with lock := 0, counters := c }
  | .tracking =>
    if l.misses + n < stall then { l with misses := l.misses + n, counters := c }
    else { l with state := .dropout, misses := 0, counters := { c with dropouts := min 4294967295 (c.dropouts + 1) } }
  | _ => { l with counters := c }

/-- A lane in RUNNING that has settled every line below x, with no completed line awaiting analysis (R32). -/
def Lane.settledBelow (l : Lane) (x : Nat) : Prop :=
  l.runState = .running ∧ l.bufA.state ≠ .ready ∧ l.bufB.state ≠ .ready ∧ l.declared = [] ∧ l.settled + 1 = x

/-- A lane's buffers once its line in progress, if any, is abandoned: that line's buffer is FREE (R26). -/
def Lane.abandoned (l : Lane) : Lane :=
  match l.line with
  | none => l
  | some p =>
    match p.buffer with
    | .a => { l with bufA := Buffer.empty, line := none }
    | .b => { l with bufB := Buffer.empty, line := none }

/-- The cause recorded at declaration i, counted from 0, of one event that gives a cause: DROPOUT in DROPOUT, and in TRACKING
once S_stall has been reached (R28). -/
def Lane.declaredCause (stall : Nat) (given : GapCause) (l : Lane) (i : Nat) : GapCause :=
  match l.state with
  | .dropout => .dropout
  | .tracking => if l.misses + i < stall then given else .dropout
  | _ => given

/-- The lane l, as an event leaves it in RUNNING, re-evaluates its settled line and becomes t: it rises to one below the lowest
pending line, or to the accounted line when none is pending, and never falls; the declared lines it has reached are removed, and
nothing else changes (R32). -/
def Lane.settlesTo (l t : Lane) : Prop :=
  let pending : List Nat := (if l.bufA.state = .ready then [l.bufA.line] else []) ++
    (if l.bufB.state = .ready then [l.bufB.line] else []) ++ (l.line.map (·.line)).toList
  (pending = [] → t.settled = max l.settled l.accounted) ∧
    (∀ y ∈ pending, (∀ z ∈ pending, y ≤ z) → t.settled = max l.settled (y - 1)) ∧
    t = { l with
      settled := t.settled
      declared := if l.settled < t.settled then l.declared.filter fun d => decide (t.settled < d.line) else l.declared }

/-- The gap lines of lane k, left as l by an event, when its settled line rises to top: of the lines risen over, in increasing
order, those declared, with the cause recorded, and line x with the cause given, if any; none when the owned range does not meet
the net range (R32, R33). -/
def Lane.gapsTo (l : Lane) (sh : Shadow) (k : LaneId) (x : Nat) (cause : Option GapCause) (top : Nat) :
    List (Nat × GapCause) :=
  let causeOf : Nat → Option GapCause := fun y =>
    match l.declared.find? fun d => decide (d.line = y) with
    | some d => some d.cause
    | none => if y = x then cause else none
  if sh.netLo ≤ sh.lanes[k].ownHi ∧ sh.lanes[k].ownLo ≤ sh.netHi then
    (List.range' (l.settled + 1) (top - l.settled)).filterMap fun y => (causeOf y).map fun c => (y, c)
  else []

/-- What a lane, left as l by an event, hands the assembler when its settled line becomes top: the gap lines, and then the
settled line if it has risen (R32). -/
def Lane.reports (l : Lane) (gaps : List (Nat × GapCause)) (top : Nat) : List LaneMsg :=
  gaps.map (fun g => .gap g.1) ++ if l.settled < top then [.settled top] else []

/-- From s to t, lane k, left as l by an event, re-evaluates its settled line in RUNNING, and its gap lines, those declared and
line x with the cause given, go to the assembler with their increments before the new settled line; nothing else is sent (R32,
R33). -/
def State.settlesAfter (s t : State) (sh : Shadow) (k : LaneId) (l : Lane) (x : Nat) (cause : Option GapCause) : Prop :=
  let gaps := l.gapsTo sh k x cause t.lanes[k].settled
  l.settlesTo t.lanes[k] ∧
    t.wires = { s.wires with
      laneMsgs := upd s.wires.laneMsgs k fun q => q ++ s.tagAll (l.reports gaps t.lanes[k].settled)
      increments := s.wires.increments ++ gaps.map fun g => (.lane k, .gapLine g.2) }

/-- The lane l as an event that declares lines, in a state in which declarations are counted alone, leaves it before its settled
line is re-evaluated: the lines join the declared-line list with the cause, the lines declared counter rises by their number, and
the accounted line rises to n (R20, R27, R28, R30). -/
def Lane.declaredUpTo (l : Lane) (lines : List Nat) (cause : GapCause) (n : Nat) : Lane :=
  { l.declaring 0 lines.length with
    accounted := max l.accounted n
    declared := l.declared ++ lines.map fun x => { line := x, cause := cause } }

/-- The lines that a lane declares when it gives up its line in progress, if any, and every line up to the trigger count: that
line, and those above the accounted line (R20, R30). -/
def Lane.givenUp (l : Lane) : List Nat :=
  (l.line.map (·.line)).toList ++ List.range' (l.accounted + 1) (l.trigger - l.accounted)

/-- The lowest of a list of numbers; 0 for none. -/
def least (xs : List Nat) : Nat := xs.foldl min (xs.headD 0)

/-- The highest of a list of numbers; 0 for none. -/
def most (xs : List Nat) : Nat := xs.foldl max 0

/-- The items, id, first line and CONTINUED apart, of the blob that the runs of line n make of the blobs they reach, or by
themselves when they reach none: the front from the runs alone, its extent, level and peak over all, its sum and area added up,
saturating, its polarities, lanes and marks united, MERGED for two or more blobs (R64), and PARTIAL_VIEW when some lane that
meets it and the net range did not inspect the line (R65). -/
def Blob.grownFrom (sh : Shadow) (n : Nat) (entry : LaneId → Option JoinEntry) (old : List Blob) (runs : List PixelRun)
    (b : Blob) : Prop :=
  b.front = n ∧ b.frontLo = least (runs.map (·.lo)) ∧
    b.frontHi = most (runs.map (·.hi)) ∧ b.lo = least (old.map (·.lo) ++ runs.map (·.lo)) ∧
    b.hi = most (old.map (·.hi) ++ runs.map (·.hi)) ∧
    (b.dark = true ↔ (∃ o ∈ old, o.dark = true) ∨ ∃ r ∈ runs, r.polarity ≠ .bright) ∧
    (b.bright = true ↔ (∃ o ∈ old, o.bright = true) ∨ ∃ r ∈ runs, r.polarity ≠ .dark) ∧
    b.level.code = most (old.map (·.level.code) ++ runs.map (·.level.code)) ∧
    b.peak = most (old.map (·.peak) ++ runs.map (·.peak)) ∧
    b.sum = min 4294967295 ((old.map (·.sum)).sum + (runs.map (·.sum)).sum) ∧
    b.area = min 4294967295 ((old.map (·.area)).sum + (runs.map fun r => r.last - r.first + 1).sum) ∧
    (∀ k : LaneId, b.lanes[k] = true ↔ (∃ o ∈ old, o.lanes[k] = true) ∨ ∃ r ∈ runs, r.lane = k) ∧
    (b.flags.merged = true ↔ 1 < old.length ∨ ∃ o ∈ old, o.flags.merged = true) ∧
    (b.flags.crowded = true ↔ (∃ o ∈ old, o.flags.crowded = true) ∨ ∃ r ∈ runs, r.crowded = true) ∧
    (b.flags.partialView = true ↔ (∃ o ∈ old, o.flags.partialView = true) ∨ ∃ k : LaneId,
      (∀ x, entry k = some x → x.blind = true) ∧ sh.netLo ≤ sh.lanes[k].ownHi ∧ sh.lanes[k].ownLo ≤ sh.netHi ∧
      sh.lanes[k].ownLo ≤ b.hi ∧ b.lo ≤ sh.lanes[k].ownHi)

/-- The record of the flaw that an open blob becomes when the flush closes it as flaw n with a disposition: the items of R70,
with the class of R71 under the DETECT group given, and the blob's flags as they stand (R69, R70, R71, R72). -/
def Blob.flushedAs (b : Blob) (pitch : Nat) (d : DetectGroup) (run : Word16) (n : Nat) (disposition : Disposition) :
    FlawRecord :=
  let length := (b.front + 1) * pitch - b.first * pitch
  let width := b.hi - b.lo + 1
  { run := run, number := n, disposition := disposition, severity := b.level
    cls :=
      if length ≤ d.pointSize ∧ width ≤ d.pointSize then .point
      else if 4 * width ≤ length then .streak
      else if 4 * length ≤ width then .band
      else .area
    polarity := if b.dark = true ∧ b.bright = true then .mixed else if b.bright = true then .bright else .dark
    flags := b.flags, lanes := b.lanes, first := b.first, front := b.front, start := b.first * pitch
    stop := (b.front + 1) * pitch, lo := b.lo, hi := b.hi, peak := b.peak, sum := b.sum, area := b.area }

/-- The midpoint of a flaw (R70). -/
def FlawRecord.midpoint (r : FlawRecord) : Nat := (r.start + r.stop) / 2

/-- The Flaw Table entry of a held flaw, its planning flags clear (R73). -/
def FlawRecord.entry (r : FlawRecord) : FlawEntry :=
  { number := r.number, start := r.start, stop := r.stop, midpoint := r.midpoint, severity := r.severity, cls := r.cls,
    polarity := r.polarity, flags := r.flags, late := false, unplanned := false }

/-- The tally increment of a flaw: EDGE for an EDGE flaw, else its class and severity, with ORPHAN for an ORPHAN (R72). -/
def FlawRecord.increment (r : FlawRecord) : Increment :=
  if r.disposition = .edge then .edgeFlaw else .flaw r.cls r.severity (decide (r.disposition = .orphan))

/-- The order of the Flaw Table: midpoint, then flaw number (R73). -/
def FlawEntry.inOrder (f g : FlawEntry) : Prop := f.midpoint < g.midpoint ∨ (f.midpoint = g.midpoint ∧ f.number ≤ g.number)

/-- A log restarted by new fields: it had none, or its base or entry count changes (R163). -/
def LogState.restartedBy (g : LogState) (new : LogFields) : Bool :=
  match g.fields with
  | none => true
  | some old => decide (old.base ≠ new.base) || decide (old.entries ≠ new.entries)

/-- An image of a size shows the fields given by offset, size in bytes and value, each little-endian in the low bytes of its
value, and zero in every byte outside them (chapter 11, R174). -/
def imageShows (image : List Byte) (size : Nat) (fields : List (Nat × Nat × Nat)) : Prop :=
  image.length = size ∧ (∀ f ∈ fields, field image f.1 f.2.1 = f.2.2 % 256 ^ f.2.1) ∧
    ∀ i, i < size → (∀ f ∈ fields, i < f.1 ∨ f.1 + f.2.1 ≤ i) → byteAt image i = 0

/-- A track entry that has not left the track: its score state and its snap state are not both DONE (R106). -/
def TrackEntry.standing (e : TrackEntry) : Bool := !(decide (e.score = .done) && decide (e.snap = .done))

/-- A track entry once every one of its targets among `reached` has arrived: a score end makes the score state DONE, a snap
end the snap state DONE, and a snap start a WAITING snap ON (R106). -/
def TrackEntry.after (reached : Nat → Bool) (e : TrackEntry) : TrackEntry :=
  { e with
    score := if reached e.scoreEnd then .done else e.score
    snap := if reached e.snapEnd then .done else if reached e.snapStart && decide (e.snap = .waiting) then .on else e.snap }

/-- The gate list once every target among `reached` has arrived: a window whose end has arrived is gone, and one whose start
has arrived is recorded so (R110). -/
def gatesAfter (reached : Nat → Bool) (gs : List GateWindow) : List GateWindow :=
  (gs.filter fun g => !reached g.stop).map fun g => { g with arrived := g.arrived || reached g.start }

/-- Whether an entry of the pass-through queue is a translated view read of the Fault Log that overlaps one of some pending
rewrites, position by position of its ring (R156). -/
def PassEntry.overlaps (rs : List PendingRewrite) (e : PassEntry) : Bool :=
  match e.mark, e.region with
  | .translated _, .view .fault _ =>
    rs.any fun r => decide (r.position * 32 < e.viewAt + e.req.span) && decide (e.viewAt < (r.position + 1) * 32)
  | _, _ => false

/-- A pass-through queue with every read that overlaps a pending rewrite held (R156). -/
def heldAgainst (rs : List PendingRewrite) (q : List PassEntry) : List PassEntry :=
  q.map fun e => { e with held := e.held || e.overlaps rs }

/-- How many reads of a pass-through queue are newly held (R158). -/
def newlyHeld (rs : List PendingRewrite) (q : List PassEntry) : Nat :=
  (q.filter fun e => !e.held && e.overlaps rs).length

/-- Whether the entry at place i of a pass-through queue leaves it without the M-port: it is refused or answered locally,
and so is every older entry of its source (R144). -/
def leavesAlone (q : List PassEntry) (i : Nat) : Bool :=
  match q[i]? with
  | none => false
  | some e => (q.take (i + 1)).all fun x => decide (x.req.source = e.req.source → x.isLocal = true)

/-- The path t after every entry of the path p that leaves without the M-port has left with its response, DONE for one
answered locally and REFUSED otherwise, with zeros for a read: the others stay in their order; a response returns when every
older request of its source has been answered, and otherwise waits behind them (R144, R148, R149). -/
def Path.settledInto (p t : Path) : Prop :=
  t.queue = ((List.range p.queue.length).filter fun i => !leavesAlone p.queue i).filterMap (fun i => p.queue[i]?) ∧
    (∃ rs, t.returned = p.returned ++ rs) ∧
    ∀ (i : Nat) (e : PassEntry) (before after : List ResponseSlot), p.queue[i]? = some e → leavesAlone p.queue i = true →
      (∀ x ∈ p.queue, x.id = e.id → x = e) →
      p.slots = before ++ { id := e.id, source := e.req.source, response := none } :: after →
      let r : Response :=
        { source := e.req.source, done := decide (e.mark = .localZeros),
          data := match e.kind with
            | .read => List.replicate e.req.span 0
            | .write => [] }
      ((∀ x ∈ before, x.source = e.req.source → x.response ≠ none) → r ∈ t.returned) ∧
        ((∃ x ∈ before, x.source = e.req.source ∧ x.response = none ∧ ∀ y ∈ p.queue, y.id ≠ x.id) →
          ({ id := e.id, source := e.req.source, response := some r } : ResponseSlot) ∈ t.slots)

/-- The ring positions of a log whose sequence words, the last four bytes of an entry, lie wholly within the n bytes at an
offset (R155). -/
def positionsWithin (size offset n : Nat) : List Nat :=
  (List.range (offset + n)).filter fun x => decide (offset ≤ x * size + (size - 4)) && decide (x * size + size ≤ offset + n)

/-- A run of n steps that meets no fault and no refusal. -/
def runSteps : Nat → State → Option State
  | 0, s => some s
  | n + 1, s =>
    match step s with
    | .next t => runSteps n t
    | .fault _ => none
    | .refused _ => none

end Sys2Proof.Machine
end

