-- ==== Sys2Proof/Certificates/Slice0/Obligations.lean ====
section
/-! DEFINITION. The statements for the provers, each a proposition over the model. The docstring of each names the rules of
spec/ it comes from, or says that it is the model's own choice and names the log entry. -/

open Sys2Proof Sys2Proof.Machine

/-! ## The step and the invariants -/

/-- One step carries out the command at the front of the queue on the state with the queue's rest; with no command waiting
the part idles, which is the model's choice (notes/assumptions/2). -/
def Obligations.StepTakesTheFrontCommand : Prop :=
  (∀ (c : Instr) (s : State), step { s with pending := c :: s.pending } = exec c s) ∧
    ∀ s : State, s.pending = [] → step s = .next s

/-- The state after power-on meets every invariant below. -/
def Obligations.ResetMeetsTheInvariants : Prop :=
  State.reset.memoryWf ∧ State.reset.runStatesAgree ∧ State.reset.queuesBounded ∧ State.reset.joinQueuesBounded ∧
    State.reset.topFlawsBounded ∧
    State.reset.calendarsValid ∧ State.reset.outputsRight ∧ State.reset.attnRight ∧ State.reset.positionRight ∧
    State.reset.triggersRight

/-- Every step keeps the canonical form of the memory behind the M-port; the form is the model's own. -/
def Obligations.MemoryStaysCanonical : Prop :=
  ∀ s t : State, s.memoryWf → step s = .next t → t.memoryWf

/-- Every step keeps the run state that the Lane Units, the Shift Unit and the Path Unit hold equal to the Command Unit's,
which hands it to them at each change (R162). -/
def Obligations.RunStatesStayInAgreement : Prop :=
  ∀ s t : State, s.runStatesAgree → step s = .next t → t.runStatesAgree

/-- Every step keeps the pass-through queue within 32 entries (R143), the internal queue within 16 (R157), the Flaw Table
within 512 (R73), the gap list within 64 (R77), the strike track within 4 (R105) and the gate list within 8 (R110).

Every step keeps each join queue within 8 entries, with room left for a TRACK line in analysis (R39, R42).

Every step keeps the top-flaw list of every plate record in grading, on the outbound list or on offer within 16 flaws
(R122). -/
def Obligations.QueuesStayBounded : Prop :=
  (∀ s t : State, s.queuesBounded → step s = .next t → t.queuesBounded) ∧
  (∀ s t : State, s.joinQueuesBounded → step s = .next t → t.joinQueuesBounded) ∧
  (∀ s t : State, s.topFlawsBounded → step s = .next t → t.topFlawsBounded)

/-- Every step keeps the calendar and the Record Writer's copy of it within the ranges of R129. -/
def Obligations.CalendarStaysInRange : Prop :=
  ∀ s t : State, s.calendarsValid → step s = .next t → t.calendarsValid

/-- Every step keeps the levels of SCORE, SNAP and GATE what the strike track and the gate list call for (R106, R110). -/
def Obligations.OutputsFollowTrackAndGates : Prop :=
  ∀ s t : State, s.outputsRight → step s = .next t → t.outputsRight

/-- Every step keeps ATTN asserted exactly while one of the three conditions of R172 holds. -/
def Obligations.AttnFollowsItsCondition : Prop :=
  ∀ s t : State, s.attnRight → step s = .next t → t.attnRight

/-- Every step keeps the accumulator at or below the high-water mark and within its range, and the high-water mark within
the position limit (R5, R6, R9); and it keeps n × L_p ≤ P < (n + 1) × L_p, with the next trigger point at (n + 1) × L_p
(R7). -/
def Obligations.TriggersFollowThePosition : Prop :=
  ∀ s t : State, s.positionRight → s.triggersRight → step s = .next t → t.positionRight ∧ t.triggersRight

/-- The high-water mark, and with it P, falls only at power-on, at warm reset and at the run reset of START_RUN and
RESET_RUN (R6, R16). -/
def Obligations.PositionNeverFalls : Prop :=
  ∀ (c : Instr) (s t : State), s.positionRight → exec c s = .next t →
    match c with
    | .powerOn | .warmReset | .startRun | .resetRun => True
    | _ => s.travel.high ≤ t.travel.high ∧ s.travel.pos ≤ t.travel.pos

/-! ## Frames -/

/-- No command but M_PORT_SEND changes a byte of the memory behind the M-port; M_PORT_SEND changes no byte outside the span
of the transaction that leaves: the oldest ready entry of the pass-through queue, or, at the internal queue's turn, its head
(R144, R157). -/
def Obligations.MemoryFrame : Prop :=
  ∀ (c : Instr) (s t : State), exec c s = .next t →
    match c with
    | .mPortSend => ∀ a,
      match readyEntry [] s.path.queue, s.path.internal, s.path.marker with
      | some (e, _), [], _ | some (e, _), _ :: _, .internal =>
        e.kind = .read ∨ a < e.target ∨ e.target + e.req.data.length ≤ a → readByte t.mem a = readByte s.mem a
      | _, x :: _, _ => x.write = false ∨ a < x.addr ∨ x.addr + x.data.length ≤ a → readByte t.mem a = readByte s.mem a
      | none, [], _ => readByte t.mem a = readByte s.mem a
    | _ => t.mem = s.mem

/-- The commands that reach the blocks of the detection chain: every other command leaves the Travel Unit, the Lane Units,
the Pixel Engine and the Blob Assembler as they were (chapters 1 to 4; 95_what_each_step_holds.md). -/
def Obligations.DetectionFrame : Prop :=
  ∀ (c : Instr) (s t : State), exec c s = .next t →
    (match c with
      | .powerOn | .warmReset | .resetEnd _ _ _ | .encoderEdge _ _ | .tb32kPeriod | .unitTick | .stopTimerExpiry
      | .secondEnd | .travelSecondTick | .startRun | .resetRun => True
      | _ => t.travel = s.travel) ∧
    (match c with
      | .powerOn | .warmReset | .configure | .startRun | .stopRun | .resetRun | .runEndCompletion => True
      | .laneLineTrigger k | .landingWrite k => ∀ j : LaneId, j ≠ k → t.lanes[j] = s.lanes[j]
      | .analysisCompletion => ∀ a, s.engine.analysis = some a → ∀ j : LaneId, j ≠ a.entry.lane → t.lanes[j] = s.lanes[j]
      | .laneEnable | .laneDisable =>
        ∀ n bytes, s.cmd.execution = some { slot := n, phase := .ready bytes } →
          ∀ j : LaneId, slotMask bytes j = false → t.lanes[j] = s.lanes[j]
      | _ => t.lanes = s.lanes) ∧
    (match c with
      | .powerOn | .warmReset | .startRun | .stopRun | .resetRun | .analysisBegin => True
      | .landingWrite _ | .laneLineTrigger _ | .laneEnable | .laneDisable =>
        t.engine.analysis = s.engine.analysis ∧ t.engine.lanes = s.engine.lanes
      | .analysisCompletion | .join => True
      | _ => t.engine = s.engine) ∧
    (match c with
      | .powerOn | .warmReset | .gapLine _ | .settledLine _ | .join | .mark | .gather | .startRun | .stopRun
      | .resetRun => True
      | _ => t.asm = s.asm)

/-- The commands that reach the blocks of the cutting chain: every other command leaves the Cut Planner, the Strike Unit and
the Grading Unit as they were (chapters 5 to 7; 95_what_each_step_holds.md). -/
def Obligations.CuttingFrame : Prop :=
  ∀ (c : Instr) (s t : State), exec c s = .next t →
    (match c with
      | .powerOn | .warmReset | .heldFlaw | .scanAnswer | .joinedLine | .plannerRise | .flushEnd | .strikeClaim
      | .pieceRemoval | .waitingLogMove | .runEndCompletion | .startRun | .resetRun | .manualCut => True
      | _ => t.planner = s.planner) ∧
    (match c with
      | .powerOn | .warmReset | .headOffer | .strikeRise | .strikeGrant | .claimWithdrawal | .gradeAnswer
      | .runEndCompletion | .startRun | .resetRun => True
      | _ => t.strike = s.strike) ∧
    (match c with
      | .powerOn | .warmReset | .gradingHandoff | .gradingBegin | .gatherAnswer | .stamp | .plateAccepted | .plateFull
      | .plateRoom | .startRun | .resetRun => True
      | _ => t.grading = s.grading)

/-- The commands that reach the clock, the tally, the run state, the configuration with the five groups' copies and the
mirror, the memory path with its two queues, its pending rewrites, its turn marker and its counters, and the logs: every
other command leaves them as they were (chapters 8 to 10; 95_what_each_step_holds.md). -/
def Obligations.ControlFrame : Prop :=
  ∀ (c : Instr) (s t : State), exec c s = .next t →
    (match c with
      | .powerOn | .tb32kPeriod | .secondEnd | .setClock => True
      | _ => t.shift.calendar = s.shift.calendar ∧ t.shift.sub = s.shift.sub) ∧
    (match c with
      | .powerOn | .warmReset | .resetEnd _ _ _ | .tb32kPeriod | .secondEnd | .gradingIncrements | .tallyIncrement _
      | .shiftAccepted | .shiftFull | .shiftRoom | .configure | .startRun | .stopRun | .resetRun | .setClock
      | .closeShift | .runEndCompletion | .verdictRequest => True
      | _ => t.shift = s.shift) ∧
    (match c with
      | .powerOn | .warmReset | .configure | .startRun | .stopRun | .resetRun | .runEndCompletion => True
      | _ => t.cmd.runState = s.cmd.runState) ∧
    (match c with
      | .powerOn | .warmReset | .configure => True
      | _ => t.cmd.shadow = s.cmd.shadow ∧ t.path.map = s.path.map ∧ t.cmd.lastReason = s.cmd.lastReason) ∧
    (match c with
      | .powerOn | .warmReset | .resetEnd _ _ _ | .busRead _ | .busWrite _ | .postWordWrite _ | .sequenceWordWrite _
      | .takeViewRead _ | .peekViewRead _ | .verdict | .rewriteAnnouncement | .mPortSend => True
      | _ => t.path.queue = s.path.queue) ∧
    (match c with
      | .powerOn | .warmReset | .plateOffer | .shiftReportOffer | .flawRecord | .fault _ | .releaseRequest | .configure
      | .startRun | .resetRun | .mPortSend => True
      | _ => t.writer.logs = s.writer.logs) ∧
    (match c with
      | .powerOn | .warmReset | .resetEnd _ _ _ | .landingWrite _ | .laneLineTrigger _ | .laneEnable | .laneDisable
      | .analysisCompletion | .configure | .startRun | .stopRun | .resetRun | .runEndCompletion | .writerSecondTick
      | .flawRecord | .plateOffer | .shiftReportOffer | .fault _ | .commandTake | .commandCompletion | .mPortSend => True
      | _ => t.path.internal = s.path.internal) ∧
    (match c with
      | .powerOn | .warmReset | .rewriteAnnouncement | .mPortSend => True
      | _ => t.path.rewrites = s.path.rewrites) ∧
    (match c with
      | .powerOn | .warmReset | .mPortSend => True
      | _ => t.path.marker = s.path.marker ∧ t.path.forwarded = s.path.forwarded) ∧
    (match c with
      | .powerOn | .warmReset | .resetEnd _ _ _ | .busRead _ | .busWrite _ | .postWordWrite _ | .sequenceWordWrite _
      | .takeViewRead _ | .peekViewRead _ | .verdict | .mPortSend => True
      | .rewriteAnnouncement => t.path.refused = s.path.refused
      | _ => t.path.refused = s.path.refused ∧ t.path.heldReads = s.path.heldReads) ∧
    (match c with
      | .powerOn | .warmReset | .configure | .startRun | .verdictRequest => True
      | _ =>
        t.cmd.clock = s.cmd.clock ∧
          (c ≠ .analysisBegin → c ≠ .join → t.cmd.detect = s.cmd.detect) ∧
          (c ∉ [.heldFlaw, .scanAnswer, .joinedLine, .plannerRise, .flushEnd, .strikeClaim, .pieceRemoval, .manualCut] →
            t.cmd.plan = s.cmd.plan) ∧
          (c ≠ .gradingBegin → t.cmd.grade = s.cmd.grade) ∧ (c ≠ .strikeGrant → t.cmd.strike = s.cmd.strike)) ∧
    (match c with
      | .powerOn | .warmReset | .configure => True
      | .mPortSend => t.cmd.invalid = s.cmd.invalid
      | .verdictRequest => t.cmd.mirror = s.cmd.mirror
      | _ => t.cmd.mirror = s.cmd.mirror ∧ t.cmd.invalid = s.cmd.invalid)

/-! ## Power-on, warm reset and the end of a reset -/

/-- POWER_ON: the power-on column of every chapter's reset table. That the memory behind the M-port keeps its bytes, that the
reset holds until RESET_END, that until then the reference pair reads 00 and, from power-on, the anchor base 0, and that the
run number the Command Unit holds is 0 after both resets, are the model's choices (notes/assumptions/1, notes/assumptions/3,
notes/assumptions/41).

Every block is stated whole, field by field, with the messages between blocks: none is under way.

WARM_RESET keeps the calendar, the sub-second counter, the clock-valid flag, the trim, the shift and run numbers, and, until
the end of the reset, the tally and the anchor base (R142, R146); it leaves every other block whole in its warm-reset state,
outputs released and no message under way.

That requests held off outlast a warm reset, with the responses already returned and the model's own numbering and counts of
pulses, is the model's reading and its own record (notes/assumptions/9, notes/assumptions/20). -/
def Obligations.PowerOnAndWarmReset : Prop :=
  (∀ s : State, ∃ t : State, exec .powerOn s = .next t ∧ t.inReset = true ∧ t.pending = s.pending ∧ t.mem = s.mem ∧
     t.shift.calendar = { year := 2000, month := 1, day := 1, weekday := 6, hour := 0, minute := 0, second := 0 } ∧
     t.shift.sub = 0 ∧ t.shift.trim = 0 ∧ t.shift.valid = false ∧ t.shift.table = none ∧ t.shift.number = 0 ∧
     t.shift.run = 0 ∧ t.shift.hold = .empty ∧ t.shift.tally.slot = .reset ∧ t.shift.tally.clockUnset = true ∧
     t.cmd.runState = .transparent ∧ t.cmd.shadow = none ∧ t.cmd.taken = 0 ∧ t.cmd.completion = 0 ∧
     t.cmd.execution = none ∧ t.path.map = none ∧ t.path.queue = [] ∧ t.path.internal = [] ∧ t.path.marker = .internal ∧
     t.travel.acc = 0 ∧ t.travel.high = 0 ∧ t.travel.nextPoint = none ∧ t.travel.motion = .stopped ∧
     (∀ k : LaneId, t.lanes[k].state = .off ∧ t.lanes[k].enabled = false ∧
       t.engine.lanes[k].background = List.replicate 8192 0 ∧ t.engine.lanes[k].hold = List.replicate 8192 0) ∧
     t.asm.blobs = [] ∧ t.asm.nextFlaw = 1 ∧ t.asm.table = [] ∧ t.planner.pieces = [] ∧ t.planner.cuts = [] ∧
     t.strike.track = [] ∧ t.strike.gates = [] ∧ t.strike.score.level = false ∧ t.strike.snap.level = false ∧
     t.strike.gate.level = false ∧ t.grading.state = .idle ∧ t.grading.queue = [] ∧ t.writer.attn = false ∧
     (∀ l : LogId, t.writer.logs[l.idx].fields = none ∧ t.writer.logs[l.idx].nextSeq = 1) ∧
     t = { State.reset with pending := s.pending, mem := s.mem }) ∧
  (State.reset.pending = [] ∧ State.reset.inReset = true ∧ State.reset.epoch = 0 ∧ State.reset.mem = [] ∧
   State.reset.travel =
     { fields := none, refA := false, refB := false, acc := 0, high := 0, count := 0, nextPoint := none,
       positionLimit := false, motion := .stopped, timer := 0, heldPos := 0, speed := 0, quadErrors := 0, divider := 0,
       pulses := 0 } ∧
   State.reset.lanes = Vector.replicate 8
     { enabled := false, state := .off, accounted := 0, trigger := 0, runState := .transparent, line := none,
       bufA := { state := .free, line := 0, mode := none, pixels := [] },
       bufB := { state := .free, line := 0, mode := none, pixels := [] }, declared := [], lock := 0, misses := 0,
       seeded := false, settled := 0,
       counters := { completed := 0, declared := 0, stale := 0, torn := 0, overruns := 0, dropouts := 0 } } ∧
   State.reset.engine =
     { analysis := none, ready := []
       lanes := Vector.replicate 8
         { background := List.replicate 8192 0, hold := List.replicate 8192 0, join := [], crowded := 0 } } ∧
   State.reset.asm =
     { settled := Vector.replicate 8 0, joined := 0, blobs := [], nextBlob := 1, markers := [], nextFlaw := 1, table := [],
       gradedTail := none, overflow := none, gaps := [], forced := 0, truncated := 0, numbersPast := 0 } ∧
   State.reset.planner =
     { pieces := [], openPiece := none, cuts := [], nextPiece := 1, frontier := 0, cf := none, overdue := false,
       runEnd := .none, markedLate := [], markedUnplanned := [], numbersPast := 0 } ∧
   State.reset.strike =
     { offered := none, claiming := none, track := [], gates := [], lastPos := 0, strikes := 0, withdrawn := 0,
       merges := 0, score := { level := false, asserted := 0 }, snap := { level := false, asserted := 0 },
       gate := { level := false, asserted := 0 } } ∧
   State.reset.grading =
     { queue := [], state := .idle, group := none, outbound := [], outstanding := false, logFull := false, graded := 0,
       held := 0 } ∧
   State.reset.shift =
     { calendar := { year := 2000, month := 1, day := 1, weekday := 6, hour := 0, minute := 0, second := 0 }
       sub := 0, trim := 0, valid := false, table := none, number := 0, run := 0, runState := .transparent
       tally :=
         { shift := 0, slot := .reset, clockSet := false, clockUnset := true, merged := 0, runs := none
           start := { year := 2000, month := 1, day := 1, weekday := 6, hour := 0, minute := 0, second := 0 }
           counters := TallyCounters.zero }
       hold := .empty } ∧
   State.reset.path =
     { anchorBase := 0, runState := .transparent, map := none, queue := [], heldOff := [], internal := [], rewrites := [],
       marker := .internal, forwarded := 0, refused := 0, heldReads := 0, slots := [], returned := [], atMemory := [],
       nextId := 0 } ∧
   State.reset.cmd =
     { runState := .transparent, lastReason := none, shadow := none, post := 0, seen := 0,
       mirror := Vector.replicate 5 none, invalid := Vector.replicate 5 false,
       detect := { active := none, eligible := none }, plan := { active := none, eligible := none },
       grade := { active := none, eligible := none }, strike := { active := none, eligible := none },
       clock := { active := none, eligible := none }, taken := 0, completion := 0, execution := none, run := 0,
       waiting := [] } ∧
   State.reset.writer =
     { logs := Vector.replicate 4
         { fields := none, producer := 0, consumer := 0, written := 0, nextSeq := 1, refused := false, gen := 0 }
       collapse := Vector.replicate 16 none, flawLost := 0, faultLost := 0, pageSeq := 0
       calendar := { year := 2000, month := 1, day := 1, weekday := 6, hour := 0, minute := 0, second := 0 }
       clockValid := false, lastCompletion := 0, attn := false, waiting := [], nextRewrite := 0 } ∧
   State.reset.wires =
     { unitTicks := 0, travelTicks := 0, writerTicks := 0, plannerRises := [], strikeRises := [],
       triggers := Vector.replicate 8 [], landing := Vector.replicate 8 [], laneMsgs := Vector.replicate 8 [],
       asmPlanner := [], plannerAsm := [], gathers := [], gatherAnswers := [], plannerStrike := [], claims := [],
       runEnds := [], handoffs := [], gradeAnswers := [], pieceReqs := [], gradingIncs := [], increments := [],
       stamps := [], plateOffers := [], plateAnswers := [], shiftOffers := [], shiftAnswers := [], flawRecords := [],
       faults := [], releases := [], announcements := [], verdictAsks := [], verdicts := [], seenWrites := [] }) ∧
  (∀ s : State, exec .warmReset s = .next { s with
     inReset := true
     travel := { State.reset.travel with pulses := s.travel.pulses }
     lanes := State.reset.lanes
     engine := State.reset.engine
     asm := { State.reset.asm with numbersPast := s.asm.numbersPast }
     planner := { State.reset.planner with numbersPast := s.planner.numbersPast }
     strike := { State.reset.strike with
       score := { level := false, asserted := s.strike.score.asserted }
       snap := { level := false, asserted := s.strike.snap.asserted }
       gate := { level := false, asserted := s.strike.gate.asserted } }
     grading := State.reset.grading
     shift := { s.shift with table := none, runState := .transparent, hold := .empty }
     path := { State.reset.path with
       anchorBase := s.path.anchorBase, heldOff := s.path.heldOff, returned := s.path.returned, nextId := s.path.nextId }
     cmd := State.reset.cmd
     writer := State.reset.writer
     wires := State.reset.wires })

/-- RESET_END: the straps give the anchor base and the levels the reference pair, a tally opens with slot RESET, the Record
Writer takes the calendar, completion word 0 and a status page are queued, and the requests held off at the C-port are
taken while there is room.

After POWER_ON or WARM_RESET that page carries sequence 1 and shows run state TRANSPARENT, and zero or absent in every field but
the sequence words, the Path Unit's and the Shift Unit's, for no block holds a configuration (R176).

That requests presented in reset were held off and are taken here, the cutting of the page into ten writes, and that the
fields no configuration gives show their values, are the model's (notes/assumptions/10, notes/assumptions/20,
notes/assumptions/36). -/
def Obligations.ResetEndSamplesStrapsAndLevels : Prop :=
  (∀ (sel : Fin 16) (a b : Bool) (s : State), s.inReset = true → s.shift.runState = .transparent →
     ∃ t : State, exec (.resetEnd sel a b) s = .next t ∧ t.inReset = false ∧ t.path.anchorBase = sel.val * (128 * 1024 * 1024) ∧
       t.travel = { s.travel with refA := a, refB := b } ∧
       t.shift = { s.shift with tally :=
         { shift := s.shift.number, start := s.shift.calendar, slot := .reset, clockSet := false,
           clockUnset := !s.shift.valid, merged := 0, runs := none, counters := TallyCounters.zero } } ∧
       t.writer.calendar = s.shift.calendar ∧ t.writer.clockValid = s.shift.valid ∧
       t.writer.pageSeq = s.writer.pageSeq + 1 ∧
       (s.path.internal = [] → s.writer.waiting = [] →
         t.path.internal.map (·.tag) = .completionWord 0 :: List.replicate 10 .page ∧
           (t.path.internal.take 2).map (·.addr) = [t.path.anchorBase + 0x8000, t.path.anchorBase + 0x8100]) ∧
       (t.path.heldOff = [] ∨ 32 ≤ t.path.queue.length)) ∧
  ∀ (sel : Fin 16) (a b : Bool) (s₀ s : State), exec .powerOn s₀ = .next s ∨ exec .warmReset s₀ = .next s →
    ∃ t : State, exec (.resetEnd sel a b) s = .next t ∧
      (let page := (t.path.internal.drop 1).flatMap (·.data)
       page.length = 1024 ∧ page.take 4 = le 4 1 ∧
         ∀ i, (0x008 ≤ i ∧ i < 0x058) ∨ (0x078 ≤ i ∧ i < 0x280) ∨ (0x2A0 ≤ i ∧ i < 0x3F8) → page[i]? = some 0)

/-- While a reset holds, no command has an effect but the resets, the time base and the requests at the C-port; and with no
reset in progress RESET_END has none. That such a command answers the state unchanged, and leaves a message where it is, is
the model's choice (notes/assumptions/2).

That requests presented in reset are kept is the model's reading (notes/assumptions/20). -/
def Obligations.ResetHoldsEveryOtherEvent : Prop :=
  ∀ (c : Instr) (s : State), s.inReset = true →
    (∀ sel a b, exec (.resetEnd sel a b) { s with inReset := false } = .next { s with inReset := false }) ∧
      match c with
      | .powerOn | .warmReset | .resetEnd _ _ _ | .tb32kPeriod | .secondEnd | .busRead _ | .busWrite _ | .postWordWrite _
      | .sequenceWordWrite _ | .takeViewRead _ | .peekViewRead _ => True
      | _ => exec c s = .next s

/-! ## Encoder, time base and ticks -/

/-- A forward count in the counting window: A rises by S, capped at the high-water mark once POSITION_LIMIT is set and at
the position limit before; H follows A; the stop timer restarts; a trigger is emitted to every lane when P has reached N;
and a rise of P goes to the Cut Planner and the Strike Unit.

The count of pulses on LINE_TRIG is the model's record of that output (notes/assumptions/9). -/
def Obligations.ForwardCountMovesTheRibbon : Prop :=
  ∀ (a b : Bool) (s : State) (f : TravelFields) (n : Nat), s.inReset = false → s.cmd.runState.counting = true →
    s.travel.fields = some f → s.travel.nextPoint = some n → s.positionRight →
    edgeCount f.bLeads s.travel.refA s.travel.refB a b = some .forward →
    ∃ t : State, exec (.encoderEdge a b) s = .next t ∧ t.travel.refA = a ∧ t.travel.refB = b ∧ t.travel.timer = 0 ∧
      t.travel.motion = .moving ∧
      t.travel.acc = min (s.travel.acc + f.scale)
        (if s.travel.positionLimit then (s.travel.high : Int) else ((2 ^ 32 * f.pitch - 1) * 65536 : Nat)) ∧
      (t.travel.high : Int) = max (s.travel.high : Int) t.travel.acc ∧
      (t.travel.positionLimit = true ↔ s.travel.positionLimit = true ∨
        (((2 ^ 32 * f.pitch - 1) * 65536 : Nat) : Int) ≤ s.travel.acc + f.scale) ∧
      t.travel.fields = s.travel.fields ∧ t.travel.heldPos = s.travel.heldPos ∧ t.travel.speed = s.travel.speed ∧
      t.travel.quadErrors = s.travel.quadErrors ∧ t.travel.divider = s.travel.divider ∧
      (if n ≤ t.travel.pos then
        t.travel.count = n / f.pitch ∧ t.travel.nextPoint = some (n + f.pitch) ∧ t.travel.pulses = s.travel.pulses + 1 ∧
          ∀ k : LaneId, t.wires.triggers[k] = s.wires.triggers[k] ++ [s.tag (n / f.pitch)]
      else
        t.travel.count = s.travel.count ∧ t.travel.nextPoint = some n ∧ t.travel.pulses = s.travel.pulses ∧
          t.wires.triggers = s.wires.triggers) ∧
      (let rises := if t.travel.pos = s.travel.pos then [] else [s.tag { p0 := s.travel.pos, p1 := t.travel.pos }]
       t.wires.plannerRises = s.wires.plannerRises ++ rises ∧ t.wires.strikeRises = s.wires.strikeRises ++ rises)

/-- R2's counts: a single change in the order 00, 10, 11, 01 counts forward under A_LEADS and in the opposite order
backward, B_LEADS exchanges the two, a change of both levels is illegal, and no change counts nothing.

The other edges: a backward count lowers A by S, to no less than −2^48 µm, and restarts the stop timer; an illegal
transition raises only the quadrature-error counter; and outside the counting window an edge changes only the reference
pair. -/
def Obligations.OtherEdgesAndTheirCounts : Prop :=
  (∀ a0 b0 a1 b1 : Bool,
     edgeCount false a0 b0 a1 b1 =
       (if a0 = a1 ∧ b0 = b1 then none
        else if a0 ≠ a1 ∧ b0 ≠ b1 then some .illegal
        else if (a0, b0, a1, b1) ∈ [(false, false, true, false), (true, false, true, true), (true, true, false, true),
            (false, true, false, false)] then some .forward
        else some .backward) ∧
     edgeCount true a0 b0 a1 b1 =
       (match edgeCount false a0 b0 a1 b1 with
        | some .forward => some .backward
        | some .backward => some .forward
        | some .illegal => some .illegal
        | none => none)) ∧
  (∀ (a b : Bool) (s : State) (f : TravelFields), s.inReset = false → s.travel.fields = some f →
     if s.cmd.runState.counting then
       match edgeCount f.bLeads s.travel.refA s.travel.refB a b with
       | some .backward =>
         exec (.encoderEdge a b) s = .next { s with travel := { s.travel with
           refA := a, refB := b, acc := max (s.travel.acc - f.scale) (-(2 ^ 48 * 65536)), timer := 0, motion := .moving } }
       | some .illegal =>
         exec (.encoderEdge a b) s = .next { s with travel := { s.travel with
           refA := a, refB := b, quadErrors := min 4294967295 (s.travel.quadErrors + 1) } }
       | none => exec (.encoderEdge a b) s = .next { s with travel := { s.travel with refA := a, refB := b } }
       | some .forward => True
     else exec (.encoderEdge a b) s = .next { s with travel := { s.travel with refA := a, refB := b } })

/-- One TB32K period: the unit divider gives a unit tick at every 32nd, and the second ends after 32,768 periods, or after
32,768 + trim when its second is 0. In reset the divider and the clock run on and no tick is delivered. SECOND_END is the
period that ends a second: that it is a named case of TB32K_PERIOD is the model's choice (notes/assumptions/6).

That the divider and the clock count through either reset is the model's reading (notes/assumptions/25,
notes/assumptions/31). -/
def Obligations.TimeBaseDividesPeriods : Prop :=
  ∀ s : State,
    let last : Bool := decide ((if s.shift.calendar.second = 0 then 32768 + s.shift.trim else 32768) ≤ (s.shift.sub : Int) + 1)
    let out := !s.inReset
    (∃ t : State, exec .tb32kPeriod s = .next t ∧
      t.travel = { s.travel with divider := if s.travel.divider + 1 < 32 then s.travel.divider + 1 else 0 } ∧
      t.wires.unitTicks = s.wires.unitTicks + (if out && decide (32 ≤ s.travel.divider + 1) then 1 else 0) ∧
      t.wires.travelTicks = s.wires.travelTicks + (if out && last then 1 else 0) ∧
      t.wires.writerTicks = s.wires.writerTicks + (if out && last then 1 else 0) ∧
      t.shift.sub = (if last then 0 else s.shift.sub + 1) ∧
      t.shift.calendar = (if last then s.shift.calendar.advance else s.shift.calendar) ∧
      t.shift.trim = s.shift.trim ∧ t.shift.valid = s.shift.valid ∧ t.shift.table = s.shift.table ∧
      t.shift.run = s.shift.run ∧ (s.inReset = true → t.shift.tally = s.shift.tally)) ∧
    exec .secondEnd s = (if last then exec .tb32kPeriod s else .next s)

/-- The calendar's advance: seconds since 2000-01-01 00:00:00 rise by one, the date stays within its ranges, the weekday
steps at midnight alone, and 2099-12-31 23:59:59 is followed by 2000-01-01 00:00:00 (R129). -/
def Obligations.CalendarCountsEverySecond : Prop :=
  ∀ c : Calendar, c.valid = true →
    c.advance.valid = true ∧
    (if c.year = 2099 ∧ c.month = 12 ∧ c.day = 31 ∧ c.hour = 23 ∧ c.minute = 59 ∧ c.second = 59 then
      c.advance =
        { year := 2000, month := 1, day := 1, weekday := (c.weekday + 1) % 7, hour := 0, minute := 0, second := 0 }
    else c.advance.stamp = c.stamp + 1) ∧
    c.advance.weekday =
      if c.hour = 23 ∧ c.minute = 59 ∧ c.second = 59 then (c.weekday + 1) % 7 else c.weekday

/-- A second end that makes second 0 of a minute at which a shift start entry, the first of them, matches in hour, minute and
weekday is a boundary: with the hold slot EMPTY the tally is frozen with the calendar as its end, offered and followed by a new
one under the next shift number, with the entry's slot, the calendar as its start, every counter at 0, its flags and merged count
clear, and the run in progress, if one is, as its runs seen; otherwise one boundary is merged (R133, R135, R138, R140).

Every other period leaves the tally, the hold slot, the shift number and the offers as they were: one in reset, one that ends no
second, and one whose second end comes with the clock-valid flag clear or the table absent, makes another second than 0, or meets
no entry that matches (R133).

In every case the divider, the ticks delivered, the sub-second counter and the calendar are as the time base gives them (R11,
R130). SECOND_END names the period that ends a second, which is the model's choice (notes/assumptions/6); that the divider and
the clock count through either reset is its reading (notes/assumptions/25, notes/assumptions/31). -/
def Obligations.ClockBoundaryFreezesTheTally : Prop :=
  ∀ s : State,
    let now := s.shift.calendar.advance
    let due : Bool :=
      decide ((if s.shift.calendar.second = 0 then 32768 + s.shift.trim else 32768) ≤ (s.shift.sub : Int) + 1)
    let unit : Bool := decide (32 ≤ s.travel.divider + 1)
    let out := !s.inReset
    let hits : ShiftStart → Prop := fun e =>
      e.hour = now.hour ∧ e.minute = now.minute ∧ e.days.toList.getD now.weekday false = true
    let taken : Shift → List ShiftReport → State := fun shift reports => { s with
      travel := { s.travel with divider := if unit then 0 else s.travel.divider + 1 }
      shift := shift
      wires := { s.wires with
        unitTicks := s.wires.unitTicks + (if out && unit then 1 else 0)
        travelTicks := s.wires.travelTicks + (if out && due then 1 else 0)
        writerTicks := s.wires.writerTicks + (if out && due then 1 else 0)
        shiftOffers := s.wires.shiftOffers ++ reports } }
    let happens : State → Prop := fun t =>
      exec .tb32kPeriod s = .next t ∧ (due = true → exec .secondEnd s = .next t)
    (∀ (es : List ShiftStart) (i : Nat) (e : ShiftStart), s.inReset = false → due = true → s.shift.valid = true →
      s.shift.table = some es → es.length ≤ 4 → now.second = 0 → es[i]? = some e → hits e →
      (∀ j d, j < i → es[j]? = some d → ¬ hits d) →
      match s.shift.hold with
      | .empty =>
        let report : ShiftReport := { tally := s.shift.tally, fin := now }
        happens (taken { s.shift with
          calendar := now
          sub := 0
          number := s.shift.number + 1
          hold := .offered report
          tally :=
            { shift := s.shift.number + 1, start := now, slot := .entry (Fin.ofNat 4 i), clockSet := false,
              clockUnset := false, merged := 0, counters := TallyCounters.zero,
              runs := if s.shift.runState = .running ∨ s.shift.runState = .draining then
                some { first := s.shift.run, last := s.shift.run } else none } } [report])
      | _ => happens (taken { s.shift with
          calendar := now
          sub := 0
          tally := { s.shift.tally with merged := min 65535 (s.shift.tally.merged + 1) } } [])) ∧
    (s.inReset = true ∨ due = false ∨ s.shift.valid = false ∨ s.shift.table = none ∨ now.second ≠ 0 ∨
        (∀ es, s.shift.table = some es → ∀ e ∈ es, ¬ hits e) →
      happens (taken { s.shift with
        calendar := if due then now else s.shift.calendar
        sub := if due then 0 else s.shift.sub + 1 } []))

/-- A unit tick taken in the counting window: the stop timer rises toward T_stop, and the tick that brings it there with the
ribbon MOVING stops it and sends one increment of stops; outside the window nothing but the tick is taken. STOP_TIMER_EXPIRY
names the tick that stops the ribbon, which is the model's choice (notes/assumptions/6; R11, R12). -/
def Obligations.UnitTickDrivesTheStopTimer : Prop :=
  ∀ (s : State) (f : TravelFields) (n : Nat), s.inReset = false → s.wires.unitTicks = n + 1 → s.travel.fields = some f →
    if s.cmd.runState.counting then
      if s.travel.motion = .moving ∧ s.travel.timer + 1 = f.tStop then
        let t : State := { s with
          travel := { s.travel with timer := f.tStop, motion := .stopped }
          wires := { s.wires with unitTicks := n, increments := s.wires.increments ++ [(.travel, .stop)] } }
        exec .unitTick s = .next t ∧ exec .stopTimerExpiry s = .next t
      else
        exec .unitTick s = .next { s with
          travel := { s.travel with timer := if s.travel.timer < f.tStop then s.travel.timer + 1 else s.travel.timer }
          wires := { s.wires with unitTicks := n } } ∧
        exec .stopTimerExpiry s = .next s
    else exec .unitTick s = .next { s with wires := { s.wires with unitTicks := n } }

/-- A second tick at the Travel Unit, in any run state: the speed becomes P less the held position, saturating, and the held
position P (R14); in the counting window with the ribbon STOPPED one increment of stop seconds goes to the Shift Unit, and
otherwise none (R13). -/
def Obligations.SecondTickMeasuresSpeed : Prop :=
  ∀ (s : State) (n : Nat), s.inReset = false → s.wires.travelTicks = n + 1 →
    exec .travelSecondTick s = .next { s with
      travel := { s.travel with speed := min 4294967295 (s.travel.pos - s.travel.heldPos), heldPos := s.travel.pos }
      wires := { s.wires with
        travelTicks := n
        increments := s.wires.increments ++
          (if s.cmd.runState.counting = true ∧ s.travel.motion = .stopped then [(.travel, .stopSecond)] else []) } }

/-- A second tick at the Record Writer: its calendar follows the Shift Unit's, the page sequence rises by one, and the page
is queued behind the transactions already waiting (R170, R171, R157).

A status page is 1,024 bytes, begins and ends with the page sequence as its first and last writes, and its writes
follow one another without a break, each of at most 16 beats (R176, R143).

Each field of the page stands at its offset of chapter 11.6 and shows the value named there, each block's part its state, with
the codes of R174 and 0 for an item that is absent; every other byte is zero (R171, R174).

That the copy takes the calendar as it stands when the tick is taken, where the body is cut into writes, and that a page after
the first shows the values of blocks that hold no configuration yet, are the model's (notes/assumptions/10,
notes/assumptions/19, notes/assumptions/36). -/
def Obligations.SecondTickWritesThePage : Prop :=
  (∀ (s : State) (n : Nat), s.inReset = false → s.wires.writerTicks = n + 1 →
     ∃ t : State, exec .writerSecondTick s = .next t ∧ t.wires.writerTicks = n ∧ t.writer.calendar = s.shift.calendar ∧
       t.writer.clockValid = s.shift.valid ∧ t.writer.pageSeq = s.writer.pageSeq + 1 ∧
       t.path.internal ++ t.writer.waiting = s.path.internal ++ s.writer.waiting ++
         pageTxns (s.path.anchorBase + 0x8100) (s.pageImage (s.writer.pageSeq + 1)) ∧
       (s.path.internal.length ≤ 16 → t.path.internal.length ≤ 16) ∧ t.shift = s.shift ∧ t.cmd = s.cmd) ∧
  (∀ (s : State) (q : Word32) (a : Nat),
     let ts := pageTxns a (s.pageImage q)
     (s.pageImage q).length = 1024 ∧ (s.pageImage q).take 4 = le 4 q.toNat ∧
     ((s.pageImage q).drop 0x3F8).take 4 = le 4 q.toNat ∧ ts.flatMap (·.data) = s.pageImage q ∧
     (ts.head?.map fun t => (t.addr, t.data.length)) = some (a, 8) ∧
     (ts.getLast?.map fun t => (t.addr, t.data.length)) = some (a + 0x3F8, 8) ∧
     (∀ t ∈ ts, t.write = true ∧ t.enables = List.replicate t.data.length true ∧ t.data.length ≤ 128) ∧
     ∀ i t u, ts[i]? = some t → ts[i + 1]? = some u → u.addr = t.addr + t.data.length) ∧
  ([RunState.transparent, .configured, .running, .draining].map (·.code) = [0, 1, 2, 3] ∧
   [LaneState.off, .waiting, .locking, .tracking, .dropout, .faulted].map (·.code) = [0, 1, 2, 3, 4, 5] ∧
   [none, some Reason.travel, some .laneGeometry, some .ownedOverlap, some .ringLayout, some .sourceTable, some .views,
     some .span, some .sizes, some .thresholdOrder, some .strikeGate, some .runActive, some .notConfigured,
     some .notRunning, some .badCommand, some .badTime, some .tooLate, some .tooSoon, some .notInspected,
     some .noRoom].map reasonCode = List.range 20) ∧
  (∀ (s : State) (q : Word32),
     let bit : Bool → Nat := fun b => if b then 1 else 0
     let signed : Nat → Int → Nat := fun n v => (v % (256 ^ n : Nat)).toNat
     let seqs : GroupId → Option Word32 × Bool := fun g => match g with
       | .detect => (s.cmd.detect.active.map (·.seq), s.cmd.detect.eligible.isSome)
       | .plan => (s.cmd.plan.active.map (·.seq), s.cmd.plan.eligible.isSome)
       | .grade => (s.cmd.grade.active.map (·.seq), s.cmd.grade.eligible.isSome)
       | .strike => (s.cmd.strike.active.map (·.seq), s.cmd.strike.eligible.isSome)
       | .clock => (s.cmd.clock.active.map (·.seq), s.cmd.clock.eligible.isSome)
     let command : List (Nat × Nat × Nat) :=
       [(0x008, 1, s.cmd.runState.code), (0x009, 1, reasonCode s.cmd.lastReason), (0x00A, 2, s.cmd.run.toNat),
        (0x00C, 4, s.cmd.post.toNat), (0x010, 4, s.cmd.taken.toNat), (0x014, 4, s.cmd.completion.toNat)] ++
       [GroupId.detect, .plan, .grade, .strike, .clock].flatMap fun g =>
         let o := 0x018 + 12 * g.idx.val
         [(o, 4, ((seqs g).1.map (·.toNat)).getD 0),
          (o + 4, 4, (s.cmd.mirror[g.idx].map fun m => field m.image 0xF8 4).getD 0), (o + 8, 1, bit (seqs g).2),
          (o + 9, 1, bit s.cmd.invalid[g.idx])]
     let path : List (Nat × Nat × Nat) :=
       [(0x058, 8, s.path.anchorBase), (0x060, 1, bit s.path.map.isSome), (0x061, 1, s.path.queue.length),
        (0x062, 1, (s.path.queue.filter (·.held)).length), (0x063, 1, s.path.internal.length),
        (0x064, 1, (s.path.rewrites.map (·.position)).dedup.length), (0x068, 4, s.path.forwarded),
        (0x06C, 4, s.path.refused), (0x070, 4, s.path.heldReads)]
     let travel : List (Nat × Nat × Nat) :=
       [(0x078, 8, s.travel.pos), (0x080, 4, s.travel.count), (0x084, 4, s.travel.speed), (0x088, 4, s.travel.quadErrors),
        (0x08C, 1, bit (decide (s.travel.motion = .stopped))), (0x08D, 1, bit s.travel.positionLimit)]
     let lanes : List (Nat × Nat × Nat) := allLanes.flatMap fun k =>
       let o := 0x090 + 40 * k.val
       let c := s.lanes[k].counters
       [(o, 1, s.lanes[k].state.code), (o + 1, 1, bit s.lanes[k].enabled), (o + 2, 1, bit s.lanes[k].seeded),
        (o + 4, 4, s.lanes[k].settled), (o + 8, 4, c.completed), (o + 12, 4, c.declared), (o + 16, 4, c.stale),
        (o + 20, 4, c.torn), (o + 24, 4, c.overruns), (o + 28, 4, c.dropouts),
        (o + 32, 1, s.engine.lanes[k].join.length), (o + 36, 4, s.engine.lanes[k].crowded)]
     let detection : List (Nat × Nat × Nat) :=
       [(0x1D0, 1, bit s.engine.analysis.isSome), (0x1D1, 1, s.engine.ready.length),
        (0x1D8, 4, least s.asm.settled.toList), (0x1DC, 4, s.asm.joined), (0x1E0, 1, s.asm.blobs.length),
        (0x1E1, 1, s.asm.gaps.length), (0x1E2, 2, s.asm.table.length), (0x1E4, 1, bit s.asm.overflow.isSome),
        (0x1E8, 8, (s.asm.overflow.map (·.lo)).getD 0), (0x1F0, 8, (s.asm.overflow.map (·.hi)).getD 0),
        (0x1F8, 4, s.asm.nextFlaw), (0x1FC, 4, s.asm.forced), (0x200, 4, s.asm.truncated)]
     let planner : List (Nat × Nat × Nat) :=
       [(0x208, 1, s.planner.pieces.length + bit s.planner.openPiece.isSome),
        (0x209, 1, (s.planner.pieces.filter fun p => decide (p.state = .waitingLog)).length),
        (0x20A, 1, s.planner.cuts.length), (0x20B, 1, (s.planner.cuts.filter (·.committed)).length),
        (0x20C, 1, bit s.planner.overdue),
        (0x20D, 1, match s.planner.runEnd with | .none => 0 | .waiting => 1 | .fixed => 2),
        (0x20E, 1, bit s.planner.openPiece.isSome), (0x210, 8, (s.planner.openPiece.map (·.head)).getD 0),
        (0x218, 8, (s.planner.openPiece.map fun o => o.head + o.sizes.l1).getD 0),
        (0x220, 8, signed 8 (s.planner.cf.getD 0)), (0x228, 8, s.planner.frontier), (0x230, 4, s.planner.nextPiece)]
     let strike : List (Nat × Nat × Nat) :=
       [(0x238, 1, bit s.strike.score.level), (0x239, 1, bit s.strike.snap.level), (0x23A, 1, bit s.strike.gate.level),
        (0x23B, 1, bit s.strike.claiming.isSome), (0x23C, 1, bit s.strike.offered.isSome),
        (0x23D, 1, s.strike.track.length), (0x23E, 1, s.strike.gates.length),
        (0x23F, 1, bit (decide (s.strike.gates ≠ []))), (0x240, 8, s.strike.offered.getD 0),
        (0x248, 8, (s.strike.gates.getLast?.map (·.start)).getD 0),
        (0x250, 8, (s.strike.gates.getLast?.map (·.stop)).getD 0), (0x258, 4, s.strike.strikes),
        (0x25C, 4, s.strike.withdrawn), (0x260, 4, s.strike.merges)]
     let inGrading : Nat × Option Nat := match s.grading.state with
       | .idle => (0, none)
       | .gathering h => (1, some h.number)
       | .stamping r => (2, some r.number)
     let grading : List (Nat × Nat × Nat) :=
       [(0x268, 1, inGrading.1), (0x269, 1, bit inGrading.2.isSome), (0x26A, 1, s.grading.queue.length),
        (0x26B, 1, s.grading.outbound.length), (0x26C, 1, bit s.grading.outstanding), (0x26D, 1, bit s.grading.logFull),
        (0x270, 4, inGrading.2.getD 0), (0x274, 4, s.grading.graded), (0x278, 4, s.grading.held)]
     let inHold : Nat × Nat := match s.shift.hold with
       | .empty => (0, 0)
       | .offered r => (1, r.tally.shift.toNat)
       | .held r => (2, r.tally.shift.toNat)
     let shift : List (Nat × Nat × Nat) :=
       [(0x280, 2, s.shift.calendar.year), (0x282, 1, s.shift.calendar.month), (0x283, 1, s.shift.calendar.day),
        (0x284, 1, s.shift.calendar.weekday), (0x285, 1, s.shift.calendar.hour), (0x286, 1, s.shift.calendar.minute),
        (0x287, 1, s.shift.calendar.second), (0x288, 1, bit s.shift.valid), (0x289, 1, signed 1 s.shift.trim),
        (0x28A, 1, bit s.shift.table.isSome),
        (0x28B, 1, match s.shift.tally.slot with | .entry i => i.val | .manual => 4 | .reset => 5),
        (0x28C, 1, inHold.1), (0x290, 4, s.shift.number.toNat), (0x294, 2, s.shift.run.toNat),
        (0x296, 2, s.shift.tally.merged), (0x298, 4, s.shift.tally.start.stamp), (0x29C, 4, inHold.2)]
     let writer : List (Nat × Nat × Nat) :=
       ([LogId.flaw, .plate, .shift, .fault].flatMap fun l =>
         let o := 0x2A0 + 16 * l.idx.val
         let g := s.writer.logs[l.idx]
         [(o, 4, g.producer.toNat), (o + 4, 4, g.consumer.toNat), (o + 8, 4, (g.producer - g.consumer).toNat),
          (o + 12, 4, g.nextSeq.toNat)]) ++
       [(0x2E0, 4, s.writer.flawLost), (0x2E4, 4, s.writer.faultLost), (0x2E8, 4, s.writer.lastCompletion.toNat),
        (0x2EC, 4, s.cmd.seen.toNat)]
     imageShows (s.pageImage q) 1024 ([(0x000, 4, q.toNat)] ++ command ++ path ++ travel ++ lanes ++ detection ++ planner ++
       strike ++ grading ++ shift ++ writer ++ [(0x3F8, 4, q.toNat)]))

/-! ## Lanes -/

/-- A line trigger taken by lane k: the trigger count becomes T and the accounted line rises to T in FAULTED, and in OFF
while RUNNING, and to the deadline T − W in the capturing states; a line in progress at or below the deadline is abandoned.
In OFF outside RUNNING nothing changes, and no other lane changes (R27).

A lane FAULTED, or OFF, in RUNNING declares every line above the accounted line up to T, with cause FAULTED or DISABLED: each
joins the declared lines, the lines declared counter rises by their number, and nothing else of the lane changes but its trigger
count and its accounted line; the settled line is then re-evaluated, and the lines it rises over go to the assembler as gap
lines, in increasing order and before it, each with its increment (R27, R28, R32, R33).

A lane in WAITING, LOCKING, TRACKING or DROPOUT that has settled all below its line in progress, or below its next line, and
takes a trigger whose deadline reaches that line abandons the line in progress and declares each line up to the deadline:
the lines declared counter rises by their number; in LOCKING the lock counter is 0; in TRACKING the consecutive misses rise
and the one that reaches S_stall takes the lane to DROPOUT, with one more dropout and no misses, and a page; the lines go to
the assembler as gap lines before the deadline as settled line, each with its increment, of cause MISSED, or DROPOUT once in
DROPOUT (R26, R27, R28, R29, R32). -/
def Obligations.LineTriggerAtEveryLaneState : Prop :=
  (∀ (k : LaneId) (n : Nat) (rest : List (Tagged Nat)) (s : State) (sh : Shadow), s.inReset = false →
     s.wires.triggers[k] = { epoch := s.epoch, msg := n } :: rest → s.cmd.shadow = some sh →
     ∃ t : State, exec (.laneLineTrigger k) s = .next t ∧ t.wires.triggers = upd s.wires.triggers k (fun _ => rest) ∧
       (∀ j : LaneId, j ≠ k → t.lanes[j] = s.lanes[j]) ∧
       match s.lanes[k].state with
       | .off =>
         if s.lanes[k].runState = .running then
           t.lanes[k].trigger = n ∧ t.lanes[k].accounted = max s.lanes[k].accounted n
         else t.lanes = s.lanes
       | .faulted => t.lanes[k].trigger = n ∧ t.lanes[k].accounted = max s.lanes[k].accounted n
       | _ =>
         t.lanes[k].trigger = n ∧
         t.lanes[k].accounted = max s.lanes[k].accounted (n - sh.timing.lag) ∧
           ∀ p, s.lanes[k].line = some p →
             t.lanes[k].line = if sh.timing.lag < n ∧ p.line ≤ n - sh.timing.lag then none else some p) ∧
  (∀ (k : LaneId) (n : Nat) (rest : List (Tagged Nat)) (s : State) (sh : Shadow), s.inReset = false →
     s.wires.triggers[k] = { epoch := s.epoch, msg := n } :: rest → s.cmd.shadow = some sh →
     s.lanes[k].state = .off ∨ s.lanes[k].state = .faulted → s.lanes[k].runState = .running →
     let l := s.lanes[k]
     let cause : GapCause := if l.state = .faulted then .faulted else .disabled
     let lines := List.range' (l.accounted + 1) (n - l.accounted)
     let popped : State := { s with wires := { s.wires with triggers := upd s.wires.triggers k fun _ => rest } }
     ∃ t : State, exec (.laneLineTrigger k) s = .next t ∧
       t = { s with lanes := upd s.lanes k fun _ => t.lanes[k], wires := t.wires } ∧
       popped.settlesAfter t sh k { l.declaredUpTo lines cause n with trigger := n } 0 none) ∧
  (∀ (k : LaneId) (n : Nat) (rest : List (Tagged Nat)) (s : State) (sh : Shadow), s.inReset = false →
     s.wires.triggers[k] = { epoch := s.epoch, msg := n } :: rest → s.cmd.shadow = some sh →
     s.lanes[k].state ∈ [.waiting, .locking, .tracking, .dropout] → s.lanes[k].misses < sh.timing.stall →
     sh.timing.lag < n → (∀ p, s.lanes[k].line = some p → p.line = s.lanes[k].accounted) →
     let l := s.lanes[k]
     let first := match l.line with
       | none => l.accounted + 1
       | some p => p.line
     let deadline := n - sh.timing.lag
     l.settledBelow first → first ≤ deadline → sh.netLo ≤ sh.lanes[k].ownHi → sh.lanes[k].ownLo ≤ sh.netHi →
     let lines := List.range' first (deadline + 1 - first)
     let after := l.abandoned.declaring sh.timing.stall lines.length
     ∃ t : State, exec (.laneLineTrigger k) s = .next t ∧
       t.lanes[k] = { after with trigger := n, accounted := deadline, settled := deadline } ∧ t.engine = s.engine ∧
       t.wires = { s.wires with
         triggers := upd s.wires.triggers k fun _ => rest
         laneMsgs := upd s.wires.laneMsgs k fun q => q ++ s.tagAll (lines.map LaneMsg.gap ++ [.settled deadline])
         increments := s.wires.increments ++ (List.range lines.length).map fun i =>
           (.lane k, .gapLine (l.declaredCause sh.timing.stall .missed i)) } ∧
       t.writer.pageSeq = s.writer.pageSeq + (if after.state = l.state then 0 else 1))

/-- A landing write that starts line m: the one line of (T − W, T] that lands in the slot, next above the accounted line,
with no line in progress and buffer A free. The line is in progress in A with the write's bytes, and the accounted line is m (R20 to R24).

A write that completes the line in progress: the mode, the lane state, the lock counter and the seeded flag by R25's
table, the buffer READY with the mode, no line in progress, no miss, one more completed line, the line last in the ready
list (R24, R25, R38).

A write that crosses a slot boundary makes the lane FAULTED, with a page: the line in progress is abandoned, and it and every
line above the accounted line up to the trigger count are declared FAULTED; SLOT_CROSS carries the source, lane, slot and trigger
count; the lines settled go to the assembler, each with its increment (R20, R28, R32, R35, R174).

In OFF and FAULTED every write changes nothing (R20). In the other states a write within its slot is sorted by R21.
Padding and an orphan write change nothing. A start with no line of the lag window above the accounted line there raises the
stale counter alone (R22). A start of line m tears the line in progress, declares it TORN and the lines skipped MISSED, and
captures line m in a free buffer, A when both are free; with neither free it declares line m OVERRUN too, and raises the overrun
counter (R23). A write that continues the line without completing it captures its bytes and moves the next expected offset, and
nothing else; any other write with a line in progress tears it (R24). A torn line raises the torn counter and TORN_LINE with the
source, lane and line. Declarations act on the lane by its state (R28), and, where the lane has settled all below, the lines
declared go to the assembler before the new settled line (R32).

The model's: the order of lane and slot in detail A (notes/assumptions/26); a write below the lane's ring counts as in slot 0, one
past it as in a slot of no line (notes/assumptions/37). -/
def Obligations.LandingWritesStartCompleteAndCross : Prop :=
  (∀ (k : LaneId) (w : LandingCopy) (rest : List LandingCopy) (s : State) (sh : Shadow) (slot m : Nat),
     s.inReset = false → s.wires.landing[k] = w :: rest → s.cmd.shadow = some sh →
     s.lanes[k].state ∈ [.waiting, .locking, .tracking, .dropout] → s.lanes[k].line = none →
     s.lanes[k].bufA.state = .free → s.lanes[k].accounted + 1 = m →
     0 < w.span → w.addr = sh.lanes[k].base + slot * sh.lanes[k].stride → w.span ≤ sh.lanes[k].stride →
     w.span < sh.lanes[k].length → (∀ e ∈ w.enables, e = true) →
     m ≤ s.lanes[k].trigger → s.lanes[k].trigger < m + sh.timing.lag → m % sh.lanes[k].slots = slot →
     sh.timing.lag ≤ sh.lanes[k].slots →
     ∃ t : State, exec (.landingWrite k) s = .next t ∧ t.wires.landing = upd s.wires.landing k (fun _ => rest) ∧
       t.lanes[k].line = some { line := m, slot := slot, buffer := .a, next := w.span } ∧ t.lanes[k].accounted = m ∧
       t.lanes[k].bufA =
         { state := .filling, line := m, mode := none, pixels := w.data.take sh.lanes[k].length } ∧
       t.lanes[k].bufB = s.lanes[k].bufB ∧ t.lanes[k].state = s.lanes[k].state ∧
       t.lanes[k].counters = s.lanes[k].counters ∧ ∀ j : LaneId, j ≠ k → t.lanes[j] = s.lanes[j]) ∧
  (∀ (k : LaneId) (w : LandingCopy) (rest : List LandingCopy) (s : State) (sh : Shadow) (p : LineInProgress),
     s.inReset = false → s.wires.landing[k] = w :: rest → s.cmd.shadow = some sh → s.lanes[k].line = some p →
     s.lanes[k].state ∈ [.waiting, .locking, .tracking, .dropout] → 0 < w.span → 0 < p.next →
     p.next < sh.lanes[k].length → sh.lanes[k].length ≤ p.next + w.span → p.next + w.span ≤ sh.lanes[k].stride →
     w.addr = sh.lanes[k].base + p.slot * sh.lanes[k].stride + p.next → (∀ e ∈ w.enables, e = true) →
     ∃ t : State, exec (.landingWrite k) s = .next t ∧ t.wires.landing = upd s.wires.landing k (fun _ => rest) ∧
       t.lanes[k].line = none ∧ t.lanes[k].misses = 0 ∧ t.lanes[k].accounted = s.lanes[k].accounted ∧
       t.lanes[k].counters =
         { s.lanes[k].counters with completed := min 4294967295 (s.lanes[k].counters.completed + 1) } ∧
       (∀ j : LaneId, j ≠ k → t.lanes[j] = s.lanes[j]) ∧
       (let mode : Mode := match s.lanes[k].state with
          | .tracking => .track
          | .locking | .dropout => .lock
          | _ => .seed
        t.lanes[k].buffer p.buffer = { s.lanes[k].buffer p.buffer with
          state := .ready, mode := some mode,
          pixels := (s.lanes[k].buffer p.buffer).pixels ++ w.data.take (sh.lanes[k].length - p.next) } ∧
        t.engine.ready = s.engine.ready ++ [{ lane := k, line := p.line, buffer := p.buffer, mode := mode }] ∧
        t.engine.analysis = s.engine.analysis ∧ t.engine.lanes = s.engine.lanes) ∧
       match s.lanes[k].state with
       | .locking =>
         t.lanes[k].state = (if sh.timing.lockLines ≤ s.lanes[k].lock + 1 then .tracking else .locking) ∧
           t.lanes[k].lock = s.lanes[k].lock + 1 ∧ t.lanes[k].seeded = s.lanes[k].seeded
       | .tracking =>
         t.lanes[k].state = .tracking ∧ t.lanes[k].lock = s.lanes[k].lock ∧ t.lanes[k].seeded = s.lanes[k].seeded
       | .dropout =>
         t.lanes[k].state = .locking ∧ t.lanes[k].lock = 1 ∧ t.lanes[k].seeded = s.lanes[k].seeded
       | _ => t.lanes[k].state = .locking ∧ t.lanes[k].lock = 1 ∧ t.lanes[k].seeded = true) ∧
  (∀ (k : LaneId) (w : LandingCopy) (rest : List LandingCopy) (s : State) (sh : Shadow) (slot : Nat),
     s.inReset = false → s.wires.landing[k] = w :: rest → s.cmd.shadow = some sh →
     slot = (w.addr - sh.lanes[k].base) / sh.lanes[k].stride →
     (w.addr - sh.lanes[k].base + w.span - 1) / sh.lanes[k].stride ≠ slot →
     ∃ t : State, exec (.landingWrite k) s = .next t ∧ t.wires.landing = upd s.wires.landing k (fun _ => rest) ∧
       match s.lanes[k].state with
       | .off | .faulted => t.engine = s.engine ∧ t.wires.faults = s.wires.faults ∧ t.lanes[k].state = s.lanes[k].state ∧
           t.lanes[k].line = s.lanes[k].line ∧ t.lanes[k].accounted = s.lanes[k].accounted ∧
           t.lanes[k].counters = s.lanes[k].counters
       | _ =>
         let l := s.lanes[k]
         let fault : FaultMsg :=
           { source := w.source, kind := .slotCross, detailA := BitVec.ofNat 16 (k.val + 256 * slot),
             detailB := BitVec.ofNat 64 l.trigger }
         let after : Lane := Lane.declaredUpTo { l.abandoned with state := .faulted } l.givenUp .faulted l.trigger
         let told : State := { s with wires := { s.wires with
           landing := upd s.wires.landing k fun _ => rest, faults := s.wires.faults ++ [(.lane k, fault)] } }
         (∀ j : LaneId, j ≠ k → t.lanes[j] = s.lanes[j]) ∧ t.engine = s.engine ∧
           t.lanes[k] = { after with settled := t.lanes[k].settled, declared := t.lanes[k].declared } ∧
           t.wires.faults = told.wires.faults ∧ t.writer.pageSeq = s.writer.pageSeq + 1 ∧
           (l.runState = .running → told.settlesAfter t sh k after 0 none)) ∧
  (∀ (k : LaneId) (w : LandingCopy) (rest : List LandingCopy) (s : State), s.inReset = false →
     s.wires.landing[k] = w :: rest → s.lanes[k].state = .off ∨ s.lanes[k].state = .faulted →
     exec (.landingWrite k) s = .next { s with wires := { s.wires with
       landing := upd s.wires.landing k fun _ => rest } }) ∧
  (∀ (k : LaneId) (w : LandingCopy) (rest : List LandingCopy) (s : State) (sh : Shadow) (slot offset : Nat),
     s.inReset = false → s.wires.landing[k] = w :: rest → s.cmd.shadow = some sh →
     s.lanes[k].state ∈ [.waiting, .locking, .tracking, .dropout] → 0 < w.span →
     w.addr = sh.lanes[k].base + slot * sh.lanes[k].stride + offset → offset + w.span ≤ sh.lanes[k].stride →
     let l := s.lanes[k]
     let g := sh.lanes[k]
     let stall := sh.timing.stall
     let popped : Wires := { s.wires with landing := upd s.wires.landing k fun _ => rest }
     let whole : Bool := (w.enables.take (g.length - offset)).all id
     let startForm := offset = 0 ∧ whole = true ∧ 0 < g.length
     let due : Nat → Prop := fun m =>
       l.accounted < m ∧ m ≤ l.trigger ∧ l.trigger < m + sh.timing.lag ∧ m % g.slots = slot
     let first := match l.line with
       | none => l.accounted + 1
       | some p => p.line
     let settled := (∀ p, l.line = some p → p.line = l.accounted) ∧ l.settledBelow first ∧ sh.netLo ≤ g.ownHi ∧
       g.ownLo ≤ sh.netHi ∧ l.misses < stall
     let tornLine : Nat → FaultSender × FaultMsg := fun x => (.lane k,
       { source := w.source, kind := .tornLine, detailA := BitVec.ofNat 16 k, detailB := BitVec.ofNat 64 x })
     let told : State → Nat → Nat → List Nat → (Nat → GapCause) → List (FaultSender × FaultMsg) → Prop :=
       fun t x upTo lines cause faults => t.lanes[k].settled = x ∧ t.lanes[k].declared = [] ∧
         t.wires = { popped with
           faults := s.wires.faults ++ faults
           laneMsgs := upd s.wires.laneMsgs k fun q =>
             q ++ s.tagAll (lines.map LaneMsg.gap ++ (if lines.isEmpty then [] else [.settled upTo]))
           increments := s.wires.increments ++ (List.range lines.length).map fun i => (.lane k, .gapLine (cause i)) }
     ∃ t : State, exec (.landingWrite k) s = .next t ∧ t.wires.landing = popped.landing ∧
       (∀ j : LaneId, j ≠ k → t.lanes[j] = s.lanes[j]) ∧ t.engine.analysis = s.engine.analysis ∧
       t.engine.lanes = s.engine.lanes ∧
       (g.length ≤ offset ∨ (l.line = none ∧ ¬ startForm) →
         t.lanes[k] = { l with settled := t.lanes[k].settled, declared := t.lanes[k].declared } ∧
           t.engine = s.engine ∧ t.wires.faults = s.wires.faults ∧ (settled → t = { s with wires := popped })) ∧
       (startForm → (∀ m, ¬ due m) →
         t.lanes[k] = { l with
             counters := { l.counters with stale := min 4294967295 (l.counters.stale + 1) }
             settled := t.lanes[k].settled
             declared := t.lanes[k].declared } ∧
           t.engine = s.engine ∧ t.wires.faults = s.wires.faults ∧
           (settled → t.lanes[k].settled = l.settled ∧ t.wires = popped)) ∧
       (∀ m, startForm → due m → sh.timing.lag ≤ g.slots → w.span < g.length →
         let freed := l.abandoned
         let torn := if l.line = none then 0 else 1
         let tornFaults := match l.line with
           | none => []
           | some p => [tornLine p.line]
         if freed.bufA.state = .free ∨ freed.bufB.state = .free then
           let after := freed.declaring stall (torn + (m - 1 - l.accounted))
           let filling : Buffer :=
             { state := .filling, line := m, mode := none, pixels := w.data.take g.length }
           (l.misses < stall → t.lanes[k] = { after with
             accounted := m
             line := some { line := m, slot := slot, buffer := if freed.bufA.state = .free then .a else .b, next := w.span }
             bufA := if freed.bufA.state = .free then filling else freed.bufA
             bufB := if freed.bufA.state = .free then freed.bufB else filling
             counters :=
               if l.line = none then after.counters
               else { after.counters with torn := min 4294967295 (l.counters.torn + 1) }
             settled := t.lanes[k].settled
             declared := t.lanes[k].declared }) ∧
           t.engine = s.engine ∧ t.wires.faults = s.wires.faults ++ tornFaults ∧
           (settled → told t (m - 1) (m - 1) (List.range' first (m - first))
             (fun i => l.declaredCause stall (if i = 0 ∧ l.line ≠ none then .torn else .missed) i) tornFaults)
         else
           let after := l.declaring stall (m - l.accounted)
           (l.misses < stall → t.lanes[k] = { after with
             accounted := m
             counters := { after.counters with overruns := min 4294967295 (l.counters.overruns + 1) }
             settled := t.lanes[k].settled
             declared := t.lanes[k].declared }) ∧
           t.engine = s.engine ∧ t.wires.faults = s.wires.faults ∧
           (l.misses < stall → l.bufA.state = .ready → l.bufB.state = .ready →
             l.settled + 1 = min l.bufA.line l.bufB.line →
             t.lanes[k].settled = l.settled ∧ t.wires = popped ∧
               t.lanes[k].declared = l.declared ++ (List.range' (l.accounted + 1) (m - l.accounted)).map fun x =>
                 { line := x,
                   cause := l.declaredCause stall (if x = m then .overrun else .missed) (x - l.accounted - 1) })) ∧
       (∀ p : LineInProgress, l.line = some p → ¬ startForm → offset < g.length →
         ¬ (p.slot = slot ∧ offset = p.next ∧ whole = true) →
         let after := l.abandoned.declaring stall 1
         (l.misses < stall → t.lanes[k] = { after with
           counters := { after.counters with torn := min 4294967295 (l.counters.torn + 1) }
           settled := t.lanes[k].settled
           declared := t.lanes[k].declared }) ∧
         t.engine = s.engine ∧ t.wires.faults = s.wires.faults ++ [tornLine p.line] ∧
         (settled → told t p.line p.line [p.line] (l.declaredCause stall .torn) [tornLine p.line])) ∧
       ∀ p : LineInProgress, l.line = some p → ¬ startForm → p.slot = slot → offset = p.next → whole = true →
         offset + w.span < g.length →
         let bytes := w.data.take (g.length - offset)
         let after : Lane := match p.buffer with
           | .a => { l with
               line := some { p with next := offset + w.span }
               bufA := { l.bufA with pixels := l.bufA.pixels ++ bytes } }
           | .b => { l with
               line := some { p with next := offset + w.span }
               bufB := { l.bufB with pixels := l.bufB.pixels ++ bytes } }
         t.lanes[k] = { after with settled := t.lanes[k].settled, declared := t.lanes[k].declared } ∧
         t.engine = s.engine ∧ t.wires.faults = s.wires.faults ∧
         (p.line ≤ l.settled + 1 ∨ (l.bufA.state = .ready ∧ l.bufA.line ≤ l.settled + 1) ∨
             (l.bufB.state = .ready ∧ l.bufB.line ≤ l.settled + 1) →
           t = { s with lanes := upd s.lanes k fun _ => after, wires := popped }))

/-! ## Pixel Engine -/

/-- ANALYSIS_BEGIN: the IDLE engine takes the oldest entry of the ready list that is eligible, that is, the oldest of its
lane and, for a TRACK line, with room in its lane's join queue, under the DETECT group at its effect point (R39, R40,
R45).

ANALYSIS_COMPLETION of a SEED line: every column of the line takes 256 times its pixel as background and 0 as hold
counter, the columns past it and the join queue keep theirs, the buffer is freed and the engine is IDLE (R41, R52). The lane's
settled line rises past what has come to be analysed or declared, with the line as a LOCKING gap line (R32, R33). -/
def Obligations.AnalysisBeginsAndSeeds : Prop :=
  (∀ (s : State) (i : Nat) (x : ReadyEntry) (d : DetectGroup),
     let eligible : Nat → ReadyEntry → Prop := fun j y =>
       (y.mode = .track → s.engine.lanes[y.lane].join.length < 8) ∧
         ∀ m z, m < j → s.engine.ready[m]? = some z → z.lane ≠ y.lane
     s.inReset = false → s.engine.analysis = none → s.engine.ready[i]? = some x → eligible i x →
     (∀ j y, j < i → s.engine.ready[j]? = some y → ¬ eligible j y) → s.cmd.detect.activate.inUse = some d →
     exec .analysisBegin s = .next { s with
       cmd := { s.cmd with detect := s.cmd.detect.activate }
       engine := { s.engine with analysis := some { entry := x, detect := d }, ready := s.engine.ready.eraseIdx i } }) ∧
  (∀ (s : State) (a : Analysis) (sh : Shadow), s.inReset = false → s.engine.analysis = some a → a.entry.mode = .seed →
     s.cmd.shadow = some sh →
     ∃ t : State, exec .analysisCompletion s = .next t ∧ t.engine.analysis = none ∧ t.engine.ready = s.engine.ready ∧
       (let k := a.entry.lane
        let pixels := (s.lanes[k].buffer a.entry.buffer).pixels
        (∀ (j : Nat) (x : Byte), pixels[j]? = some x →
          t.engine.lanes[k].background[j]? = some (256 * x.toNat) ∧ t.engine.lanes[k].hold[j]? = some 0) ∧
        (∀ j, pixels.length ≤ j →
          t.engine.lanes[k].background[j]? = s.engine.lanes[k].background[j]? ∧
            t.engine.lanes[k].hold[j]? = s.engine.lanes[k].hold[j]?) ∧
        t.engine.lanes[k].join = s.engine.lanes[k].join ∧ t.engine.lanes[k].crowded = s.engine.lanes[k].crowded ∧
        t.lanes[k].buffer a.entry.buffer = Buffer.empty ∧
        t = { s with lanes := t.lanes, engine := t.engine, wires := t.wires } ∧
        (s.lanes[k].runState = .running →
          s.settlesAfter t sh k (s.lanes[k].setBuffer a.entry.buffer Buffer.empty) a.entry.line (some .locking)) ∧
        ∀ j : LaneId, j ≠ k → t.engine.lanes[j] = s.engine.lanes[j] ∧ t.lanes[j] = s.lanes[j]))

/-- ANALYSIS_COMPLETION of a LOCK or TRACK line, column by column: the contrast, the ownership and blindness tests, the
thresholds and the flag, the hold counter, and the background's step or hold (R46 to R51); and for a TRACK line alone an
entry at the end of the lane's join queue, with the runs of the line's columns (R54) and the blind verdict over its owned
blind columns (R41, R42, R47), and one crowded line when a run carries CROWDED (R56). A flagged column is DARK or BRIGHT by the
sign of its contrast, at the highest level whose threshold is at least 1 and reached (R49).

The lane's settled line rises past what has come to be analysed or declared: a LOCK line is a LOCKING gap line, a TRACK line
with its blind verdict set a BLIND one, and another TRACK line none (R32 to R34). -/
def Obligations.AnalysisUpdatesEachColumn : Prop :=
  ∀ (s : State) (a : Analysis) (sh : Shadow), s.inReset = false → s.engine.analysis = some a → a.entry.mode ≠ .seed →
    s.cmd.shadow = some sh →
    let k := a.entry.lane
    let g := sh.lanes[k]
    let d := a.detect
    let pixels := (s.lanes[k].buffer a.entry.buffer).pixels
    let background := s.engine.lanes[k].background
    let owned : Nat → Bool := fun j => decide (g.ownLo ≤ g.cross j) && decide (g.cross j ≤ g.ownHi)
    pixels.length ≤ background.length → pixels.length ≤ s.engine.lanes[k].hold.length →
    ∃ t : State, exec .analysisCompletion s = .next t ∧ t.engine.analysis = none ∧ t.engine.ready = s.engine.ready ∧
      t.lanes[k].buffer a.entry.buffer = Buffer.empty ∧
      (∀ (j b h : Nat) (x : Byte), pixels[j]? = some x → background[j]? = some b →
        s.engine.lanes[k].hold[j]? = some h →
        let c : Int := 256 * (x.toNat : Int) - b
        let flagged : Bool := owned j && decide (d.blindFloor ≤ b) &&
          (if c < 0 then [d.d1, d.d2, d.d3] else [d.u1, d.u2, d.u3]).any
            (fun factor => decide (1 ≤ b * factor / 256) && decide (b * factor / 256 ≤ c.natAbs))
        let h' := if flagged then min (h + 1) d.holdLimit else 0
        let column := (analyseColumns d g 0 pixels background s.engine.lanes[k].hold)[j]?
        let reached : Nat → Bool := fun factor =>
          decide (1 ≤ b * factor / 256) && decide (b * factor / 256 ≤ c.natAbs)
        let level : Severity :=
          if c < 0 then if reached d.d3 then .reject else if reached d.d2 then .major else .minor
          else if reached d.u3 then .reject else if reached d.u2 then .major else .minor
        column.map (·.column) = some j ∧ column.map (·.contrast) = some c ∧
          column.map (·.flag) = some (if flagged then some (if c < 0 then .dark else .bright, level) else none) ∧
          t.engine.lanes[k].hold[j]? = some h' ∧
          t.engine.lanes[k].background[j]? =
            some (if flagged = false ∨ d.holdLimit ≤ h' then ((b : Int) + c.tdiv (2 ^ d.shift)).toNat else b)) ∧
      (∀ j, pixels.length ≤ j → t.engine.lanes[k].background[j]? = background[j]?) ∧
      (let runs := lineRuns d g k a.entry.line (analyseColumns d g 0 pixels background s.engine.lanes[k].hold)
       if a.entry.mode = .track then
         t.engine.lanes[k].join = s.engine.lanes[k].join ++
           [{ line := a.entry.line, runs := runs,
              blind := decide (d.blindLimit < ((List.range pixels.length).filter fun j =>
                owned j && decide (background.getD j 0 < d.blindFloor)).length) }] ∧
         t.engine.lanes[k].crowded = (if runs.any (·.crowded) then min 4294967295 (s.engine.lanes[k].crowded + 1)
           else s.engine.lanes[k].crowded)
       else
         t.engine.lanes[k].join = s.engine.lanes[k].join ∧ t.engine.lanes[k].crowded = s.engine.lanes[k].crowded) ∧
      (analyseColumns d g 0 pixels background s.engine.lanes[k].hold).length = pixels.length ∧
      t = { s with lanes := t.lanes, engine := t.engine, wires := t.wires } ∧
      (s.lanes[k].runState = .running →
        s.settlesAfter t sh k (s.lanes[k].setBuffer a.entry.buffer Buffer.empty) a.entry.line
          (if a.entry.mode ≠ .track then some .locking
           else if d.blindLimit < ((List.range pixels.length).filter fun j =>
             owned j && decide (background.getD j 0 < d.blindFloor)).length then some .blind
           else none)) ∧
      ∀ j : LaneId, j ≠ k → t.engine.lanes[j] = s.engine.lanes[j] ∧ t.lanes[j] = s.lanes[j]

/-- The runs of a line number at most 64, and every flagged column lies in one of them (R54, R56).

Each run begins and ends at a flagged column, and carries the highest level, the largest |c| and the saturated sum of
floor(|c| / 256) of its flagged columns, and the cross extent of its end columns; it stands before the next run, at whose
first column the polarity changes or more than G unflagged columns lie between. A run that is not CROWDED holds columns of its
own polarity alone, at most G unflagged ones between any two; only run 64 is CROWDED, and MIXED when it holds both (R54 to
R56). -/
def Obligations.RunsCoverFlaggedColumns : Prop :=
  (∀ (d : DetectGroup) (g : LaneGeometry) (k : LaneId) (line : Nat) (cs : List ColumnResult),
     (lineRuns d g k line cs).length ≤ 64 ∧
     (cs.Pairwise (fun c e => c.column < e.column) →
       ∀ c ∈ cs, c.flag ≠ none → ∃ r ∈ lineRuns d g k line cs, r.first ≤ c.column ∧ c.column ≤ r.last)) ∧
  ∀ (d : DetectGroup) (g : LaneGeometry) (k : LaneId) (line : Nat) (cs : List ColumnResult),
    cs.Pairwise (fun c e => c.column < e.column) → (∀ c ∈ cs, ∀ f, c.flag = some f → f.1 ≠ .mixed) →
    let runs : List PixelRun := lineRuns d g k line cs
    let flagged : List ColumnResult := cs.filter fun c => c.flag.isSome
    (∀ (i : Nat) (r : PixelRun), runs[i]? = some r →
      let inside : List ColumnResult := flagged.filter fun c => decide (r.first ≤ c.column) && decide (c.column ≤ r.last)
      r.lane = k ∧ r.line = line ∧ (inside.head?.map (·.column)) = some r.first ∧
        (inside.getLast?.map (·.column)) = some r.last ∧ r.peak = (inside.map fun c => c.contrast.natAbs).foldl max 0 ∧
        r.sum = min 16777215 (inside.map fun c => c.contrast.natAbs / 256).sum ∧
        r.level.code = (inside.filterMap fun c => c.flag.map fun f => f.2.code).foldl max 0 ∧
        r.lo = min (g.cross r.first) (g.cross r.last) ∧
        r.hi = max (g.cross r.first) (g.cross r.last) + g.pitch / 256 - 1 ∧
        (r.crowded = false → (∀ c ∈ inside, c.flag.map (·.1) = some r.polarity) ∧
          ∀ (n : Nat) (c e : ColumnResult), inside[n]? = some c → inside[n + 1]? = some e → e.column - c.column - 1 ≤ d.bridge) ∧
        (r.crowded = true → i = 63 ∧ runs.length = 64 ∧
          ((∀ p : Polarity, r.polarity = p → p ≠ .mixed → ∀ c ∈ inside, c.flag.map (·.1) = some p) ∧
           (r.polarity = .mixed → (∃ c ∈ inside, c.flag.map (·.1) = some .dark) ∧
             ∃ c ∈ inside, c.flag.map (·.1) = some .bright)))) ∧
    ∀ (i : Nat) (r q : PixelRun), runs[i]? = some r → runs[i + 1]? = some q → r.last < q.first ∧
      (r.polarity ≠ q.polarity ∨ d.bridge < q.first - r.last - 1 ∨ q.crowded = true)

/-! ## Blob Assembler -/

/-- A gap line of lane k: in glass already graded it is dropped; otherwise some entry of the lane, or of ALL, covers it
afterwards, and every line covered before is still covered (R77).

The steps of R77 for a line x not in graded glass: within an entry of ALL it changes nothing; else the lane's newest entry
that ends at x − 1 takes x as its last line; else, below 64 entries, a new entry of x becomes the newest of the list and of
the lane and stands at its place, by first line and then by lane with ALL last; else the newest entry becomes one of ALL over x
too and moves to its place. A list in that order stays in it.

The assembler's other messages: a settled line is recorded for its lane (R61); a scan is answered with the entries that
meet [a, b) at its severity floor or above, in table order; and a mark sets its flag on the entry with its number (R74). -/
def Obligations.AssemblerTakesItsMessages : Prop :=
  (∀ (k : LaneId) (x : Nat) (rest : List (Tagged LaneMsg)) (s : State) (sh : Shadow), s.inReset = false →
     s.wires.laneMsgs[k] = { epoch := s.epoch, msg := .gap x } :: rest → s.cmd.shadow = some sh →
     (∀ e ∈ s.asm.gaps, e.first ≤ e.last) → (s.asm.gaps.length < 64 ∨ ∃ e ∈ s.asm.gaps, e.newest = true) →
     (∀ e ∈ s.asm.gaps, e.lane = some k → e.laneNewest = true → e.last < x) →
     ∃ t : State, exec (.gapLine k) s = .next t ∧ t.asm = { s.asm with gaps := t.asm.gaps } ∧
       t.wires = { s.wires with laneMsgs := upd s.wires.laneMsgs k (fun _ => rest) } ∧
       (∀ g, s.asm.gradedTail = some g → (x + 1) * sh.travel.pitch ≤ g → t.asm.gaps = s.asm.gaps) ∧
       ((∀ g, s.asm.gradedTail = some g → g < (x + 1) * sh.travel.pitch) →
         ∃ e ∈ t.asm.gaps, (e.lane = some k ∨ e.lane = none) ∧ e.first ≤ x ∧ x ≤ e.last) ∧
       ∀ e ∈ s.asm.gaps, ∀ y, e.first ≤ y → y ≤ e.last →
         ∃ e' ∈ t.asm.gaps, (e'.lane = e.lane ∨ e'.lane = none) ∧ e'.first ≤ y ∧ y ≤ e'.last) ∧
  (∀ (k : LaneId) (x : Nat) (rest : List (Tagged LaneMsg)) (s : State) (sh : Shadow), s.inReset = false →
     s.wires.laneMsgs[k] = { epoch := s.epoch, msg := .gap x } :: rest → s.cmd.shadow = some sh →
     (∀ g, s.asm.gradedTail = some g → g < (x + 1) * sh.travel.pitch) →
     let place : Option LaneId → Nat := fun l => match l with
       | none => 8
       | some j => j.val
     let after : GapEntry → GapEntry → Prop := fun e f =>
       f.first < e.first ∨ (f.first = e.first ∧ place f.lane < place e.lane)
     let inserted : GapEntry → List GapEntry → List GapEntry → Prop := fun e others gaps => ∃ front back,
       others = front ++ back ∧ gaps = front ++ e :: back ∧ (∀ f ∈ front, ¬ after f e) ∧
         ∀ f, back.head? = some f → after f e
     let covered := ∃ e ∈ s.asm.gaps, e.lane = none ∧ e.first ≤ x ∧ x ≤ e.last
     let followed := ∃ e ∈ s.asm.gaps, e.lane = some k ∧ e.laneNewest = true ∧ e.last + 1 = x
     ∃ t : State, exec (.gapLine k) s = .next t ∧
       (s.asm.gaps.Pairwise (fun e f => ¬ after e f) → t.asm.gaps.Pairwise fun e f => ¬ after e f) ∧
       (covered → t.asm.gaps = s.asm.gaps) ∧
       (¬ covered → followed → t.asm.gaps = s.asm.gaps.map fun e =>
         if e.lane = some k ∧ e.laneNewest = true then { e with last := x } else e) ∧
       (¬ covered → ¬ followed → s.asm.gaps.length < 64 →
         inserted { lane := some k, first := x, last := x, newest := true, laneNewest := true }
           (s.asm.gaps.map fun e =>
             { e with newest := false, laneNewest := e.laneNewest && decide (e.lane ≠ some k) }) t.asm.gaps) ∧
       (¬ covered → ¬ followed → 64 ≤ s.asm.gaps.length → ∀ older e newer, s.asm.gaps = older ++ e :: newer →
         e.newest = true → (∀ f ∈ older, f.newest = false) →
         inserted { lane := none, first := min e.first x, last := max e.last x, newest := true, laneNewest := false }
           (older ++ newer) t.asm.gaps)) ∧
  ((∀ (k : LaneId) (n : Nat) (rest : List (Tagged LaneMsg)) (s : State), s.inReset = false →
     s.wires.laneMsgs[k] = { epoch := s.epoch, msg := .settled n } :: rest →
     exec (.settledLine k) s = .next { s with
       asm := { s.asm with settled := upd s.asm.settled k (fun _ => n) }
       wires := { s.wires with laneMsgs := upd s.wires.laneMsgs k (fun _ => rest) } }) ∧
   (∀ (a b floor : Nat) (rest : List (Tagged PlanReq)) (s : State), s.inReset = false →
     s.wires.plannerAsm = { epoch := s.epoch, msg := .scan a b floor } :: rest →
     exec .scan s = .next { s with wires := { s.wires with
       plannerAsm := rest
       asmPlanner := s.wires.asmPlanner ++ [s.tag (.scanAnswer (s.asm.table.filter fun f =>
         decide (f.start < b) && decide (a < f.stop) && decide (floor ≤ f.severity.code)))] } }) ∧
   (∀ (n : Nat) (rest : List (Tagged PlanReq)) (s : State), s.inReset = false →
     s.wires.plannerAsm = { epoch := s.epoch, msg := .markLate n } :: rest →
     exec .mark s = .next { s with
       asm := { s.asm with table := s.asm.table.map fun f => if f.number = n then { f with late := true } else f }
       wires := { s.wires with plannerAsm := rest } }) ∧
   ∀ (n : Nat) (rest : List (Tagged PlanReq)) (s : State), s.inReset = false →
     s.wires.plannerAsm = { epoch := s.epoch, msg := .markUnplanned n } :: rest →
     exec .mark s = .next { s with
       asm := { s.asm with table := s.asm.table.map fun f => if f.number = n then { f with unplanned := true } else f }
       wires := { s.wires with plannerAsm := rest } })

/-- JOIN in RUNNING with the frontier above the joined line: line J + 1 is joined under the DETECT group at its effect
point, its entries leave the join queues, no blob stays open that has ended or reached the maximum length, and the joined
line is handed to the Planner after the held flaws of the join (R61, R62, R67).

A line whose one run meets no open blob, with up to 95 open, opens a blob beside them under the next id, with the run's extent, level, peak, sum and columns,
CONTINUED from the lowest flaw of the truncation markers it touches, and PARTIAL_VIEW when a lane without an inspected entry
meets it (R63, R64, R65, R68).

Runs that all touch every open blob within the along gap extend the one, or merge the several into the one with the lowest
id: its front is the line's runs, its extent, level and peak cover all, its sum and area add all, saturating, its lanes and
marks unite, and MERGED marks two or more (R64, R65). A blob that reaches the maximum length closes with TRUNCATED and
leaves a marker of its front under its flaw number (R68).

With 96 blobs open, a run that touches none forces the coldest closed, the one with the lowest front and then the lowest id,
with FORCED, and opens its blob (R66).

The components of a line hold each of its runs once, and each eligible blob that some run reaches once; nothing of one touches
anything of another, and each is connected by touches (R63). On a line that closes no blob, each component with blobs extends
or merges them, and the others make new blobs in increasing order of their lowest run lo, then lane, under the next ids; a blob
no run reaches is left (R63, R64). -/
def Obligations.JoinTakesTheNextLine : Prop :=
  (∀ (s : State) (sh : Shadow) (d : DetectGroup), s.inReset = false → s.cmd.runState = .running →
     s.asm.joined < s.asm.frontier → s.cmd.shadow = some sh → s.cmd.detect.activate.inUse = some d →
     ∃ t : State, exec .join s = .next t ∧
       (let n := s.asm.joined + 1
        t.asm.joined = n ∧ t.asm.settled = s.asm.settled ∧ t.asm.gaps = s.asm.gaps ∧
        t.asm.gradedTail = s.asm.gradedTail ∧ t.cmd = { s.cmd with detect := s.cmd.detect.activate } ∧
        t.engine.analysis = s.engine.analysis ∧ t.engine.ready = s.engine.ready ∧ t.lanes = s.lanes ∧
        (∀ k : LaneId, t.engine.lanes[k] = { s.engine.lanes[k] with
          join := s.engine.lanes[k].join.filter fun e => decide (e.line ≠ n) }) ∧
        (∀ b ∈ t.asm.blobs, n ≤ b.front + d.alongGap ∧
          (b.front = n → (n - b.first + 1) * sh.travel.pitch < d.maxLength)) ∧
        ∃ flaws : List FlawEntry,
          t.wires.asmPlanner = s.wires.asmPlanner ++ s.tagAll (flaws.map AsmMsg.heldFlaw ++ [.joined n]))) ∧
  (∀ (s : State) (sh : Shadow) (d : DetectGroup) (k : LaneId) (e : JoinEntry) (r : PixelRun), s.inReset = false →
     s.cmd.runState = .running → s.asm.joined < s.asm.frontier → s.cmd.shadow = some sh →
     s.cmd.detect.activate.inUse = some d → s.asm.blobs.length < 96 →
     (∀ o ∈ s.asm.blobs, o.front ≠ s.asm.joined + 1 ∧ s.asm.joined + 1 ≤ o.front + d.alongGap ∧
       (o.frontHi + d.crossBridge < r.lo ∨ r.hi + d.crossBridge < o.frontLo)) → s.asm.nextBlob < 4294967295 →
     s.engine.entryFor (s.asm.joined + 1) k = some e → e.runs = [r] → r.lane = k →
     (∀ j : LaneId, j ≠ k → ∀ x, s.engine.entryFor (s.asm.joined + 1) j = some x → x.runs = []) →
     sh.travel.pitch < d.maxLength →
     ∃ (t : State) (b : Blob), exec .join s = .next t ∧ t.asm.blobs = s.asm.blobs ++ [b] ∧ t.asm.markers = [] ∧
       t.asm.nextBlob = s.asm.nextBlob + 1 ∧ b.id = s.asm.nextBlob ∧
       b.first = s.asm.joined + 1 ∧ b.front = s.asm.joined + 1 ∧ b.frontLo = r.lo ∧ b.frontHi = r.hi ∧ b.lo = r.lo ∧
       b.hi = r.hi ∧ (b.dark = true ↔ r.polarity ≠ .bright) ∧ (b.bright = true ↔ r.polarity ≠ .dark) ∧
       b.level = r.level ∧ b.peak = r.peak ∧ b.sum = min 4294967295 r.sum ∧
       b.area = min 4294967295 (r.last - r.first + 1) ∧ (∀ j : LaneId, b.lanes[j] = true ↔ j = r.lane) ∧
       b.flags.crowded = r.crowded ∧ b.flags.merged = false ∧ b.flags.truncated = false ∧ b.flags.forced = false ∧
       (b.flags.partialView = true ↔ ∃ j : LaneId,
         (∀ x, s.engine.entryFor (s.asm.joined + 1) j = some x → x.blind = true) ∧
         sh.netLo ≤ sh.lanes[j].ownHi ∧ sh.lanes[j].ownLo ≤ sh.netHi ∧ sh.lanes[j].ownLo ≤ r.hi ∧
         r.lo ≤ sh.lanes[j].ownHi) ∧
       b.flags.continued = ((s.asm.markers.filter fun m =>
         decide (r.lo ≤ m.hi + d.crossBridge) && decide (m.lo ≤ r.hi + d.crossBridge)).map (·.flaw)).min? ∧
       t.wires.flawRecords = s.wires.flawRecords ∧ t.asm.table = s.asm.table ∧ t.asm.nextFlaw = s.asm.nextFlaw) ∧
  (∀ (s : State) (sh : Shadow) (d : DetectGroup), s.inReset = false → s.cmd.runState = .running →
     s.asm.joined < s.asm.frontier → s.cmd.shadow = some sh → s.cmd.detect.activate.inUse = some d →
     s.asm.nextFlaw < 4294967295 →
     let n := s.asm.joined + 1
     let entry : LaneId → Option JoinEntry := s.engine.entryFor n
     let runs : List PixelRun := allLanes.flatMap fun k => ((entry k).map (·.runs)).getD []
     let old := s.asm.blobs
     runs ≠ [] → old ≠ [] → (old.map (·.id)).Nodup →
     (∀ b ∈ old, b.front < n ∧ n ≤ b.front + 1 + d.alongGap ∧
       ∀ r ∈ runs, r.lo ≤ b.frontHi + d.crossBridge ∧ b.frontLo ≤ r.hi + d.crossBridge) →
     ∃ (t : State) (b : Blob), exec .join s = .next t ∧ b.id = least (old.map (·.id)) ∧
       b.first = least (old.map (·.first)) ∧ b.grownFrom sh n entry old runs ∧
       b.flags.continued = (old.filterMap (·.flags.continued)).min? ∧
       if d.maxLength ≤ (n - b.first + 1) * sh.travel.pitch then
         ∃ record : FlawRecord, t.asm.blobs = [] ∧ t.asm.nextFlaw = s.asm.nextFlaw + 1 ∧
           t.asm.markers = [{ lo := b.frontLo, hi := b.frontHi, flaw := s.asm.nextFlaw }] ∧
           t.asm.truncated = min 4294967295 (s.asm.truncated + 1) ∧
           t.wires.flawRecords = s.wires.flawRecords ++ [record] ∧ record.number = s.asm.nextFlaw ∧
           record.flags = { b.flags with truncated := true } ∧ record.first = b.first ∧ record.front = n ∧
           record.lo = b.lo ∧ record.hi = b.hi ∧ record.severity = b.level ∧ record.peak = b.peak ∧
           record.sum = b.sum ∧ record.area = b.area ∧ record.lanes = b.lanes
       else t.asm.blobs = [b] ∧ t.asm.markers = [] ∧ t.asm.truncated = s.asm.truncated ∧
         t.asm.nextFlaw = s.asm.nextFlaw ∧ t.wires.flawRecords = s.wires.flawRecords) ∧
  (∀ (s : State) (sh : Shadow) (d : DetectGroup) (k : LaneId) (e : JoinEntry) (r : PixelRun) (cold : Blob),
     s.inReset = false → s.cmd.runState = .running → s.asm.joined < s.asm.frontier → s.cmd.shadow = some sh →
     s.cmd.detect.activate.inUse = some d → s.asm.nextBlob < 4294967295 → s.asm.nextFlaw < 4294967295 →
     s.engine.entryFor (s.asm.joined + 1) k = some e → e.runs = [r] →
     (∀ j : LaneId, j ≠ k → ∀ x, s.engine.entryFor (s.asm.joined + 1) j = some x → x.runs = []) →
     sh.travel.pitch < d.maxLength → s.asm.blobs.length = 96 → (s.asm.blobs.map (·.id)).Nodup →
     (∀ b ∈ s.asm.blobs, b.front ≠ s.asm.joined + 1 ∧ s.asm.joined + 1 ≤ b.front + d.alongGap ∧
       (b.frontHi + d.crossBridge < r.lo ∨ r.hi + d.crossBridge < b.frontLo)) →
     cold ∈ s.asm.blobs →
     (∀ b ∈ s.asm.blobs, b ≠ cold → cold.front < b.front ∨ (cold.front = b.front ∧ cold.id < b.id)) →
     ∃ (t : State) (b : Blob) (record : FlawRecord), exec .join s = .next t ∧
       t.asm.blobs = (s.asm.blobs.filter fun x => decide (x.id ≠ cold.id)) ++ [b] ∧ b.id = s.asm.nextBlob ∧
       b.first = s.asm.joined + 1 ∧ b.lo = r.lo ∧ b.hi = r.hi ∧ t.asm.nextBlob = s.asm.nextBlob + 1 ∧
       t.asm.forced = min 4294967295 (s.asm.forced + 1) ∧ t.asm.nextFlaw = s.asm.nextFlaw + 1 ∧
       t.wires.flawRecords = s.wires.flawRecords ++ [record] ∧ record.number = s.asm.nextFlaw ∧
       record.flags = { cold.flags with forced := true } ∧ record.first = cold.first ∧ record.front = cold.front ∧
       record.lo = cold.lo ∧ record.hi = cold.hi) ∧
  (∀ (xb : Nat) (blobs : List Blob) (runs : List PixelRun),
     let cs := components xb blobs runs
     let meets : PixelRun → Nat → Nat → Prop := fun r lo hi => r.lo ≤ hi + xb ∧ lo ≤ r.hi + xb
     (cs.flatMap (·.runs)).Perm runs ∧ (∀ c ∈ cs, c.runs ≠ []) ∧
     (∃ others : List Blob, (cs.flatMap (·.blobs) ++ others).Perm blobs ∧
       ∀ b ∈ others, ∀ r ∈ runs, ¬ meets r b.frontLo b.frontHi) ∧
     cs.Pairwise (fun c e =>
       (∀ r ∈ c.runs, (∀ q ∈ e.runs, ¬ meets r q.lo q.hi) ∧ ∀ b ∈ e.blobs, ¬ meets r b.frontLo b.frontHi) ∧
         ∀ r ∈ e.runs, ∀ b ∈ c.blobs, ¬ meets r b.frontLo b.frontHi) ∧
     ∀ c ∈ cs, ∀ (p : PixelRun → Prop) (q : Blob → Prop), (∃ r ∈ c.runs, p r) ∨ (∃ b ∈ c.blobs, q b) →
       (∃ r ∈ c.runs, ¬ p r) ∨ (∃ b ∈ c.blobs, ¬ q b) →
       (∃ r ∈ c.runs, ∃ x ∈ c.runs, p r ∧ ¬ p x ∧ meets r x.lo x.hi) ∨
         ∃ r ∈ c.runs, ∃ b ∈ c.blobs, (p r ↔ ¬ q b) ∧ meets r b.frontLo b.frontHi) ∧
  (∀ (s : State) (sh : Shadow) (d : DetectGroup) (fresh : List Component), s.inReset = false → s.cmd.runState = .running →
     s.asm.joined < s.asm.frontier → s.cmd.shadow = some sh → s.cmd.detect.activate.inUse = some d →
     let n := s.asm.joined + 1
     let entry : LaneId → Option JoinEntry := s.engine.entryFor n
     let runs : List PixelRun := allLanes.flatMap fun k => ((entry k).map (·.runs)).getD []
     let old := s.asm.blobs
     let cs := components d.crossBridge (old.filter fun b => decide (n ≤ b.front + 1 + d.alongGap)) runs
     let firstLo : Component → Nat := fun c => least (c.runs.map (·.lo))
     let firstLane : Component → Nat := fun c =>
       least ((c.runs.filter fun r => decide (r.lo = firstLo c)).map (·.lane.val))
     (old.map (·.id)).Nodup → (∀ b ∈ old, b.front < n) → fresh.Perm (cs.filter fun c => c.blobs.isEmpty) →
     fresh.Pairwise (fun c e => firstLo c < firstLo e ∨ (firstLo c = firstLo e ∧ firstLane c < firstLane e)) →
     old.length + fresh.length ≤ 96 → s.asm.nextBlob + fresh.length ≤ 4294967295 →
     (∀ b ∈ old, (∀ c ∈ cs, b ∉ c.blobs) → n ≤ b.front + d.alongGap) →
     (∀ b ∈ old, (n - b.first + 1) * sh.travel.pitch < d.maxLength) → sh.travel.pitch < d.maxLength →
     ∃ t : State, exec .join s = .next t ∧
       t.asm.blobs.length + (cs.flatMap (·.blobs)).length = old.length + cs.length ∧
       t.asm.nextBlob = s.asm.nextBlob + fresh.length ∧ t.asm.markers = [] ∧ t.asm.nextFlaw = s.asm.nextFlaw ∧
       t.asm.table = s.asm.table ∧ t.wires.flawRecords = s.wires.flawRecords ∧
       (∀ b ∈ old, (∀ c ∈ cs, b ∉ c.blobs) → b ∈ t.asm.blobs) ∧
       (∀ c ∈ cs, c.blobs ≠ [] → ∃ b ∈ t.asm.blobs, b.id = least (c.blobs.map (·.id)) ∧
         b.first = least (c.blobs.map (·.first)) ∧ b.grownFrom sh n entry c.blobs c.runs ∧
         b.flags.continued = (c.blobs.filterMap (·.flags.continued)).min?) ∧
       ∀ i c, fresh[i]? = some c → ∃ b ∈ t.asm.blobs, b.id = s.asm.nextBlob + i ∧ b.first = n ∧
         b.grownFrom sh n entry [] c.runs ∧ b.flags.truncated = false ∧ b.flags.forced = false ∧
         b.flags.continued = ((s.asm.markers.filter fun m => c.runs.any fun r =>
           decide (r.lo ≤ m.hi + d.crossBridge) && decide (m.lo ≤ r.hi + d.crossBridge)).map (·.flaw)).min?)

/-- A flaw's class is decided from its length and width under the point size of the join at which it closed, by the first of
R71's tests that holds, whichever closure it is. -/
def Obligations.FlawClassByLengthAndWidth : Prop :=
  ∀ (c : JoinContext) (r : AsmStep) (b : Blob),
    let length := (b.front + 1) * c.pitch - b.first * c.pitch
    let width := b.hi - b.lo + 1
    let cls : FlawClass :=
      if length ≤ c.detect.pointSize ∧ width ≤ c.detect.pointSize then .point
      else if length ≥ 4 * width then .streak
      else if width ≥ 4 * length then .band
      else .area
    ∃ record, (r.close c b).records = r.records ++ [record] ∧ record.cls = cls ∧
      ∀ f, AsmMsg.heldFlaw f ∈ (r.close c b).planner → AsmMsg.heldFlaw f ∉ r.planner → f.cls = cls

/-- A line without runs, whatever entries without runs its lanes deliver, closes an open blob that has had none for more than
the along gap: the flaw takes the next number and the items of R70, its class by R71 under the point size of the DETECT group in
use at this join, and goes where R72 says, with its increment, its record and, when held, its entry, at its place in the order
of R73, and its message to the Planner before the joined line. -/
def Obligations.EndedBlobBecomesAFlaw : Prop :=
  ∀ (s : State) (sh : Shadow) (d : DetectGroup) (b : Blob), s.inReset = false → s.cmd.runState = .running →
    s.asm.joined < s.asm.frontier → s.cmd.shadow = some sh → s.cmd.detect.activate.inUse = some d → s.asm.blobs = [b] →
    (∀ (j : LaneId) (x : JoinEntry), s.engine.entryFor (s.asm.joined + 1) j = some x → x.runs = []) →
    b.front + d.alongGap < s.asm.joined + 1 →
    b.front ≠ s.asm.joined + 1 → s.asm.nextFlaw < 4294967295 →
    ∃ (t : State) (record : FlawRecord), exec .join s = .next t ∧ t.asm.blobs = [] ∧ t.asm.nextFlaw = s.asm.nextFlaw + 1 ∧
      t.wires.flawRecords = s.wires.flawRecords ++ [record] ∧ record.run = s.cmd.run ∧
      record.number = s.asm.nextFlaw ∧ record.first = b.first ∧ record.front = b.front ∧
      record.start = b.first * sh.travel.pitch ∧ record.stop = (b.front + 1) * sh.travel.pitch ∧
      record.severity = b.level ∧ record.lo = b.lo ∧ record.hi = b.hi ∧ record.peak = b.peak ∧ record.sum = b.sum ∧
      record.area = b.area ∧ record.lanes = b.lanes ∧ record.flags = b.flags ∧
      record.polarity = (if b.dark = true ∧ b.bright = true then .mixed else if b.bright = true then .bright else .dark) ∧
      (let length := record.stop - record.start
       let width := b.hi - b.lo + 1
       record.cls =
         if length ≤ d.pointSize ∧ width ≤ d.pointSize then .point
         else if 4 * width ≤ length then .streak
         else if 4 * length ≤ width then .band
         else .area) ∧
      (let midpoint := (record.start + record.stop) / 2
       let entry : FlawEntry :=
         { number := s.asm.nextFlaw, start := record.start, stop := record.stop, midpoint := midpoint,
           severity := b.level, cls := record.cls, polarity := record.polarity, flags := b.flags, late := false,
           unplanned := false }
       let inc : Bool → Increment := .flaw record.cls b.level
       let joined : AsmMsg := .joined (s.asm.joined + 1)
       let told : List AsmMsg → Prop := fun ms => t.wires.asmPlanner = s.wires.asmPlanner ++ s.tagAll ms
       let sent : Increment → Prop := fun i => t.wires.increments = s.wires.increments ++ [(Sender.assembler, i)]
       if b.hi < sh.netLo ∨ sh.netHi < b.lo then
         record.disposition = .edge ∧ t.asm.table = s.asm.table ∧ t.asm.overflow = s.asm.overflow ∧
           told [joined] ∧ sent .edgeFlaw
       else if s.asm.gradedTail.any (fun g => decide (midpoint < g)) then
         record.disposition = .orphan ∧ t.asm.table = s.asm.table ∧ t.asm.overflow = s.asm.overflow ∧
           told [joined] ∧ sent (inc true)
       else if s.asm.table.length < 512 then
         record.disposition = .held ∧ entry ∈ t.asm.table ∧ t.asm.table.Perm (entry :: s.asm.table) ∧
           (s.asm.table.Pairwise FlawEntry.inOrder → t.asm.table.Pairwise FlawEntry.inOrder) ∧
           t.asm.overflow = s.asm.overflow ∧
           told [.heldFlaw entry, joined] ∧ sent (inc false)
       else
         record.disposition = .unheld ∧ t.asm.table = s.asm.table ∧
           t.asm.overflow = (match s.asm.overflow with
             | none => some { lo := midpoint, hi := midpoint }
             | some o => some { lo := min o.lo midpoint, hi := max o.hi midpoint }) ∧
           told [joined] ∧ sent (inc false))

/-- GATHER: the entries whose midpoint lies in the piece leave the table and make the answer, with the gap overlap and
whether the overflow span meets the piece; the graded tail becomes the piece's tail, and the gap entries that end at or below
it and an overflow span wholly below it are removed (R75).

The gap overlap of a piece, over a gap list in order of first line, is the number of its micrometres that lie in the
along span of some entry: each is counted once; a LEAD piece has none (R75). -/
def Obligations.GatherTakesThePiece : Prop :=
  (∀ (g : GatherReq) (rest : List (Tagged GatherReq)) (s : State) (sh : Shadow), s.inReset = false →
     s.wires.gathers = { epoch := s.epoch, msg := g } :: rest → s.cmd.shadow = some sh →
     let inPiece : FlawEntry → Bool := fun f => decide (g.head.getD 0 ≤ f.midpoint) && decide (f.midpoint < g.tail)
     exec .gather s = .next { s with
       asm := { s.asm with
         table := s.asm.table.filter fun f => !inPiece f
         gradedTail := some g.tail
         gaps := s.asm.gaps.filter fun e => decide (g.tail < (e.last + 1) * sh.travel.pitch)
         overflow := s.asm.overflow.filter fun o => decide (g.tail ≤ o.hi) }
       wires := { s.wires with
         gathers := rest
         gatherAnswers := s.wires.gatherAnswers ++ [s.tag
           { entries := s.asm.table.filter inPiece
             overlap := gapOverlap sh.travel.pitch g s.asm.gaps
             overflow := s.asm.overflow.any fun o => decide (o.lo < g.tail) && decide (g.head.getD 0 ≤ o.hi) }] } }) ∧
  (∀ (pitch : Nat) (gaps : List GapEntry), gaps.Pairwise (fun e f => e.first ≤ f.first) →
     (∀ tail, gapOverlap pitch { head := none, tail := tail } gaps = 0) ∧
     ∀ head tail, gapOverlap pitch { head := some head, tail := tail } gaps =
       ((List.range' head (tail - head)).filter fun x =>
         gaps.any fun e => decide (e.first * pitch ≤ x) && decide (x < (e.last + 1) * pitch)).length)

/-! ## Cut Planner -/

/-- HELD_FLAW that a sized plate can precede: the largest size that ends at or before f0 and above Cf gives a SIZE piece, a CULLET
piece follows it, and a new open piece is created at its tail under the PLAN group at its effect point and
scanned; the two take the next two numbers and their cuts join the queue (R81, R84, R92, R96, R103).

HELD_FLAW without a replan: one below the plan level, at or past h + L1, or behind the open piece and covered by CULLET or
OVERLENGTH pieces changes nothing; one behind and not covered is LATE, with a mark and an increment (R91, R95).

A span is covered exactly when each of its micrometres lies in some CULLET or OVERLENGTH piece of the table, for pieces in order
of tail (R91).

HELD_FLAW with no size that fits: an uncommitted CULLET piece before the open piece that can take the flaw in within L1 is
extended to e, its cut moved and the open piece replaced at e (R93); without one that can, the open piece becomes CULLET to e'
and a new one is created there (R94). Each is made only with its cut above Cf, else the flaw is LATE; a flaw that starts below
the head of its CULLET piece is LATE too (R95). Where only its committed cut bars the merge, the flaw is LATE and R94 is tried
(R93, R95).

A replan of R92 or R94 without its room, or of an overdue open piece, is refused: the flaw is UNPLANNED, with a mark and an
increment unless it carries the flag, and one queue-full event (R88, R95).

SCAN_ANSWER examines its flaws one by one: f followed by others has the effect of its HELD_FLAW, then of the answer of the
others; one flaw that of its HELD_FLAW; with all below the plan level or past h + L1, or no open piece, nothing changes (R91,
R96).

The model's readings: flaws marked are remembered, to count each once; R94 after a barred merge; a merge clears the overdue flag;
the plan floor decides before the room; a flaw is examined in DRAINING too; its choice: a replan's scan is sent before its mark
(in order, notes/assumptions/12, 13, 16, 17, 18, 42). -/
def Obligations.PlanningAroundAFlaw : Prop :=
  (∀ (f : FlawEntry) (rest : List (Tagged AsmMsg)) (s : State) (sh : Shadow) (o : OpenPiece) (i : Fin 4) (size : Nat)
     (g : PlanGroup), s.inReset = false → s.wires.asmPlanner = { epoch := s.epoch, msg := .heldFlaw f } :: rest →
     s.cmd.shadow = some sh → s.planner.openPiece = some o → s.planner.overdue = false →
     s.planner.cuts.length + 2 ≤ 32 → s.planner.pieces.length + 3 ≤ 40 → o.sizes.level ≤ f.severity.code →
     o.head < f.stop → f.start < o.head + o.sizes.l1 →
     (let fits : Nat → Prop := fun l =>
        o.head + l + o.sizes.margin ≤ f.start ∧ ∀ cf : Int, s.planner.cf = some cf → cf < (o.head + l : Nat)
      o.sizes.numbered[i.val]? = some (i, size) ∧ fits size ∧
        ∀ j z, j < i.val → o.sizes.numbered[j]? = some z → ¬ fits z.2) →
     s.cmd.plan.activate.inUse = some g → s.planner.nextPiece + 1 < 4294967295 →
     ∃ t : State, exec .heldFlaw s = .next t ∧
       (let cut := o.head + size
        let tail := min (cut + o.sizes.l1) (max (f.stop + o.sizes.margin) (cut + sh.minTrim))
        t.planner = { s.planner with
          pieces := s.planner.pieces ++
            [{ number := s.planner.nextPiece, kind := .size i, head := some o.head, tail := cut, state := .planned,
               sizes := o.sizes },
             { number := s.planner.nextPiece + 1, kind := .cullet, head := some cut, tail := tail, state := .planned,
               sizes := o.sizes }]
          cuts := s.planner.cuts ++
            [{ pos := cut, kind := .size, committed := false }, { pos := tail, kind := .trim, committed := false }]
          nextPiece := s.planner.nextPiece + 2
          openPiece := some { head := tail, sizes := g } } ∧
        t.wires.plannerAsm = s.wires.plannerAsm ++ [s.tag (.scan tail (tail + g.l1) g.level)] ∧
        t.wires.plannerStrike = s.wires.plannerStrike ++
          (if s.planner.cuts.isEmpty then [s.tag (.offer (some cut))] else []) ∧
        t.wires.asmPlanner = rest ∧ t.wires.increments = s.wires.increments ∧
        t.cmd = { s.cmd with plan := s.cmd.plan.activate })) ∧
  (∀ (f : FlawEntry) (rest : List (Tagged AsmMsg)) (s : State) (sh : Shadow) (o : OpenPiece), s.inReset = false →
     s.wires.asmPlanner = { epoch := s.epoch, msg := .heldFlaw f } :: rest → s.cmd.shadow = some sh →
     s.planner.openPiece = some o →
     (f.severity.code < o.sizes.level ∨ (o.head < f.stop ∧ o.head + o.sizes.l1 ≤ f.start) →
       exec .heldFlaw s = .next { s with wires := { s.wires with asmPlanner := rest } }) ∧
     (o.sizes.level ≤ f.severity.code → f.stop ≤ o.head → s.planner.covered f = false → f.late = false →
       f.number ∉ s.planner.markedLate →
       exec .heldFlaw s = .next { s with
         planner := { s.planner with markedLate := s.planner.markedLate ++ [f.number] }
         wires := { s.wires with
           asmPlanner := rest
           plannerAsm := s.wires.plannerAsm ++ [s.tag (.markLate f.number)]
           increments := s.wires.increments ++ [(.planner, .lateFlaw)] } }) ∧
     (f.stop ≤ o.head → s.planner.covered f = true →
       exec .heldFlaw s = .next { s with wires := { s.wires with asmPlanner := rest } })) ∧
  (∀ (p : Planner) (f : FlawEntry), p.pieces.Pairwise (fun q r => q.tail ≤ r.head.getD 0) →
     (∀ q ∈ p.pieces, q.head.getD 0 ≤ q.tail) →
     (p.covered f = true ↔ ∀ x, f.start ≤ x → x < f.stop →
       ∃ q ∈ p.pieces, (q.kind = .cullet ∨ q.kind = .overlength) ∧ q.head.getD 0 ≤ x ∧ x < q.tail)) ∧
  (∀ (f : FlawEntry) (rest : List (Tagged AsmMsg)) (s : State) (sh : Shadow) (o : OpenPiece) (g : PlanGroup),
     s.inReset = false → s.wires.asmPlanner = { epoch := s.epoch, msg := .heldFlaw f } :: rest → s.cmd.shadow = some sh →
     s.planner.openPiece = some o → o.sizes.level ≤ f.severity.code → o.head < f.stop → f.start < o.head + o.sizes.l1 →
     s.cmd.plan.activate.inUse = some g → s.planner.nextPiece < 4294967295 →
     let p := s.planner
     let below : Nat → Prop := fun x => ∃ cf : Int, p.cf = some cf ∧ (x : Int) ≤ cf
     let fits : Nat → Prop := fun l => o.head + l + o.sizes.margin ≤ f.start ∧ ¬ below (o.head + l)
     let room : Nat → Nat → Prop := fun cuts pieces =>
       p.overdue = false ∧ p.cuts.length + cuts ≤ 32 ∧ p.pieces.length + 1 + pieces ≤ 40
     let lates : List Nat := if f.late = true ∨ f.number ∈ p.markedLate then [] else [f.number]
     let unplanned : List Nat := if f.unplanned = true ∨ f.number ∈ p.markedUnplanned then [] else [f.number]
     let refused : State := { s with
       planner := { p with markedUnplanned := p.markedUnplanned ++ unplanned }
       wires := { s.wires with
         asmPlanner := rest
         plannerAsm := s.wires.plannerAsm ++ s.tagAll (unplanned.map PlanReq.markUnplanned)
         increments := s.wires.increments ++ unplanned.map (fun _ => (.planner, .unplannedFlaw)) ++
           [(.planner, .queueFull)] } }
     let floored : State := { s with
       planner := { p with markedLate := p.markedLate ++ lates }
       wires := { s.wires with
         asmPlanner := rest
         plannerAsm := s.wires.plannerAsm ++ s.tagAll (lates.map PlanReq.markLate)
         increments := s.wires.increments ++ lates.map fun _ => (.planner, .lateFlaw) } }
     let made : Nat → List Piece → List Cut → Nat → List StrikeMsg → List Nat → State :=
       fun e pieces cuts nextPiece offers marked => { s with
         cmd := { s.cmd with plan := s.cmd.plan.activate }
         planner := { p with
           pieces := pieces, cuts := cuts, nextPiece := nextPiece, openPiece := some { head := e, sizes := g }
           overdue := false, markedLate := p.markedLate ++ marked }
         wires := { s.wires with
           asmPlanner := rest
           plannerAsm := s.wires.plannerAsm ++ s.tagAll (.scan e (e + g.l1) g.level :: marked.map PlanReq.markLate)
           plannerStrike := s.wires.plannerStrike ++ s.tagAll offers
           increments := s.wires.increments ++ marked.map fun _ => (.planner, .lateFlaw) } }
     let merged : Piece → Nat := fun q => max (f.stop + o.sizes.margin) (q.head.getD 0 + sh.minTrim)
     let canMerge : Piece → Prop := fun q =>
       q.kind = .cullet ∧ q.tail = o.head ∧ merged q ≤ q.head.getD 0 + o.sizes.l1
     ((∃ z ∈ o.sizes.numbered, fits z.2) → ¬ room 2 2 → exec .heldFlaw s = .next refused) ∧
     ((∀ z ∈ o.sizes.numbered, ¬ fits z.2) →
       (∀ q ∈ p.pieces, ¬ canMerge q) →
         let e := min (o.head + o.sizes.l1) (max (f.stop + o.sizes.margin) (o.head + sh.minTrim))
         (below e → exec .heldFlaw s = .next floored) ∧
         (¬ below e → ¬ room 1 1 → exec .heldFlaw s = .next refused) ∧
         (¬ below e → room 1 1 → exec .heldFlaw s = .next (made e
           (p.pieces ++ [{ number := p.nextPiece, kind := .cullet, head := some o.head, tail := e, state := .planned,
                           sizes := o.sizes }])
           (p.cuts ++ [{ pos := e, kind := .trim, committed := false }]) (p.nextPiece + 1)
           (if p.cuts.isEmpty then [.offer (some e)] else []) (if f.start < o.head then lates else [])))) ∧
     ∀ (q : Piece) (cuts : List Cut), (∀ z ∈ o.sizes.numbered, ¬ fits z.2) → q ∈ p.pieces → canMerge q →
       q.state = .planned →
       (∀ x ∈ p.pieces, x.tail = o.head → x = q) → (∀ x ∈ cuts, x.pos ≠ o.head) →
       p.cuts = cuts ++ [{ pos := o.head, kind := .trim, committed := false }] →
       let e := merged q
       (below e → exec .heldFlaw s = .next floored) ∧
       (¬ below e → exec .heldFlaw s = .next (made e
         (p.pieces.map fun x => if x.tail = o.head then { x with tail := e } else x)
         (cuts ++ [{ pos := e, kind := .trim, committed := false }]) p.nextPiece
         (if cuts.isEmpty then [.offer (some e)] else []) (if f.start < q.head.getD 0 then lates else [])))) ∧
  (∀ (f : FlawEntry) (rest : List (Tagged AsmMsg)) (s : State) (sh : Shadow) (o : OpenPiece) (g : PlanGroup) (q : Piece),
     s.inReset = false → s.wires.asmPlanner = { epoch := s.epoch, msg := .heldFlaw f } :: rest → s.cmd.shadow = some sh →
     s.planner.openPiece = some o → o.sizes.level ≤ f.severity.code → o.head < f.stop → f.start < o.head + o.sizes.l1 →
     s.cmd.plan.activate.inUse = some g → s.planner.nextPiece < 4294967295 →
     let p := s.planner
     let below : Nat → Prop := fun x => ∃ cf : Int, p.cf = some cf ∧ (x : Int) ≤ cf
     (∀ z ∈ o.sizes.numbered, ¬ (o.head + z.2 + o.sizes.margin ≤ f.start ∧ ¬ below (o.head + z.2))) → q ∈ p.pieces →
     q.kind = .cullet → q.tail = o.head → (∀ x ∈ p.pieces, x.tail = o.head → x = q) → q.state ≠ .planned →
     max (f.stop + o.sizes.margin) (q.head.getD 0 + sh.minTrim) ≤ q.head.getD 0 + o.sizes.l1 →
     let e := min (o.head + o.sizes.l1) (max (f.stop + o.sizes.margin) (o.head + sh.minTrim))
     let room : Prop := p.overdue = false ∧ p.cuts.length + 1 ≤ 32 ∧ p.pieces.length + 2 ≤ 40
     let lates : List Nat := if f.late = true ∨ f.number ∈ p.markedLate then [] else [f.number]
     let unplanned : List Nat := if f.unplanned = true ∨ f.number ∈ p.markedUnplanned then [] else [f.number]
     let late : Planner := { p with markedLate := p.markedLate ++ lates }
     let told : List PlanReq → List Increment → Wires := fun asks incs => { s.wires with
       asmPlanner := rest
       plannerAsm := s.wires.plannerAsm ++ s.tagAll (lates.map PlanReq.markLate ++ asks)
       increments := s.wires.increments ++
         (lates.map (fun _ => Increment.lateFlaw) ++ incs).map fun i => (Sender.planner, i) }
     (below e → exec .heldFlaw s = .next { s with planner := late, wires := told [] [] }) ∧
     (¬ below e → ¬ room → exec .heldFlaw s = .next { s with
       planner := { late with markedUnplanned := p.markedUnplanned ++ unplanned }
       wires := told (unplanned.map PlanReq.markUnplanned)
         (unplanned.map (fun _ => Increment.unplannedFlaw) ++ [.queueFull]) }) ∧
     (¬ below e → room → exec .heldFlaw s = .next { s with
       cmd := { s.cmd with plan := s.cmd.plan.activate }
       planner := { late with
         pieces := p.pieces ++
           [{ number := p.nextPiece, kind := .cullet, head := some o.head, tail := e, state := .planned, sizes := o.sizes }]
         cuts := p.cuts ++ [{ pos := e, kind := .trim, committed := false }]
         nextPiece := p.nextPiece + 1, openPiece := some { head := e, sizes := g }, overdue := false }
       wires := { told [.scan e (e + g.l1) g.level] [] with
         plannerStrike := s.wires.plannerStrike ++ s.tagAll (if p.cuts.isEmpty then [.offer (some e)] else []) } })) ∧
  (∀ (f : FlawEntry) (fs : List FlawEntry) (rest : List (Tagged AsmMsg)) (s : State), s.inReset = false →
     s.wires.asmPlanner = { epoch := s.epoch, msg := .scanAnswer (f :: fs) } :: rest →
     ∃ t u : State,
       exec .heldFlaw { s with wires := { s.wires with asmPlanner := { epoch := s.epoch, msg := .heldFlaw f } :: rest } } =
         .next t ∧
       exec .scanAnswer { t with wires := { t.wires with
         asmPlanner := { epoch := t.epoch, msg := .scanAnswer fs } :: rest } } = .next u ∧
       exec .scanAnswer s = .next u) ∧
  ((∀ (f : FlawEntry) (rest : List (Tagged AsmMsg)) (s : State),
     s.wires.asmPlanner = { epoch := s.epoch, msg := .scanAnswer [f] } :: rest →
     exec .scanAnswer s = (if s.inReset then .next s else
       exec .heldFlaw { s with wires := { s.wires with
         asmPlanner := { epoch := s.epoch, msg := .heldFlaw f } :: rest } })) ∧
   ∀ (fs : List FlawEntry) (rest : List (Tagged AsmMsg)) (s : State) (sh : Shadow), s.inReset = false →
     s.wires.asmPlanner = { epoch := s.epoch, msg := .scanAnswer fs } :: rest → s.cmd.shadow = some sh →
     (∀ o : OpenPiece, s.planner.openPiece = some o → ∀ f ∈ fs,
       f.severity.code < o.sizes.level ∨ (o.head < f.stop ∧ o.head + o.sizes.l1 ≤ f.start)) →
     exec .scanAnswer s = .next { s with wires := { s.wires with asmPlanner := rest } })

/-- JOINED_LINE: the frontier position becomes (J + 1) × L_p. An open piece it does not make due is left; a due one, with
room and its candidate tail above Cf, becomes SIZE1 at h + L1, followed by a new open piece that is scanned; with its candidate
tail at or below Cf it becomes OVERLENGTH at the higher of the frontier position and Cf + 1, and no queue-full event is
counted; without room it becomes overdue (R88, R89, R90).

FLUSH_END with an open piece: the run end waits, and with a free queue entry the open piece becomes the RUN_END piece at
the highest of the frontier position, h + min_trim and Cf + 1, with no new open piece; without one it stays WAITING, the
overdue flag clear (R98). The table's forty slots bind nothing here, since R88 asks a run end for no slot.

That a joined line is taken in DRAINING as in RUNNING is the model's reading (notes/assumptions/18). -/
def Obligations.OpenPieceFixedAtItsEnd : Prop :=
  (∀ (n : Nat) (rest : List (Tagged AsmMsg)) (s : State) (sh : Shadow), s.inReset = false →
     s.wires.asmPlanner = { epoch := s.epoch, msg := .joined n } :: rest → s.cmd.shadow = some sh →
     let frontier := (n + 1) * sh.travel.pitch
     ((∀ o, s.planner.openPiece = some o → s.planner.overdue = true ∨ frontier < o.head + o.sizes.l1) →
       exec .joinedLine s = .next { s with
         planner := { s.planner with frontier := frontier }
         wires := { s.wires with asmPlanner := rest } }) ∧
     ∀ o, s.planner.openPiece = some o → s.planner.overdue = false → o.head + o.sizes.l1 ≤ frontier →
       (32 < s.planner.cuts.length + 1 ∨ 40 < s.planner.pieces.length + 2 →
         exec .joinedLine s = .next { s with
           planner := { s.planner with frontier := frontier, overdue := true }
           wires := { s.wires with asmPlanner := rest } }) ∧
       ∀ g, s.planner.cuts.length + 1 ≤ 32 → s.planner.pieces.length + 2 ≤ 40 →
         (∀ cf, s.planner.cf = some cf → cf < (o.head + o.sizes.l1 : Nat)) → s.planner.nextPiece < 4294967295 →
         s.cmd.plan.activate.inUse = some g →
         ∃ t : State, exec .joinedLine s = .next t ∧
           (let tail := o.head + o.sizes.l1
            t.planner = { s.planner with
              frontier := frontier
              pieces := s.planner.pieces ++
                [{ number := s.planner.nextPiece, kind := .size 0, head := some o.head, tail := tail, state := .planned,
                   sizes := o.sizes }]
              cuts := s.planner.cuts ++ [{ pos := tail, kind := .size, committed := false }]
              nextPiece := s.planner.nextPiece + 1
              openPiece := some { head := tail, sizes := g } } ∧
            t.wires.plannerAsm = s.wires.plannerAsm ++ [s.tag (.scan tail (tail + g.l1) g.level)] ∧
            t.wires.plannerStrike = s.wires.plannerStrike ++
              (if s.planner.cuts.isEmpty then [s.tag (.offer (some tail))] else []) ∧
            t.wires.asmPlanner = rest ∧ t.wires.increments = s.wires.increments ∧
            t.cmd = { s.cmd with plan := s.cmd.plan.activate })) ∧
  (∀ (n : Nat) (rest : List (Tagged AsmMsg)) (s : State) (sh : Shadow) (o : OpenPiece) (g : PlanGroup) (cf : Int),
     s.inReset = false → s.wires.asmPlanner = { epoch := s.epoch, msg := .joined n } :: rest → s.cmd.shadow = some sh →
     s.planner.openPiece = some o → s.planner.overdue = false → s.planner.cf = some cf →
     let frontier := (n + 1) * sh.travel.pitch
     o.head + o.sizes.l1 ≤ frontier → (o.head + o.sizes.l1 : Nat) ≤ cf → s.planner.cuts.length + 1 ≤ 32 →
     s.planner.pieces.length + 2 ≤ 40 → s.planner.nextPiece < 4294967295 → s.cmd.plan.activate.inUse = some g →
     let tail := max frontier (cf + 1).toNat
     exec .joinedLine s = .next { s with
       cmd := { s.cmd with plan := s.cmd.plan.activate }
       planner := { s.planner with
         frontier := frontier
         pieces := s.planner.pieces ++
           [{ number := s.planner.nextPiece, kind := .overlength, head := some o.head, tail := tail, state := .planned,
              sizes := o.sizes }]
         cuts := s.planner.cuts ++ [{ pos := tail, kind := .overlength, committed := false }]
         nextPiece := s.planner.nextPiece + 1
         openPiece := some { head := tail, sizes := g } }
       wires := { s.wires with
         asmPlanner := rest
         plannerAsm := s.wires.plannerAsm ++ [s.tag (.scan tail (tail + g.l1) g.level)]
         plannerStrike := s.wires.plannerStrike ++
           (if s.planner.cuts.isEmpty then [s.tag (.offer (some tail))] else []) } }) ∧
  (∀ (rest : List (Tagged AsmMsg)) (s : State) (sh : Shadow) (o : OpenPiece), s.inReset = false →
     s.wires.asmPlanner = { epoch := s.epoch, msg := .flushEnd } :: rest → s.cmd.shadow = some sh →
     s.planner.openPiece = some o → s.planner.pieces.length + 1 ≤ 40 → s.planner.nextPiece < 4294967295 →
     (s.planner.cuts.length = 32 →
       exec .flushEnd s = .next { s with
         planner := { s.planner with runEnd := .waiting, overdue := false }
         wires := { s.wires with asmPlanner := rest } }) ∧
     (s.planner.cuts.length < 32 →
       ∃ (t : State) (tail : Nat), exec .flushEnd s = .next t ∧
         (tail = max (o.head + sh.minTrim) (max s.planner.frontier
           (match s.planner.cf with | none => 0 | some cf => (cf + 1).toNat))) ∧
         t.planner = { s.planner with
           pieces := s.planner.pieces ++
             [{ number := s.planner.nextPiece, kind := .runEnd, head := some o.head, tail := tail, state := .planned,
                sizes := o.sizes }]
           cuts := s.planner.cuts ++ [{ pos := tail, kind := .runEnd, committed := false }]
           nextPiece := s.planner.nextPiece + 1, openPiece := none, overdue := false, runEnd := .fixed } ∧
         t.wires.asmPlanner = rest ∧ t.wires.plannerAsm = s.wires.plannerAsm ∧
         t.wires.plannerStrike = s.wires.plannerStrike ++
           (if s.planner.cuts.isEmpty then [s.tag (.offer (some tail))] else [])))

/-- PLANNER_RISE: Cf becomes p1 − (D_cut − D_commit), and every cut at or below it is committed, its piece moving from
PLANNED to COMMITTED; an open piece whose candidate tail stays above Cf, or that is overdue already, is left (R86).

A rise that brings Cf to the candidate tail of an open piece that is not overdue makes it due: with room it becomes OVERLENGTH
at the higher of the frontier position and Cf + 1, followed by a new open piece that is scanned, and no queue-full event is
counted; without room it becomes overdue (R86, R88, R89).

That a rise taken after the end of a run does the same, and that a piece becomes due in DRAINING as in RUNNING, are the
model's readings (notes/assumptions/24, notes/assumptions/18). -/
def Obligations.RiseCommitsCuts : Prop :=
  (∀ (m : Rise) (rest : List (Tagged Rise)) (s : State) (sh : Shadow), s.inReset = false →
    s.wires.plannerRises = { epoch := s.epoch, msg := m } :: rest → s.cmd.shadow = some sh →
    sh.dCommit ≤ sh.dCut →
    let cf : Int := (m.p1 : Int) - ((sh.dCut : Int) - sh.dCommit)
    (∀ o, s.planner.openPiece = some o → s.planner.overdue = true ∨ cf < (o.head + o.sizes.l1 : Nat)) →
    exec .plannerRise s = .next { s with
      planner := { s.planner with
        cf := some cf
        cuts := s.planner.cuts.map fun x => if (x.pos : Int) ≤ cf then { x with committed := true } else x
        pieces := s.planner.pieces.map fun q =>
          if q.state = .planned ∧ (q.tail : Int) ≤ cf then { q with state := .committed } else q }
      wires := { s.wires with plannerRises := rest } }) ∧
  ∀ (m : Rise) (rest : List (Tagged Rise)) (s : State) (sh : Shadow) (o : OpenPiece), s.inReset = false →
    s.wires.plannerRises = { epoch := s.epoch, msg := m } :: rest → s.cmd.shadow = some sh → sh.dCommit ≤ sh.dCut →
    s.planner.openPiece = some o → s.planner.overdue = false →
    let cf : Int := (m.p1 : Int) - ((sh.dCut : Int) - sh.dCommit)
    let committed : Planner := { s.planner with
      cf := some cf
      cuts := s.planner.cuts.map fun x => if (x.pos : Int) ≤ cf then { x with committed := true } else x
      pieces := s.planner.pieces.map fun q =>
        if q.state = .planned ∧ (q.tail : Int) ≤ cf then { q with state := .committed } else q }
    (o.head + o.sizes.l1 : Nat) ≤ cf →
    (32 < s.planner.cuts.length + 1 ∨ 40 < s.planner.pieces.length + 2 →
      exec .plannerRise s = .next { s with
        planner := { committed with overdue := true }
        wires := { s.wires with plannerRises := rest } }) ∧
    ∀ g, s.planner.cuts.length + 1 ≤ 32 → s.planner.pieces.length + 2 ≤ 40 → s.planner.nextPiece < 4294967295 →
      s.cmd.plan.activate.inUse = some g →
      let tail := max s.planner.frontier (cf + 1).toNat
      exec .plannerRise s = .next { s with
        cmd := { s.cmd with plan := s.cmd.plan.activate }
        planner := { committed with
          pieces := committed.pieces ++
            [{ number := s.planner.nextPiece, kind := .overlength, head := some o.head, tail := tail, state := .planned,
               sizes := o.sizes }]
          cuts := committed.cuts ++ [{ pos := tail, kind := .overlength, committed := false }]
          nextPiece := s.planner.nextPiece + 1
          openPiece := some { head := tail, sizes := g } }
        wires := { s.wires with
          plannerRises := rest
          plannerAsm := s.wires.plannerAsm ++ [s.tag (.scan tail (tail + g.l1) g.level)]
          plannerStrike := s.wires.plannerStrike ++
            (if s.planner.cuts.isEmpty then [s.tag (.offer (some tail))] else []) } }

/-- STRIKE_CLAIM: a claim for the head of the queue is granted with the piece's number, kind, head and tail, the cut leaves
the queue, the piece is STRUCK and the next head is offered; a claim for any other position is withdrawn. No work waits on
the room here (R87, R103, R104).

A granted claim that frees the queue entry on which work waits: in RUNNING an overdue open piece, with a table slot for the
next one, becomes OVERLENGTH at the higher of the frontier position and Cf + 1, with one queue-full event, its flag clear and
a new open piece at the tail; without the slot it stays overdue (R88, R90). In DRAINING the open piece of a WAITING run end
becomes the RUN_END piece at the highest of the frontier position, h + min_trim and Cf + 1, and the run end is FIXED (R88,
R98). The cut placed in a queue the strike has emptied is offered in its turn (R103).

HEAD_OFFER replaces the offered head; with the claim state IDLE, a head whose strike target lies at or below the p1 of
the last rise taken is claimed at once (R103, R104).

CLAIM_WITHDRAWAL in CLAIMING: the claim state is IDLE, the withdrawn-claim count rises by one, SCORE stays as it was,
and a held head other than the cut claimed is taken up (R104). -/
def Obligations.ClaimsOffersAndWithdrawals : Prop :=
  (∀ (c : Nat) (rest : List (Tagged Nat)) (s : State) (sh : Shadow), s.inReset = false →
     s.wires.claims = { epoch := s.epoch, msg := c } :: rest → s.cmd.shadow = some sh →
     s.planner.overdue = false → s.planner.runEnd ≠ .waiting →
     (∀ x cs q, s.planner.cuts = x :: cs → x.pos = c → q ∈ s.planner.pieces → q.tail = c →
       (∀ r ∈ s.planner.pieces, r.tail = c → r = q) →
       exec .strikeClaim s = .next { s with
         planner := { s.planner with
           cuts := cs
           pieces := s.planner.pieces.map fun r => if r.tail = c then { r with state := .struck } else r }
         wires := { s.wires with
           claims := rest
           plannerStrike := s.wires.plannerStrike ++
             s.tagAll [.grant q.number q.kind q.head q.tail, .offer (cs.head?.map (·.pos))] } }) ∧
     (s.planner.headCut ≠ some c →
       exec .strikeClaim s = .next { s with wires := { s.wires with
         claims := rest, plannerStrike := s.wires.plannerStrike ++ [s.tag .withdrawal] } })) ∧
  (∀ (c : Nat) (rest : List (Tagged Nat)) (s : State) (sh : Shadow) (o : OpenPiece) (x : Cut) (cs : List Cut) (q : Piece),
     s.inReset = false → s.wires.claims = { epoch := s.epoch, msg := c } :: rest → s.cmd.shadow = some sh →
     s.planner.openPiece = some o → s.planner.cuts = x :: cs → x.pos = c → cs.length + 1 ≤ 32 → q ∈ s.planner.pieces →
     q.tail = c → (∀ r ∈ s.planner.pieces, r.tail = c → r = q) →
     let struck := s.planner.pieces.map fun r => if r.tail = c then { r with state := .struck } else r
     let lengthened := max s.planner.frontier (match s.planner.cf with | none => 0 | some cf => (cf + 1).toNat)
     let answer : List StrikeMsg := [.grant q.number q.kind q.head q.tail, .offer (cs.head?.map (·.pos))]
     let offered : Nat → List StrikeMsg := fun tail => if cs.isEmpty then [.offer (some tail)] else []
     (s.cmd.runState = .running → s.planner.overdue = true →
       (40 < s.planner.pieces.length + 2 →
         exec .strikeClaim s = .next { s with
           planner := { s.planner with cuts := cs, pieces := struck }
           wires := { s.wires with claims := rest, plannerStrike := s.wires.plannerStrike ++ s.tagAll answer } }) ∧
       ∀ g, s.planner.pieces.length + 2 ≤ 40 → s.planner.nextPiece < 4294967295 → s.cmd.plan.activate.inUse = some g →
         exec .strikeClaim s = .next { s with
           cmd := { s.cmd with plan := s.cmd.plan.activate }
           planner := { s.planner with
             pieces := struck ++
               [{ number := s.planner.nextPiece, kind := .overlength, head := some o.head, tail := lengthened,
                  state := .planned, sizes := o.sizes }]
             cuts := cs ++ [{ pos := lengthened, kind := .overlength, committed := false }]
             nextPiece := s.planner.nextPiece + 1, openPiece := some { head := lengthened, sizes := g }, overdue := false }
           wires := { s.wires with
             claims := rest
             plannerStrike := s.wires.plannerStrike ++ s.tagAll (answer ++ offered lengthened)
             plannerAsm := s.wires.plannerAsm ++ [s.tag (.scan lengthened (lengthened + g.l1) g.level)]
             increments := s.wires.increments ++ [(.planner, .queueFull)] } }) ∧
     (s.cmd.runState = .draining → s.planner.runEnd = .waiting → s.planner.pieces.length + 1 ≤ 40 →
       s.planner.nextPiece < 4294967295 →
       let tail := max lengthened (o.head + sh.minTrim)
       exec .strikeClaim s = .next { s with
         planner := { s.planner with
           pieces := struck ++
             [{ number := s.planner.nextPiece, kind := .runEnd, head := some o.head, tail := tail, state := .planned,
                sizes := o.sizes }]
           cuts := cs ++ [{ pos := tail, kind := .runEnd, committed := false }]
           nextPiece := s.planner.nextPiece + 1, openPiece := none, overdue := false, runEnd := .fixed }
         wires := { s.wires with
           claims := rest
           plannerStrike := s.wires.plannerStrike ++ s.tagAll (answer ++ offered tail) } })) ∧
  (∀ (c : Option Nat) (rest : List (Tagged StrikeMsg)) (s : State) (sh : Shadow), s.inReset = false →
     s.wires.plannerStrike = { epoch := s.epoch, msg := .offer c } :: rest → s.cmd.shadow = some sh →
     let held : State := { s with
       strike := { s.strike with offered := c }, wires := { s.wires with plannerStrike := rest } }
     exec .headOffer s = .next (match s.strike.claiming, c with
       | none, some x =>
         if x + sh.dCut ≤ s.strike.lastPos then
           { held with
             strike := { held.strike with claiming := some x }
             wires := { held.wires with claims := s.wires.claims ++ [s.tag x] } }
         else held
       | _, _ => held)) ∧
  (∀ (x : Nat) (rest : List (Tagged StrikeMsg)) (s : State) (sh : Shadow), s.inReset = false →
     s.wires.plannerStrike = { epoch := s.epoch, msg := .withdrawal } :: rest → s.cmd.shadow = some sh →
     s.strike.claiming = some x →
     let taken := match s.strike.offered with
       | some c => if c ≠ x ∧ c + sh.dCut ≤ s.strike.lastPos then [c] else []
       | none => []
     exec .claimWithdrawal s = .next { s with
       strike := { s.strike with
         claiming := taken.head?, withdrawn := min 4294967295 (s.strike.withdrawn + 1) }
       wires := { s.wires with plannerStrike := rest, claims := s.wires.claims ++ s.tagAll taken } })

/-- PIECE_REMOVAL and WAITING_LOG_MOVE: the piece leaves the table, or moves to WAITING_LOG; a removal that leaves a FIXED
run end with an empty table hands the completion of the run end to the Command Unit. No work waits on the room here (R80,
R99, R125).

A removal in RUNNING that frees the room an overdue open piece waits for: the piece becomes OVERLENGTH at the higher of
the frontier position and Cf + 1, one queue-full event is counted, the flag clears and a new open piece is created at the
tail (R88, R90). -/
def Obligations.RemovalsAndFreedRoom : Prop :=
  (∀ (n : Nat) (rest : List (Tagged PieceReq)) (s : State) (sh : Shadow), s.inReset = false → s.cmd.shadow = some sh →
     s.planner.overdue = false → s.planner.runEnd ≠ .waiting →
     (s.wires.pieceReqs = { epoch := s.epoch, msg := .removal n } :: rest →
       let pieces := s.planner.pieces.filter fun q => decide (q.number ≠ n)
       exec .pieceRemoval s = .next { s with
         planner := { s.planner with pieces := pieces }
         wires := { s.wires with
           pieceReqs := rest
           runEnds := s.wires.runEnds ++
             (if s.planner.runEnd = .fixed ∧ pieces.isEmpty = true ∧ s.planner.openPiece.isNone = true then [s.tag ()]
              else []) } }) ∧
     (s.wires.pieceReqs = { epoch := s.epoch, msg := .waitingLog n } :: rest →
       exec .waitingLogMove s = .next { s with
         planner := { s.planner with
           pieces := s.planner.pieces.map fun q => if q.number = n then { q with state := .waitingLog } else q }
         wires := { s.wires with pieceReqs := rest } })) ∧
  (∀ (n : Nat) (rest : List (Tagged PieceReq)) (s : State) (sh : Shadow) (o : OpenPiece) (g : PlanGroup),
     s.inReset = false → s.cmd.shadow = some sh → s.cmd.runState = .running → s.planner.openPiece = some o →
     s.planner.overdue = true → s.planner.runEnd ≠ .fixed → s.cmd.plan.activate.inUse = some g →
     s.wires.pieceReqs = { epoch := s.epoch, msg := .removal n } :: rest → s.planner.cuts.length < 32 →
     s.planner.nextPiece < 4294967295 →
     let pieces := s.planner.pieces.filter fun q => decide (q.number ≠ n)
     pieces.length + 2 ≤ 40 →
     ∃ (t : State) (tail : Nat), exec .pieceRemoval s = .next t ∧
       tail = max s.planner.frontier (match s.planner.cf with | none => 0 | some cf => (cf + 1).toNat) ∧
       t.planner = { s.planner with
         pieces := pieces ++
           [{ number := s.planner.nextPiece, kind := .overlength, head := some o.head, tail := tail, state := .planned,
              sizes := o.sizes }]
         cuts := s.planner.cuts ++ [{ pos := tail, kind := .overlength, committed := false }]
         nextPiece := s.planner.nextPiece + 1, openPiece := some { head := tail, sizes := g }, overdue := false } ∧
       t.wires.increments = s.wires.increments ++ [(.planner, .queueFull)] ∧
       t.wires.plannerAsm = s.wires.plannerAsm ++ [s.tag (.scan tail (tail + g.l1) g.level)] ∧
       t.wires.runEnds = s.wires.runEnds)

/-! ## Strike Unit -/

/-- STRIKE_RISE in the counting window: the last position becomes p1, and with the claim state IDLE a strike target in
(p0, p1] is claimed, once (R104, R111). The targets in (p0, p1] arrive: a score end makes the score state DONE, a snap end
the snap state DONE, a snap start a WAITING snap ON, and an entry with both states DONE leaves the track; a gate window
whose end has arrived is gone, one whose start has arrived is recorded so, and every other entry and window stays as it
was (R106, R110, R111). SCORE, SNAP and GATE stay what the track and the gate list call for, and a snap or a gate window
that starts in the rise asserts its output even if it ends there too. Outside the window the rise changes nothing.

That a rise taken outside the window is dropped, and the count of the pulses of an output, are the model's
(notes/assumptions/24, notes/assumptions/9). -/
def Obligations.RiseReachesTheStrikeTarget : Prop :=
  ∀ (m : Rise) (rest : List (Tagged Rise)) (s : State) (sh : Shadow), s.inReset = false →
    s.wires.strikeRises = { epoch := s.epoch, msg := m } :: rest → s.cmd.shadow = some sh →
    if s.cmd.runState.counting then
      let reached : Nat → Bool := fun v => decide (m.p0 < v) && decide (v ≤ m.p1)
      let claimed : List Nat := match s.strike.claiming, s.strike.offered with
        | none, some c => if reached (c + sh.dCut) then [c] else []
        | _, _ => []
      ∃ t : State, exec .strikeRise s = .next t ∧
        t = { s with
          strike := t.strike
          wires := { s.wires with strikeRises := rest, claims := s.wires.claims ++ s.tagAll claimed } } ∧
        t.strike = { s.strike with
          track := t.strike.track
          gates := gatesAfter reached s.strike.gates
          lastPos := m.p1
          claiming := s.strike.claiming.or claimed.head?
          score := t.strike.score
          snap := t.strike.snap
          gate := t.strike.gate } ∧
        t.strike.track.filter TrackEntry.standing =
          (s.strike.track.map (TrackEntry.after reached)).filter TrackEntry.standing ∧
        (∀ e ∈ t.strike.track, e.standing = true ∨ e ∈ s.strike.track) ∧
        (s.outputsRight → t.outputsRight) ∧
        (∀ e ∈ s.strike.track, e.snap = .waiting → reached e.snapStart = true → e.snapStart < e.snapEnd →
          s.strike.snap.level = false → s.strike.snap.asserted < t.strike.snap.asserted) ∧
        (∀ g ∈ s.strike.gates, g.arrived = false → reached g.start = true → g.start < g.stop →
          s.strike.gate.level = false → s.strike.gate.asserted < t.strike.gate.asserted)
    else exec .strikeRise s = .next { s with wires := { s.wires with strikeRises := rest } }

/-- STRIKE_GRANT: under the STRIKE group at its effect point the strike at the tail makes a track entry with the positions of
R105, closing the oldest of four with one strike overlap; SCORE is asserted, the strike count rises, the piece is handed to
grading with D_gate and the mask, and the claim ends, a held head other than the cut claimed being taken up (R102 to R108).
With the entry's targets above the last rise, the new entry joins the track as it is made.

In every case the entry's targets that lie at or below the p1 of the last rise arrive at once, in order of value, and the
others wait; an oldest entry closed with its snap WAITING gives one pulse on SNAP, and a new entry whose snap starts at once
asserts SNAP; SCORE, SNAP and GATE stand as the track and the gate list call for (R105, R106, R107).

That the cut just struck is not claimed again is the model's reading, the count of an output's assertions its record, and that a
pulse adds one to it while another entry holds SNAP asserted its choice (notes/assumptions/23, notes/assumptions/9,
notes/assumptions/45). -/
def Obligations.GrantMakesTheStrike : Prop :=
  (∀ (number : Nat) (kind : PieceKind) (head : Option Nat) (tail : Nat) (rest : List (Tagged StrikeMsg)) (s : State)
     (sh : Shadow) (g : StrikeGroup), s.inReset = false →
     s.wires.plannerStrike = { epoch := s.epoch, msg := .grant number kind head tail } :: rest →
     s.cmd.shadow = some sh → s.cmd.strike.activate.inUse = some g →
     s.strike.lastPos < tail + sh.dCut + g.wScore → s.strike.lastPos < tail + sh.dCut + g.dSnap → 0 < g.wSnap →
     ∃ t : State, exec .strikeGrant s = .next t ∧
       t.strike.track = (if s.strike.track.length < 4 then s.strike.track else s.strike.track.tail) ++
         [{ cut := tail, strike := tail + sh.dCut, scoreEnd := tail + sh.dCut + g.wScore,
            snapStart := tail + sh.dCut + g.dSnap, snapEnd := tail + sh.dCut + g.dSnap + g.wSnap, score := .on,
            snap := .waiting }] ∧
       t.strike.gates = s.strike.gates ∧ t.strike.score.level = true ∧ t.strike.lastPos = s.strike.lastPos ∧
       t.strike.strikes = min 4294967295 (s.strike.strikes + 1) ∧ t.wires.plannerStrike = rest ∧
       t.wires.handoffs = s.wires.handoffs ++
         [s.tag { number := number, kind := kind, head := head, tail := tail, dGate := g.dGate, mask := g.mask }] ∧
       t.wires.increments = s.wires.increments ++
         (if s.strike.track.length < 4 then [] else [(.strike, .strikeOverlap)]) ∧
       t.cmd = { s.cmd with strike := s.cmd.strike.activate } ∧
       (let taken := match s.strike.offered with
          | some c => if s.strike.offered ≠ s.strike.claiming ∧ c + sh.dCut ≤ s.strike.lastPos then [c] else []
          | none => []
        t.strike.claiming = taken.head? ∧ t.wires.claims = s.wires.claims ++ s.tagAll taken)) ∧
  (∀ (number : Nat) (kind : PieceKind) (head : Option Nat) (tail : Nat) (rest : List (Tagged StrikeMsg)) (s : State)
     (sh : Shadow) (g : StrikeGroup), s.inReset = false →
     s.wires.plannerStrike = { epoch := s.epoch, msg := .grant number kind head tail } :: rest →
     s.cmd.shadow = some sh → s.cmd.strike.activate.inUse = some g →
     let a := tail + sh.dCut
     let last := s.strike.lastPos
     let reached : Nat → Bool := fun v =>
       decide (v ≤ last) && decide (v = a + g.wScore ∨ v = a + g.dSnap ∨ v = a + g.dSnap + g.wSnap)
     let kept := if s.strike.track.length < 4 then s.strike.track else s.strike.track.tail
     let entries := kept ++
       [({ cut := tail, strike := a, scoreEnd := a + g.wScore, snapStart := a + g.dSnap,
           snapEnd := a + g.dSnap + g.wSnap, score := .on, snap := .waiting } : TrackEntry)]
     let taken := match s.strike.offered with
       | some c => if s.strike.offered ≠ s.strike.claiming ∧ c + sh.dCut ≤ last then [c] else []
       | none => []
     ∃ t : State, exec .strikeGrant s = .next t ∧
       t = { s with
         cmd := { s.cmd with strike := s.cmd.strike.activate }
         strike := t.strike
         wires := { s.wires with
           plannerStrike := rest
           claims := s.wires.claims ++ s.tagAll taken
           handoffs := s.wires.handoffs ++
             [s.tag { number := number, kind := kind, head := head, tail := tail, dGate := g.dGate, mask := g.mask }]
           increments := s.wires.increments ++
             (if s.strike.track.length < 4 then [] else [(.strike, .strikeOverlap)]) } } ∧
       t.strike = { s.strike with
         track := if last < a + g.wScore ∧ last < a + g.dSnap then entries
           else (entries.map (TrackEntry.after reached)).filter TrackEntry.standing
         gates := gatesAfter reached s.strike.gates
         claiming := taken.head?
         strikes := min 4294967295 (s.strike.strikes + 1)
         score := t.strike.score
         snap := t.strike.snap
         gate := t.strike.gate } ∧
       t.outputsRight ∧
       t.strike.score.asserted = s.strike.score.asserted + (if s.strike.score.level then 0 else 1) ∧
       (last < a + g.wScore → last < a + g.dSnap → s.outputsRight →
         t.strike.snap.asserted = s.strike.snap.asserted +
           (if 4 ≤ s.strike.track.length ∧ (s.strike.track.head?.any fun e => decide (e.snap = .waiting)) = true then 1
            else 0)) ∧
       (a + g.dSnap ≤ last → 0 < g.wSnap → s.strike.snap.level = false →
         s.strike.snap.asserted < t.strike.snap.asserted))

/-- GRADE_ANSWER: a grade in the mask makes the window [g0, g1) of R109, joined to the newest window, entered, or merged
across the gap as R110 says, with one GATE_LATE for a window that starts below the strike position or has ended already; a
window that has ended is discarded. A grade outside the mask, or an answer outside the counting window, makes none.

That a joined window keeps its arrived mark is the model's reading (notes/assumptions/30). -/
def Obligations.GradeAnswerMakesTheWindow : Prop :=
  ∀ (a : GradeAnswer) (rest : List (Tagged GradeAnswer)) (s : State) (sh : Shadow), s.inReset = false →
    s.wires.gradeAnswers = { epoch := s.epoch, msg := a } :: rest → s.cmd.shadow = some sh →
    let inMask : Bool := match a.grade with
      | .a => false | .b => a.mask.b | .c => a.mask.c | .u => a.mask.u | .x => a.mask.x
    let start := if a.kind = .lead then sh.dCut else a.head.getD 0 + sh.dCut + a.dGate
    let stop := a.tail + sh.dCut + a.dGate
    let window : GateWindow := { start := start, stop := stop, arrived := decide (start ≤ s.strike.lastPos) }
    let late : Bool := decide (start < a.tail + sh.dCut) || decide (stop ≤ s.strike.lastPos)
    if s.cmd.runState.counting = true ∧ inMask = true then
      ∃ t : State, exec .gradeAnswer s = .next t ∧ t.wires = { s.wires with
          gradeAnswers := rest
          increments := s.wires.increments ++ (if late then [(.strike, .gateLate)] else []) } ∧
        t.strike.track = s.strike.track ∧
        (if stop ≤ s.strike.lastPos then t.strike = s.strike
         else
           (t.strike.gate.level = true ↔ ∃ g ∈ t.strike.gates, g.arrived = true) ∧
           match s.strike.gates.getLast? with
           | none => t.strike.gates = s.strike.gates ++ [window] ∧ t.strike.merges = s.strike.merges
           | some g =>
             let joined := s.strike.gates.dropLast ++ [{ g with stop := max g.stop stop }]
             if start ≤ g.stop then t.strike.gates = joined ∧ t.strike.merges = s.strike.merges
             else if s.strike.gates.length < 8 then
               t.strike.gates = s.strike.gates ++ [window] ∧ t.strike.merges = s.strike.merges
             else t.strike.gates = joined ∧ t.strike.merges = min 4294967295 (s.strike.merges + 1))
    else exec .gradeAnswer s = .next { s with wires := { s.wires with gradeAnswers := rest } }

/-! ## Grading Unit -/

/-- GRADING_HANDOFF joins the end of the grading queue, and one of an ended run is discarded and counted as abandoned; and
GRADING_BEGIN takes the oldest hand-off of an IDLE unit into GATHERING under the GRADE group at its effect point, with a
gather of its head and tail (R115, R116, R128).

STAMP in STAMPING: the record takes the stamp and joins the outbound list, the graded count rises and the unit is IDLE;
with the log-full mark set the piece waits and goes to WAITING_LOG at once, and otherwise the oldest record is offered unless
an offer is outstanding (R123, R125).

The Record Writer's answers at the Grading Unit: ACCEPTED removes the oldest record and its piece, FULL sets the log-full
mark and sends every piece of the list to WAITING_LOG, a room event clears the mark; and the oldest record is offered again
when none is outstanding and the mark is clear (R125, R126).

That a message of an ended run is told by the count of run resets is the model's (notes/assumptions/5). -/
def Obligations.GradingQueueStampsAndRecords : Prop :=
  ((∀ (m : Tagged Handoff) (rest : List (Tagged Handoff)) (s : State), s.inReset = false → s.wires.handoffs = m :: rest →
     exec .gradingHandoff s = .next (if m.epoch = s.epoch then
       { s with
         grading := { s.grading with queue := s.grading.queue ++ [m.msg] }, wires := { s.wires with handoffs := rest } }
     else { s with wires := { s.wires with
       handoffs := rest, increments := s.wires.increments ++ [(.grading, .abandoned)] } })) ∧
   ∀ (h : Handoff) (rest : List Handoff) (s : State), s.inReset = false → s.grading.state = .idle →
     s.grading.queue = h :: rest →
     exec .gradingBegin s = .next { s with
       cmd := { s.cmd with grade := s.cmd.grade.activate }
       grading := { s.grading with queue := rest, state := .gathering h, group := s.cmd.grade.activate.inUse }
       wires := { s.wires with gathers := s.wires.gathers ++ [s.tag { head := h.head, tail := h.tail }] } }) ∧
  (∀ (x : ShiftStamp) (rest : List (Tagged ShiftStamp)) (s : State) (r : PlateRecord), s.inReset = false →
     s.wires.stamps = { epoch := s.epoch, msg := x } :: rest → s.grading.state = .stamping r →
     ∃ t : State, exec .stamp s = .next t ∧ t.grading.state = .idle ∧ t.grading.queue = s.grading.queue ∧
       t.grading.graded = min 4294967295 (s.grading.graded + 1) ∧ t.grading.logFull = s.grading.logFull ∧
       t.grading.outbound =
         s.grading.outbound ++ [{ record := { r with stamp := some x }, waiting := s.grading.logFull }] ∧
       (if s.grading.logFull then
         t.grading.held = s.grading.held + 1 ∧ t.grading.outstanding = s.grading.outstanding ∧
         t.wires = { s.wires with stamps := rest, pieceReqs := s.wires.pieceReqs ++ [s.tag (.waitingLog r.number)] }
       else
         t.grading.held = s.grading.held ∧ t.grading.outstanding = true ∧
         t.wires = { s.wires with
           stamps := rest
           plateOffers := s.wires.plateOffers ++ (if s.grading.outstanding then [] else
             (t.grading.outbound.take 1).map fun o => s.tag o.record) })) ∧
  ((∀ (o : Outbound) (os : List Outbound) (rest : List (Tagged LogAnswer)) (s : State), s.inReset = false →
     s.wires.plateAnswers = { epoch := s.epoch, msg := .accepted } :: rest → s.grading.outbound = o :: os →
     ∃ t : State, exec .plateAccepted s = .next t ∧ t.grading = { s.grading with
         outbound := os, outstanding := !s.grading.logFull && !os.isEmpty,
         held := if o.waiting then s.grading.held - 1 else s.grading.held } ∧
       t.wires = { s.wires with
         plateAnswers := rest
         pieceReqs := s.wires.pieceReqs ++ [s.tag (.removal o.record.number)]
         plateOffers := s.wires.plateOffers ++
           (if s.grading.logFull then [] else (os.take 1).map fun p => s.tag p.record) }) ∧
   (∀ (rest : List (Tagged LogAnswer)) (s : State), s.inReset = false →
     s.wires.plateAnswers = { epoch := s.epoch, msg := .full } :: rest →
     let moved := s.grading.outbound.filter fun o => !o.waiting
     exec .plateFull s = .next { s with
       grading := { s.grading with
         outstanding := false, logFull := true, held := s.grading.held + moved.length,
         outbound := s.grading.outbound.map fun o => { o with waiting := true } }
       wires := { s.wires with
         plateAnswers := rest
         pieceReqs := s.wires.pieceReqs ++ moved.map fun o => s.tag (.waitingLog o.record.number) } }) ∧
   ∀ (rest : List (Tagged LogAnswer)) (s : State), s.inReset = false →
     s.wires.plateAnswers = { epoch := s.epoch, msg := .room } :: rest → s.grading.outstanding = false →
     ∃ t : State, exec .plateRoom s = .next t ∧
       t.grading = { s.grading with
         logFull := false, outstanding := s.grading.logFull && !s.grading.outbound.isEmpty } ∧
       t.wires = { s.wires with
         plateAnswers := rest
         plateOffers := s.wires.plateOffers ++
           (if s.grading.logFull then (s.grading.outbound.take 1).map fun p => s.tag p.record else []) })

/-- The gather's answer measures the piece: its length is floor((tail − head) / 1,000) mm and its area floor((tail − head) ×
(net_hi − net_lo) / 10^10) dm², saturating at 2^32 − 1, with the net range of the configuration shadow; a LEAD piece, which
has no head, has length 0 and area 0 (R118). -/
def Obligations.PieceLengthAndArea : Prop :=
  ∀ (a : GatherAnswer) (rest : List (Tagged GatherAnswer)) (s : State) (sh : Shadow) (h : Handoff) (g : GradeGroup),
    s.inReset = false → s.wires.gatherAnswers = { epoch := s.epoch, msg := a } :: rest →
    s.grading.state = .gathering h → s.grading.group = some g → s.cmd.shadow = some sh →
    ∃ (t : State) (r : PlateRecord), exec .gatherAnswer s = .next t ∧ t.grading.state = .stamping r ∧
      match h.head with
      | none => r.length = 0 ∧ r.area = 0
      | some head =>
        r.length = (h.tail - head) / 1000 ∧
          r.area = min (2 ^ 32 - 1) ((h.tail - head) * (sh.netHi - sh.netLo) / 10 ^ 10)

/-- The gather's answer grades the piece: the gathered flaws counted by severity, by class, LATE and UNPLANNED and in all, the
grade by R119's order and then the worst of it and every class cap that applies, the reasons for the grade, each recorded
whatever step decided it (R120), the diverted mark from the grade and the mask of the hand-off, the grade answer to the Strike
Unit, the increments to the Shift Unit, and STAMPING with the record, its stamp still to come (R108, R117, R119 to R121, R123,
R124). -/
def Obligations.GatherAnswerGradesThePiece : Prop :=
  ∀ (a : GatherAnswer) (rest : List (Tagged GatherAnswer)) (s : State) (sh : Shadow) (h : Handoff) (g : GradeGroup),
    s.inReset = false → s.wires.gatherAnswers = { epoch := s.epoch, msg := a } :: rest →
    s.grading.state = .gathering h → s.grading.group = some g → s.cmd.shadow = some sh →
    ∃ (t : State) (r : PlateRecord), exec .gatherAnswer s = .next t ∧
      t.grading = { s.grading with state := .stamping r } ∧ r.run = s.cmd.run ∧ r.number = h.number ∧ r.kind = h.kind ∧
      r.head = h.head ∧ r.tail = h.tail ∧ r.overlap = a.overlap ∧ r.overflow = a.overflow ∧
      r.stamp = none ∧
      (let n := fun p : FlawEntry → Bool => (a.entries.filter p).length
       r.counts =
         { minor := n fun f => decide (f.severity = .minor), major := n fun f => decide (f.severity = .major),
           reject := n fun f => decide (f.severity = .reject), point := n fun f => decide (f.cls = .point),
           streak := n fun f => decide (f.cls = .streak), band := n fun f => decide (f.cls = .band),
           area := n fun f => decide (f.cls = .area), late := n fun f => f.late, unplanned := n fun f => f.unplanned,
           total := a.entries.length }) ∧
      r.counts.minor + r.counts.major + r.counts.reject = r.counts.total ∧
      r.counts.point + r.counts.streak + r.counts.band + r.counts.area = r.counts.total ∧
      (let n := fun v : Severity => (a.entries.filter fun f => decide (f.severity = v)).length
       let dense : Nat → Bool := fun limit => decide (limit * r.area < n .minor * 1000)
       let order : Grade :=
         if h.kind = .lead ∨ h.kind = .cullet ∨ h.kind = .overlength ∨ h.kind = .runEnd then .x
         else if 0 < a.overlap ∨ a.overflow = true then .u
         else if 0 < n .reject ∨ g.majorMaxB < n .major ∨ dense g.dB = true then .c
         else if g.majorMaxA < n .major ∨ dense g.dA = true then .b
         else .a
       let caps := a.entries.filterMap fun f => if f.severity = .minor then none else some (g.cap f.cls)
       let capped : FlawClass → Bool := fun c =>
         (a.entries.any fun f => decide (f.cls = c) && decide (f.severity ≠ .minor)) &&
           (match order with
            | .a => decide (0 < g.cap c)
            | .b => decide (1 < g.cap c)
            | .c => decide (2 < g.cap c)
            | .u | .x => false)
       (match order with
        | .u | .x => r.grade = order
        | .a => r.grade = gradeOfCode (caps.foldl max 0)
        | .b => r.grade = gradeOfCode (caps.foldl max 1)
        | .c => r.grade = .c) ∧
       r.reasons =
         { kind := decide (order = .x), gap := decide (0 < a.overlap), overflow := a.overflow,
           reject := decide (0 < n .reject), majorB := decide (g.majorMaxB < n .major), densityB := dense g.dB,
           majorA := decide (g.majorMaxA < n .major), densityA := dense g.dA, capPoint := capped .point,
           capStreak := capped .streak, capBand := capped .band, capArea := capped .area }) ∧
      r.diverted = (match r.grade with
        | .x => h.mask.x
        | .c => h.mask.c
        | .u => h.mask.u
        | .b => h.mask.b
        | .a => false) ∧
      t.wires = { s.wires with
        gatherAnswers := rest
        gradeAnswers := s.wires.gradeAnswers ++
          [s.tag { number := h.number, kind := h.kind, head := h.head, tail := h.tail, grade := r.grade, dGate := h.dGate,
                   mask := h.mask }]
        gradingIncs := s.wires.gradingIncs ++
          [s.tag { grade := r.grade, length := r.length, cullet := decide (h.kind = .cullet) }] }

/-- The top-flaw list of a plate record: the gathered flaws, REJECT first, then MAJOR, then MINOR, each severity in the order
the gather gave, and of these the first sixteen, by number (R122). GATHER_ANSWER leaves the piece in STAMPING with a record that
holds that list. -/
def Obligations.TopFlawsBySeverity : Prop :=
  (∀ (run : Word16) (netLo netHi : Nat) (g : GradeGroup) (h : Handoff) (a : GatherAnswer),
    ∃ ordered : List FlawEntry,
      (plateRecordOf run netLo netHi g h a).top = (ordered.take 16).map (·.number) ∧ ordered.Perm a.entries ∧
      ordered.Pairwise (fun e f => f.severity.code ≤ e.severity.code) ∧
      ∀ v : Severity,
        (ordered.filter fun f => decide (f.severity = v)) = a.entries.filter fun f => decide (f.severity = v)) ∧
  ∀ (a : GatherAnswer) (rest : List (Tagged GatherAnswer)) (s : State) (h : Handoff) (g : GradeGroup) (sh : Shadow),
    s.inReset = false → s.wires.gatherAnswers = { epoch := s.epoch, msg := a } :: rest →
    s.grading.state = .gathering h → s.grading.group = some g → s.cmd.shadow = some sh →
    ∃ (t : State) (r : PlateRecord) (ordered : List FlawEntry), exec .gatherAnswer s = .next t ∧
      t.grading.state = .stamping r ∧ r.number = h.number ∧ r.top = (ordered.take 16).map (·.number) ∧
      ordered.Perm a.entries ∧ ordered.Pairwise (fun e f => f.severity.code ≤ e.severity.code) ∧
      ∀ v : Severity,
        (ordered.filter fun f => decide (f.severity = v)) = a.entries.filter fun f => decide (f.severity = v)

/-! ## Shift Unit -/

/-- CLOSE_SHIFT is a boundary with slot MANUAL in any run state: with the hold slot EMPTY the tally is frozen with the
calendar as its end, offered, and followed by a new one under the next shift number; otherwise one boundary is merged; the
command is DONE (R134, R135). -/
def Obligations.CloseShiftIsABoundary : Prop :=
  ∀ (n : Nat) (bytes : List Byte) (s : State), s.inReset = false →
    s.cmd.execution = some { slot := n, phase := .ready bytes } → byteAt bytes 0 = 9 →
    ∃ t : State, exec .closeShift s = .next t ∧
      t.cmd = { s.cmd with execution := some { slot := n, phase := .finished none } } ∧
      t.shift.calendar = s.shift.calendar ∧ t.shift.sub = s.shift.sub ∧ t.shift.run = s.shift.run ∧
      match s.shift.hold with
      | .empty =>
        t.shift.hold = .offered { tally := s.shift.tally, fin := s.shift.calendar } ∧
        t.wires = { s.wires with
          shiftOffers := s.wires.shiftOffers ++ [{ tally := s.shift.tally, fin := s.shift.calendar }] } ∧
        t.shift.number = s.shift.number + 1 ∧
        t.shift.tally =
          { shift := s.shift.number + 1, start := s.shift.calendar, slot := .manual, clockSet := false,
            clockUnset := !s.shift.valid, merged := 0, counters := TallyCounters.zero,
            runs := if s.shift.runState = .running ∨ s.shift.runState = .draining then
              some { first := s.shift.run, last := s.shift.run } else none }
      | _ =>
        t.shift = { s.shift with tally := { s.shift.tally with merged := min 65535 (s.shift.tally.merged + 1) } } ∧
        t.wires = s.wires

/-- TALLY_INCREMENT adds the oldest increment of one block to the open tally, each counter saturating: what each kind of
increment adds (R136), a gap line's length being the line pitch. Any other increment is added with the configuration shadow
absent as well, such as a refused access in TRANSPARENT.

The hold slot's states: ACCEPTED empties an OFFERED slot, FULL makes it HELD, and a room event offers a HELD report
again; every other answer leaves it (R140). -/
def Obligations.IncrementsAndReportAnswers : Prop :=
  (∀ (b : Sender) (i : Increment) (before after : List (Sender × Increment)) (s : State) (pitch : Nat),
     s.inReset = false → s.wires.increments = before ++ (b, i) :: after → (∀ m ∈ before, m.1 ≠ b) →
     s.cmd.shadow.map (·.travel.pitch) = some pitch ∨ (∀ g : GapCause, i ≠ .gapLine g) →
     let c := s.shift.tally.counters
     let up : Nat → Nat := fun n => min 4294967295 (n + 1)
     let counters : TallyCounters := match i with
       | .stop => { c with stops := up c.stops }
       | .stopSecond => { c with stopSeconds := up c.stopSeconds }
       | .gapLine g =>
         { c with
           gapLines := up c.gapLines, gapCauses := c.gapCauses.set g.idx (up c.gapCauses[g.idx]),
           gapLength := min (2 ^ 48 - 1) (c.gapLength + pitch) }
       | .flaw k v o =>
         { c with
           flaws := c.flaws.set (flawIdx k v) (up c.flaws[flawIdx k v]), orphan := if o then up c.orphan else c.orphan }
       | .edgeFlaw => { c with edge := up c.edge }
       | .lateFlaw => { c with late := up c.late }
       | .unplannedFlaw => { c with unplanned := up c.unplanned }
       | .queueFull => { c with queueFull := up c.queueFull }
       | .abandoned => { c with abandoned := up c.abandoned }
       | .flawLost => { c with flawLost := up c.flawLost }
       | .gateLate => { c with gateLate := up c.gateLate }
       | .strikeOverlap => { c with overlaps := up c.overlaps }
       | .refusedAccess => { c with refused := up c.refused }
     exec (.tallyIncrement b) s = .next { s with
       shift := { s.shift with tally := { s.shift.tally with counters := counters } }
       wires := { s.wires with increments := before ++ after } }) ∧
  (∀ (a : LogAnswer) (rest : List LogAnswer) (s : State), s.inReset = false → s.wires.shiftAnswers = a :: rest →
     exec (match a with | .accepted => .shiftAccepted | .full => .shiftFull | .room => .shiftRoom) s =
       .next { s with
         shift := { s.shift with hold := match a, s.shift.hold with
           | .accepted, .offered _ => .empty
           | .full, .offered r => .held r
           | .room, .held r => .offered r
           | _, h => h }
         wires := { s.wires with
           shiftAnswers := rest
           shiftOffers := s.wires.shiftOffers ++ (match a, s.shift.hold with
             | .room, .held r => [r]
             | _, _ => []) } })

/-- The increments of one grading are taken whole as one event: one piece and its length to its grade, and to the cullet
length for a CULLET piece, each saturating, in the tally open at that moment; and they are answered with that tally's shift
number, the calendar as it stands and the clock-valid flag (R137). -/
def Obligations.GradingIncrementsAreStamped : Prop :=
  ∀ (m : Tagged GradingIncrement) (rest : List (Tagged GradingIncrement)) (s : State), s.inReset = false →
    s.wires.gradingIncs = m :: rest →
    let c := s.shift.tally.counters
    let g := m.msg.grade.idx
    exec .gradingIncrements s = .next { s with
      shift := { s.shift with tally := { s.shift.tally with counters := { c with
        pieces := c.pieces.set g (min (2 ^ 32 - 1) (c.pieces[g] + 1))
        lengths := c.lengths.set g (min (2 ^ 48 - 1) (c.lengths[g] + m.msg.length))
        cullet := if m.msg.cullet then min (2 ^ 48 - 1) (c.cullet + m.msg.length) else c.cullet } } }
      wires := { s.wires with
        gradingIncs := rest
        stamps := s.wires.stamps ++ [{ epoch := m.epoch, msg :=
          { shift := s.shift.tally.shift, time := s.shift.calendar, valid := s.shift.valid } }] } }

/-! ## Record Writer -/

/-- FLAW_RECORD: with room in the Flaw Log the record takes the log's next sequence number and the producer's ring position,
its body is queued and after it the sequence word alone, and the producer rises; in a full log, or one without fields, it is
dropped and counted in the flaw-lost counter and the tally (R167, R169).

PLATE_OFFER and SHIFT_REPORT_OFFER: with room the record is placed, the producer and the sequence number rise and the
answer is ACCEPTED; in a full log the answer is FULL and the refused mark is set (R167, R169).

The entry images: a Flaw, Plate, Shift or Fault Log record fills every byte of its entry but the sequence word, and an
entry's writes cover exactly its bytes, the sequence word's last and alone (R167, chapter 10.7). A plate record's holds for the
16 top flaws at most that R122 gives one.

Each field of a Flaw, Plate or Shift Log record stands at its offset of chapter 11.5 and holds the value named there, with the
codes of R174 and 0 for an item that is absent; every other byte of the record is zero (R174).

That the flaw-lost counter stays at 4,294,967,295, and how an entry's body is cut into writes, are the model's choices
(notes/assumptions/34, notes/assumptions/10). -/
def Obligations.RecordsArePlacedInTheirLogs : Prop :=
  (∀ (r : FlawRecord) (rest : List FlawRecord) (s : State), s.inReset = false → s.wires.flawRecords = r :: rest →
     let g := s.writer.logs[LogId.flaw.idx]
     (∀ f, g.fields = some f → (g.producer - g.consumer).toNat < f.entries →
       ∃ t : State, exec .flawRecord s = .next t ∧ t.writer.logs = s.writer.logs.set LogId.flaw.idx
           { g with producer := g.producer + 1, nextSeq := g.nextSeq + 1 } ∧
         t.writer.flawLost = s.writer.flawLost ∧ t.wires = { s.wires with flawRecords := rest } ∧
         (let entry := f.base + g.producer.toNat % f.entries * 64
          t.path.internal ++ t.writer.waiting = s.path.internal ++ s.writer.waiting ++
            [{ tag := .entryBody, addr := entry, span := r.image.length + 4, write := true,
               enables := List.replicate r.image.length true ++ List.replicate 4 false, data := r.image ++ zeros 4 },
             { tag := .entrySeq .flaw g.gen, addr := entry + 56, span := 8, write := true,
               enables := List.replicate 4 false ++ List.replicate 4 true,
               data := zeros 4 ++ le 4 g.nextSeq.toNat }])) ∧
     ((∀ f, g.fields = some f → f.entries ≤ (g.producer - g.consumer).toNat) →
       exec .flawRecord s = .next { s with
         writer := { s.writer with flawLost := min 4294967295 (s.writer.flawLost + 1) }
         wires := { s.wires with
           flawRecords := rest, increments := s.wires.increments ++ [(.writer, .flawLost)] } })) ∧
  ((∀ (r : PlateRecord) (rest : List (Tagged PlateRecord)) (s : State), s.inReset = false →
     s.wires.plateOffers = { epoch := s.epoch, msg := r } :: rest →
     let g := s.writer.logs[LogId.plate.idx]
     (∀ f, g.fields = some f → (g.producer - g.consumer).toNat < f.entries →
       ∃ t : State, exec .plateOffer s = .next t ∧ t.writer.logs = s.writer.logs.set LogId.plate.idx
           { g with producer := g.producer + 1, nextSeq := g.nextSeq + 1 } ∧
         t.wires = { s.wires with
           plateOffers := rest, plateAnswers := s.wires.plateAnswers ++ [s.tag .accepted] } ∧
         (let entry := f.base + g.producer.toNat % f.entries * 128
          t.path.internal ++ t.writer.waiting = s.path.internal ++ s.writer.waiting ++
            (bodyTxns entry r.image ++ [seqTxn .plate g.gen entry g.nextSeq]))) ∧
     ((∀ f, g.fields = some f → f.entries ≤ (g.producer - g.consumer).toNat) →
       exec .plateOffer s = .next { s with
         writer := { s.writer with logs := s.writer.logs.set LogId.plate.idx { g with refused := true } }
         wires := { s.wires with
           plateOffers := rest, plateAnswers := s.wires.plateAnswers ++ [s.tag .full] } })) ∧
   ∀ (r : ShiftReport) (rest : List ShiftReport) (s : State), s.inReset = false → s.wires.shiftOffers = r :: rest →
     let g := s.writer.logs[LogId.shift.idx]
     (∀ f, g.fields = some f → (g.producer - g.consumer).toNat < f.entries →
       ∃ t : State, exec .shiftReportOffer s = .next t ∧ t.writer.logs = s.writer.logs.set LogId.shift.idx
           { g with producer := g.producer + 1, nextSeq := g.nextSeq + 1 } ∧
         t.wires = { s.wires with shiftOffers := rest, shiftAnswers := s.wires.shiftAnswers ++ [.accepted] } ∧
         (let entry := f.base + g.producer.toNat % f.entries * 256
          t.path.internal ++ t.writer.waiting = s.path.internal ++ s.writer.waiting ++
            (bodyTxns entry r.image ++ [seqTxn .shift g.gen entry g.nextSeq]))) ∧
     ((∀ f, g.fields = some f → f.entries ≤ (g.producer - g.consumer).toNat) →
       exec .shiftReportOffer s = .next { s with
         writer := { s.writer with logs := s.writer.logs.set LogId.shift.idx { g with refused := true } }
         wires := { s.wires with shiftOffers := rest, shiftAnswers := s.wires.shiftAnswers ++ [.full] } })) ∧
  ((∀ r : FlawRecord, r.image.length = 60) ∧ (∀ r : PlateRecord, r.top.length ≤ 16 → r.image.length = 124) ∧
   (∀ r : ShiftReport, r.image.length = 252) ∧ (∀ r : FaultRecord, r.image.length = 28) ∧
   ∀ (l : LogId) (gen entry : Nat) (seq : Word32) (image : List Byte), image.length + 4 = l.entrySize →
     let writes := bodyTxns entry image ++ [seqTxn l gen entry seq]
     ∀ a, (∃ t ∈ writes, t.addr ≤ a ∧ a < t.addr + t.enables.length ∧ t.enables.getD (a - t.addr) false = true) ↔
       entry ≤ a ∧ a < entry + l.entrySize) ∧
  ((∀ r : FlawRecord,
     let bit : Bool → Nat := fun b => if b then 1 else 0
     imageShows r.image 60
       [(0x00, 4, r.number), (0x04, 2, r.run.toNat),
        (0x06, 1, match r.disposition with | .edge => 0 | .orphan => 1 | .held => 2 | .unheld => 3),
        (0x07, 1, match r.severity with | .minor => 1 | .major => 2 | .reject => 3),
        (0x08, 1, match r.cls with | .point => 0 | .streak => 1 | .band => 2 | .area => 3),
        (0x09, 1, match r.polarity with | .dark => 0 | .bright => 1 | .mixed => 2),
        (0x0A, 1, bit r.flags.merged + 2 * bit r.flags.crowded + 4 * bit r.flags.continued.isSome +
          8 * bit r.flags.partialView + 16 * bit r.flags.truncated + 32 * bit r.flags.forced),
        (0x0B, 1, (allLanes.map fun k => bit r.lanes[k] * 2 ^ k.val).sum), (0x0C, 4, r.first), (0x10, 4, r.front),
        (0x14, 4, r.flags.continued.getD 0), (0x18, 8, r.start), (0x20, 8, r.stop), (0x28, 4, r.lo), (0x2C, 4, r.hi),
        (0x30, 2, r.peak), (0x34, 4, r.sum), (0x38, 4, r.area)]) ∧
   (∀ r : PlateRecord, r.top.length ≤ 16 →
     let bit : Bool → Nat := fun b => if b then 1 else 0
     let q := r.reasons
     imageShows r.image 124
       ([(0x00, 4, r.number), (0x04, 2, r.run.toNat),
         (0x06, 1, match r.kind with
           | .lead => 0 | .size i => 1 + i.val | .cullet => 5 | .manual => 6 | .overlength => 7 | .runEnd => 8),
         (0x07, 1, match r.grade with | .a => 0 | .b => 1 | .c => 2 | .u => 3 | .x => 4),
         (0x08, 2, bit q.kind + 2 * bit q.gap + 4 * bit q.overflow + 8 * bit q.reject + 16 * bit q.majorB +
           32 * bit q.densityB + 64 * bit q.majorA + 128 * bit q.densityA + 256 * bit q.capPoint + 512 * bit q.capStreak +
           1024 * bit q.capBand + 2048 * bit q.capArea),
         (0x0A, 1, bit r.head.isSome + 2 * bit r.overflow + 4 * bit r.diverted +
           8 * bit ((r.stamp.map (·.valid)).getD false)),
         (0x0B, 1, r.top.length), (0x0C, 4, (r.stamp.map (·.shift.toNat)).getD 0), (0x10, 6, r.head.getD 0),
         (0x16, 6, r.tail), (0x1C, 4, r.area), (0x20, 2, r.counts.minor), (0x22, 2, r.counts.major),
         (0x24, 2, r.counts.reject), (0x26, 2, r.counts.point), (0x28, 2, r.counts.streak), (0x2A, 2, r.counts.band),
         (0x2C, 2, r.counts.area), (0x2E, 2, r.counts.late), (0x30, 2, r.counts.unplanned), (0x32, 2, r.counts.total),
         (0x34, 4, min r.overlap 4294967295), (0x38, 4, (r.stamp.map (·.time.stamp)).getD 0)] ++
        (List.range 16).map fun i => (0x3C + 4 * i, 4, r.top.getD i 0))) ∧
   ∀ r : ShiftReport,
     let bit : Bool → Nat := fun b => if b then 1 else 0
     let t := r.tally
     let c := t.counters
     let each : Nat → Nat → List Nat → List (Nat × Nat × Nat) := fun o n vs =>
       vs.zipIdx.map fun v => (o + n * v.2, n, v.1)
     imageShows r.image 252
       ([(0x00, 4, t.shift.toNat), (0x04, 1, match t.slot with | .entry i => i.val | .manual => 4 | .reset => 5),
         (0x05, 1, bit (decide (t.slot = .reset)) + 2 * bit t.clockSet + 4 * bit t.clockUnset +
           8 * bit (decide (0 < t.merged)) + 16 * bit t.runs.isSome),
         (0x06, 2, t.merged), (0x08, 4, t.start.stamp), (0x0C, 4, r.fin.stamp),
         (0x10, 2, (t.runs.map (·.first.toNat)).getD 0), (0x12, 2, (t.runs.map (·.last.toNat)).getD 0)] ++
        each 0x18 4 c.pieces.toList ++ each 0x2C 8 (c.lengths.toList ++ [c.cullet]) ++
        each 0x5C 4 (c.flaws.toList ++ [c.edge, c.orphan, c.late, c.unplanned, c.flawLost, c.gapLines]) ++
        [(0xA4, 8, c.gapLength / 1000)] ++
        each 0xAC 4 [c.stops, c.stopSeconds, c.queueFull, c.gateLate, c.overlaps] ++
        each 0xC0 4 ([c.refused, c.abandoned] ++ c.gapCauses.toList)) ∧
     (∀ k v, flawIdx k v = (match k with | .point => 0 | .streak => 3 | .band => 6 | .area => 9) +
       (match v with | .minor => 0 | .major => 1 | .reject => 2)) ∧
     [GapCause.missed, .torn, .overrun, .dropout, .faulted, .disabled, .locking, .blind].map (·.idx) = List.finRange 8)

/-- FAULT: the oldest fault of one block collapses into its source's open, unreleased record: the repeat count rises, the last
kind and time are the fault's, and a rewrite of the body, under a number of its own, is placed and announced to the Path Unit
with its ring position; while the internal queue is full it waits, and is not yet announced (R156, R157, R170). Otherwise the
fault makes a new record at the producer; in a full Fault Log it is lost, and the source has no open record (R170).

RELEASE_REQUEST: of the positions named, the newest that holds a written, unreleased entry raises the consumer to the
count just above it; positions that hold none release nothing; a Plate or Shift Log that is no longer full with its refused
mark set gives a room event and clears the mark; and ATTN is re-evaluated (R155, R168, R172).

Each field of a Fault Log record stands at its offset of chapter 11.5 and holds the value named there, with the codes of
R174 (R174).

That the fault-lost counter stays at 4,294,967,295, and how a record's body is cut into writes, are the model's choices, and the
numbering of rewrites its own (notes/assumptions/34, notes/assumptions/10, notes/assumptions/35). -/
def Obligations.FaultsAndReleases : Prop :=
  (∀ (b : FaultSender) (m : FaultMsg) (before after : List (FaultSender × FaultMsg)) (s : State), s.inReset = false →
     s.wires.faults = before ++ (b, m) :: after → (∀ x ∈ before, x.1 ≠ b) →
     let g := s.writer.logs[LogId.fault.idx]
     let unreleased := (g.producer - g.consumer).toNat
     (∀ o f, s.writer.collapse[m.source] = some o → g.fields = some f → (o.count - g.consumer).toNat < unreleased →
       let record : FaultRecord := { o.record with
         repeats := min 65535 (o.record.repeats + 1), lastKind := m.kind, lastTime := s.writer.calendar,
         lastValid := s.writer.clockValid }
       let id := s.writer.nextRewrite
       let position := o.count.toNat % f.entries
       let rewrite : Txn :=
         { tag := .rewrite id position, addr := f.base + position * 32, span := record.image.length + 4, write := true,
           enables := List.replicate record.image.length true ++ List.replicate 4 false,
           data := record.image ++ zeros 4 }
       let room : Bool := decide (s.path.internal.length < 16) && s.writer.waiting.isEmpty
       exec (.fault b) s = .next { s with
         writer := { s.writer with
           collapse := s.writer.collapse.set m.source (some { o with record := record }), nextRewrite := id + 1
           waiting := s.writer.waiting ++ if room then [] else [rewrite] }
         path := { s.path with internal := s.path.internal ++ if room then [rewrite] else [] }
         wires := { s.wires with
           faults := before ++ after
           announcements := s.wires.announcements ++ if room then [{ id := id, position := position }] else [] } }) ∧
     ((∀ o, s.writer.collapse[m.source] = some o → unreleased ≤ (o.count - g.consumer).toNat) →
       (∀ f, g.fields = some f → unreleased < f.entries →
         let record : FaultRecord :=
           { source := m.source, firstKind := m.kind, lastKind := m.kind, detailA := m.detailA, detailB := m.detailB,
             repeats := 1, firstTime := s.writer.calendar, lastTime := s.writer.calendar,
             firstValid := s.writer.clockValid, lastValid := s.writer.clockValid }
         ∃ t : State, exec (.fault b) s = .next t ∧ t.writer.logs = s.writer.logs.set LogId.fault.idx
             { g with producer := g.producer + 1, nextSeq := g.nextSeq + 1 } ∧
           t.writer.collapse = s.writer.collapse.set m.source (some { count := g.producer, record := record }) ∧
           t.wires = { s.wires with faults := before ++ after } ∧
           (let entry := f.base + g.producer.toNat % f.entries * 32
            t.path.internal ++ t.writer.waiting = s.path.internal ++ s.writer.waiting ++
              (bodyTxns entry record.image ++ [seqTxn .fault g.gen entry g.nextSeq]))) ∧
       ((∀ f, g.fields = some f → f.entries ≤ unreleased) →
         exec (.fault b) s = .next { s with
           writer := { s.writer with
             faultLost := min 4294967295 (s.writer.faultLost + 1), collapse := s.writer.collapse.set m.source none }
           wires := { s.wires with faults := before ++ after } }))) ∧
  (∀ (r : Release) (rest : List Release) (s : State) (f : LogFields), s.inReset = false → s.wires.releases = r :: rest →
     let g := s.writer.logs[r.log.idx]
     g.fields = some f → 0 < f.entries →
     let offset : Nat → Nat := fun p => (p + f.entries - g.consumer.toNat % f.entries) % f.entries
     let written := (g.written - g.consumer).toNat
     ((∀ p ∈ r.positions, p < f.entries → written ≤ offset p) →
       exec .releaseRequest s = .next { s with wires := { s.wires with releases := rest } }) ∧
     ∀ p, p ∈ r.positions → p < f.entries → offset p < written →
       (∀ q ∈ r.positions, q < f.entries → offset q < written → offset q ≤ offset p) →
       let consumer := g.consumer + BitVec.ofNat 32 (offset p + 1)
       let room := g.refused = true ∧ (g.producer - consumer).toNat < f.entries
       ∃ t : State, exec .releaseRequest s = .next t ∧ t.wires.releases = rest ∧ t.path = s.path ∧
         t.writer.logs[r.log.idx].consumer = consumer ∧ t.writer.logs[r.log.idx].producer = g.producer ∧
         t.writer.logs[r.log.idx].written = g.written ∧
         (∀ l : LogId, l ≠ r.log → t.writer.logs[l.idx] = s.writer.logs[l.idx]) ∧
         (match r.log with
          | .plate =>
            (room → t.wires.plateAnswers = s.wires.plateAnswers ++ [s.tag .room] ∧
              t.writer.logs[LogId.plate.idx].refused = false) ∧
            (¬ room → t.wires.plateAnswers = s.wires.plateAnswers)
          | .shift =>
            (room → t.wires.shiftAnswers = s.wires.shiftAnswers ++ [.room] ∧
              t.writer.logs[LogId.shift.idx].refused = false) ∧
            (¬ room → t.wires.shiftAnswers = s.wires.shiftAnswers)
          | .flaw => t.writer.collapse = s.writer.collapse
          | .fault => ∀ (k : SourceId) (o : OpenFault), s.writer.collapse[k] = some o →
              (t.writer.collapse[k] = none ↔ (g.producer - consumer).toNat ≤ (o.count - consumer).toNat)) ∧
         t.attnRight) ∧
  ∀ r : FaultRecord,
    let bit : Bool → Nat := fun b => if b then 1 else 0
    let code : FaultKind → Nat := fun k => match k with
      | .region => 1 | .viewWrite => 2 | .viewRight => 3 | .lockedField => 4 | .postOverrun => 5 | .groupInvalid => 6
      | .slotCross => 7 | .tornLine => 8
    imageShows r.image 28
      [(0x00, 1, r.source.val), (0x01, 1, code r.firstKind), (0x02, 1, code r.lastKind),
       (0x03, 1, bit r.firstValid + 2 * bit r.lastValid), (0x04, 2, r.repeats), (0x06, 2, r.detailA.toNat),
       (0x08, 8, r.detailB.toNat), (0x10, 4, r.firstTime.stamp), (0x14, 4, r.lastTime.stamp)]

/-! ## Command Unit -/

/-- COMMAND_TAKE and COMMAND_COMPLETION: a posted command is taken when none is in execution, its slot at the taken index mod
16 read whole, and the index rises; a finished one raises the completion count and queues its status and then the completion
word, each in a beat of its own (R160, R161, R175). The completion word's beat written whole, its reserved bytes zero, is the
model's reading (notes/assumptions/7).

The refusals by run state and by kind: each leaves the state as it was but for the finished command, and a CONFIGURE in a
run leaves its reason for the status page as well (R160, R163 to R165).

That a CONFIGURE in a run leaves its reason for the page is the model's reading (notes/assumptions/27), and that an empty mask of
lanes is refused in TRANSPARENT too its choice (notes/assumptions/44). -/
def Obligations.CommandRing : Prop :=
  ((∀ s : State, s.inReset = false → s.cmd.execution = none → s.cmd.taken ≠ s.cmd.post →
     ∃ t : State, exec .commandTake s = .next t ∧ t.cmd.taken = s.cmd.taken + 1 ∧
       t.cmd.execution = some { slot := s.cmd.taken.toNat % 16, phase := .readingSlot } ∧
       t.cmd.completion = s.cmd.completion ∧ t.writer = s.writer ∧ t.wires = s.wires ∧
       t.path.internal ++ t.cmd.waiting = s.path.internal ++ s.cmd.waiting ++
         [{ tag := .slotRead, addr := s.path.anchorBase + 0x4000 + 64 * (s.cmd.taken.toNat % 16), span := 64,
            write := false, enables := List.replicate 64 true, data := [] }]) ∧
   (∀ s : State, s.inReset = false → s.cmd.execution ≠ none ∨ s.cmd.taken = s.cmd.post →
     exec .commandTake s = .next s) ∧
   ∀ (n : Nat) (r : Option Reason) (s : State), s.inReset = false →
     s.cmd.execution = some { slot := n, phase := .finished r } →
     let v := s.cmd.completion + 1
     ∃ t : State, exec .commandCompletion s = .next t ∧ t.cmd = { s.cmd with completion := v, execution := none } ∧
       t.wires = s.wires ∧
       t.path.internal ++ t.writer.waiting = s.path.internal ++ s.writer.waiting ++
         [{ tag := .slotStatus, addr := s.path.anchorBase + 0x4000 + 64 * n + 0x38, span := 8, write := true,
            enables := List.replicate 8 true,
            data := [BitVec.ofNat 8 (match r with | none => 1 | some _ => 2), BitVec.ofNat 8 (reasonCode r), 0, 0] ++
              le 4 v.toNat },
          { tag := .completionWord v, addr := s.path.anchorBase + 0x8000, span := 8, write := true,
            enables := List.replicate 8 true, data := le 4 v.toNat ++ [0, 0, 0, 0] }]) ∧
  (∀ (n : Nat) (bytes : List Byte) (s : State), s.inReset = false →
     s.cmd.execution = some { slot := n, phase := .ready bytes } →
     let kind := byteAt bytes 0
     let refused : Reason → State := fun r =>
       { s with cmd := { s.cmd with execution := some { slot := n, phase := .finished (some r) } } }
     (kind = 0 ∨ 9 < kind → exec .badCommand s = .next (refused .badCommand)) ∧
     (kind = 1 → s.cmd.runState = .running ∨ s.cmd.runState = .draining →
       exec .configure s = .next { refused .runActive with
         cmd := { (refused .runActive).cmd with lastReason := some .runActive } }) ∧
     (kind = 2 → s.cmd.runState = .running ∨ s.cmd.runState = .draining →
       exec .startRun s = .next (refused .runActive)) ∧
     (kind = 2 → s.cmd.runState = .transparent → exec .startRun s = .next (refused .notConfigured)) ∧
     (kind = 3 → s.cmd.runState ≠ .running → exec .stopRun s = .next (refused .notRunning)) ∧
     (kind = 4 → s.cmd.runState = .transparent → exec .resetRun s = .next (refused .notConfigured)) ∧
     (kind = 5 → (slotCalendar bytes).valid = false → exec .setClock s = .next (refused .badTime)) ∧
     (kind = 6 → s.cmd.runState = .transparent → exec .laneEnable s = .next (refused .notConfigured)) ∧
     (kind = 7 → s.cmd.runState = .transparent → exec .laneDisable s = .next (refused .notConfigured)) ∧
     (kind = 8 → s.cmd.runState ≠ .running → exec .manualCut s = .next (refused .notRunning)))

/-- CONFIGURE outside a run: its begin queues the reads of the whole area, 42 of 16 beats from the anchor base on, which is
the model's cutting of them (notes/assumptions/10); with the area read, a refused configuration leaves everything but the
recorded reason, and one that passes every check replaces the shadow, the map, the groups and the lanes' enabled attributes,
takes the log fields, and makes the run state CONFIGURED in every block that holds it (R18, R163). Each group's copy read becomes
its active copy, with the sequence word read, and its pending copy in the mirror; a log whose base or entry count has changed
is restarted, with no entry written, its refused mark clear, a room event for a Plate or Shift Log that had it set, and for the
Fault Log the collapse set emptied; the transactions queued and the pending rewrites stay (R163, R166).

That a restarted log counts as written no sequence word of its old ring is the model's reading (notes/assumptions/32). -/
def Obligations.ConfigureReadsAndApplies : Prop :=
  (∀ (n : Nat) (bytes : List Byte) (s : State), s.inReset = false →
    s.cmd.execution = some { slot := n, phase := .ready bytes } → byteAt bytes 0 = 1 →
    s.cmd.runState = .transparent ∨ s.cmd.runState = .configured →
    ∃ t : State, exec .configure s = .next t ∧ t.cmd.execution = some { slot := n, phase := .readingArea [] } ∧
      t.cmd.shadow = s.cmd.shadow ∧ t.wires = s.wires ∧
      t.path.internal ++ t.cmd.waiting = s.path.internal ++ s.cmd.waiting ++ (List.range 42).map fun i =>
        { tag := .areaRead, addr := s.path.anchorBase + 128 * i, span := 128, write := false,
          enables := List.replicate 128 true, data := [] }) ∧
  (∀ (n : Nat) (bytes : List Byte) (r : Reason) (s : State), s.inReset = false →
    s.cmd.execution = some { slot := n, phase := .readingArea bytes } → bytes.length = 0x1500 →
    (parseArea bytes).refusal s.path.anchorBase = some r →
    exec .configure s = .next { s with cmd := { s.cmd with
      lastReason := some r, execution := some { slot := n, phase := .finished (some r) } } }) ∧
  ∀ (n : Nat) (bytes : List Byte) (s : State), s.inReset = false →
    s.cmd.execution = some { slot := n, phase := .readingArea bytes } → bytes.length = 0x1500 →
    (parseArea bytes).refusal s.path.anchorBase = none →
    let a := parseArea bytes
    ∃ t : State, exec .configure s = .next t ∧ t.cmd.execution = some { slot := n, phase := .finished none } ∧
      t.cmd.shadow = some a.shadow ∧ t.cmd.lastReason = none ∧ t.path.map = some a.shadow.regionMap ∧
      t.cmd.runState = .configured ∧ t.shift.runState = .configured ∧ t.path.runState = .configured ∧
      t.cmd.detect.inUse = some a.detect ∧ t.cmd.plan.inUse = some a.plan ∧ t.cmd.grade.inUse = some a.grade ∧
      t.cmd.strike.inUse = some a.strike ∧ t.cmd.clock.inUse = some a.clock ∧ t.cmd.detect.eligible = none ∧
      t.cmd.plan.eligible = none ∧ t.cmd.grade.eligible = none ∧ t.cmd.strike.eligible = none ∧
      t.cmd.clock.eligible = none ∧ t.cmd.invalid = Vector.replicate 5 false ∧ t.shift.trim = a.clock.trim ∧
      t.shift.table = some (a.clock.entries.toList.take a.clock.count) ∧ t.shift.calendar = s.shift.calendar ∧
      (∀ k : LaneId, t.lanes[k] = { s.lanes[k] with
        enabled := a.shadow.lanes[k].enabledAtStart, runState := .configured }) ∧
      (∀ l : LogId, t.writer.logs[l.idx].fields = some a.shadow.logs[l.idx] ∧
        match s.writer.logs[l.idx].fields with
        | some f =>
          if f.base = a.shadow.logs[l.idx].base ∧ f.entries = a.shadow.logs[l.idx].entries then
            t.writer.logs[l.idx].producer = s.writer.logs[l.idx].producer ∧
              t.writer.logs[l.idx].consumer = s.writer.logs[l.idx].consumer ∧
              t.writer.logs[l.idx].nextSeq = s.writer.logs[l.idx].nextSeq
          else t.writer.logs[l.idx].producer = 0 ∧ t.writer.logs[l.idx].consumer = 0 ∧ t.writer.logs[l.idx].nextSeq = 1
        | none => t.writer.logs[l.idx].producer = 0 ∧ t.writer.logs[l.idx].consumer = 0 ∧
            t.writer.logs[l.idx].nextSeq = 1) ∧
      t.mem = s.mem ∧
      (∀ g : GroupId, t.cmd.mirror[g.idx] = some { image := slice bytes (0x1000 + 256 * g.idx.val) 256 }) ∧
      (let seqRead : GroupId → Word32 := fun g => BitVec.ofNat 32 (field bytes (0x1000 + 256 * g.idx.val + 0xF8) 4)
       t.cmd.detect.active = some { fields := a.detect, seq := seqRead .detect } ∧
       t.cmd.plan.active = some { fields := a.plan, seq := seqRead .plan } ∧
       t.cmd.grade.active = some { fields := a.grade, seq := seqRead .grade } ∧
       t.cmd.strike.active = some { fields := a.strike, seq := seqRead .strike } ∧
       t.cmd.clock.active = some { fields := a.clock, seq := seqRead .clock }) ∧
      let restarted : LogId → Bool := fun l => s.writer.logs[l.idx].restartedBy a.shadow.logs[l.idx]
      (∀ l : LogId, t.writer.logs[l.idx] =
        if restarted l then
          { s.writer.logs[l.idx] with
            fields := some a.shadow.logs[l.idx], producer := 0, consumer := 0, written := 0, nextSeq := 1, refused := false
            gen := s.writer.logs[l.idx].gen + 1 }
        else { s.writer.logs[l.idx] with fields := some a.shadow.logs[l.idx] }) ∧
      t.writer.collapse = (if restarted .fault then Vector.replicate 16 none else s.writer.collapse) ∧
      t.wires = { s.wires with
        plateAnswers := s.wires.plateAnswers ++
          (if restarted .plate ∧ s.writer.logs[LogId.plate.idx].refused = true then [s.tag .room] else [])
        shiftAnswers := s.wires.shiftAnswers ++
          (if restarted .shift ∧ s.writer.logs[LogId.shift.idx].refused = true then [.room] else []) } ∧
      t.path = { s.path with
        map := some a.shadow.regionMap, runState := .configured, internal := t.path.internal } ∧
      s.path.internal <+: t.path.internal ∧
      (s.cmd.runState = .configured → t.path.internal = s.path.internal ∧ t.writer.waiting = s.writer.waiting)

/-- START_RUN in CONFIGURED: the run reset of every block, the next run number, seen by the tally, the eligible copies made
active, and the entry to RUNNING: every field of each block is as its run reset leaves it, but for these: the travel fields in
use, N at L_p and the ribbon MOVING; the enabled lanes WAITING; the LEAD piece with its cut RUN_START at 0, the next piece number
2, Cf at −(D_cut − D_commit), the open piece at 0 scanned over [0, L1), and the cut offered (R16, R17, R31, R85, R138, R164).

STOP_RUN in RUNNING: DRAINING in every block that holds it; every lane OFF with no line in progress, the engine emptied
with its backgrounds kept and the buffers of its lines freed (R31, R43, R164). The flush closes every open blob in order of first line, then of id: each becomes the
flaw of R70 with the next number and the class of R71 under the active DETECT group, with no TRUNCATED or FORCED given, and is
EDGE, ORPHAN, HELD or UNHELD by R72, with its record and its increment; the HELD ones enter the table in R73's order, and they
alone are handed to the Planner, in the order of closure, before the end of the flush; the UNHELD ones widen the overflow span;
the markers go, and J, the gap list and the rest of the assembler stay (R69 to R73). What follows the last 32-bit flaw
number is left free (notes/assumptions/4).

The count of run resets and the lists of marked flaws are the model's own (notes/assumptions/5, notes/assumptions/12), and so
is the count of an output's assertions (notes/assumptions/9); that the settled line keeps its value once the run has left RUNNING
is the model's choice (notes/assumptions/39). -/
def Obligations.RunsBeginAndFlush : Prop :=
  (∀ (n : Nat) (bytes : List Byte) (s : State) (sh : Shadow) (g : PlanGroup), s.inReset = false →
     s.cmd.execution = some { slot := n, phase := .ready bytes } → byteAt bytes 0 = 2 → s.cmd.runState = .configured →
     s.cmd.shadow = some sh → s.cmd.plan.activate.inUse = some g →
     ∃ t : State, exec .startRun s = .next t ∧
       t.cmd = { s.cmd with
         execution := some { slot := n, phase := .finished none }, runState := .running, run := s.shift.run + 1
         detect := s.cmd.detect.activate, plan := s.cmd.plan.activate, grade := s.cmd.grade.activate
         strike := s.cmd.strike.activate, clock := s.cmd.clock.activate } ∧
       t.shift = { s.shift with
         runState := .running
         run := s.shift.run + 1
         tally := { s.shift.tally with
           runs := some
             { first := match s.shift.tally.runs with | none => s.shift.run + 1 | some r => r.first,
               last := s.shift.run + 1 } } } ∧
       t.path.runState = .running ∧
       t.travel = { s.travel with
         fields := some sh.travel, acc := 0, high := 0, count := 0, nextPoint := some sh.travel.pitch,
         positionLimit := false, motion := .moving, timer := 0, heldPos := 0, speed := 0, quadErrors := 0 } ∧
       (∀ k : LaneId, t.lanes[k] = { Lane.powerOn with
           enabled := s.lanes[k].enabled, runState := .running,
           state := if s.lanes[k].enabled then .waiting else .off } ∧
         t.engine.lanes[k] = { s.engine.lanes[k] with join := [], crowded := 0 }) ∧
       t.engine.analysis = none ∧ t.engine.ready = [] ∧
       t.asm =
         { settled := Vector.replicate 8 0, joined := 0, blobs := [], nextBlob := 1, markers := [], nextFlaw := 1,
           table := [], gradedTail := none, overflow := none, gaps := [], forced := 0, truncated := 0,
           numbersPast := s.asm.numbersPast } ∧
       t.planner =
         { pieces := [{ number := 1, kind := .lead, head := none, tail := 0, state := .planned, sizes := g }]
           openPiece := some { head := 0, sizes := g }
           cuts := [{ pos := 0, kind := .runStart, committed := false }]
           nextPiece := 2, frontier := 0, cf := some (-((sh.dCut - sh.dCommit : Nat) : Int)), overdue := false,
           runEnd := .none, markedLate := [], markedUnplanned := [], numbersPast := s.planner.numbersPast } ∧
       t.strike =
         { offered := none, claiming := none, track := [], gates := [], lastPos := 0, strikes := 0, withdrawn := 0,
           merges := 0, score := { level := false, asserted := s.strike.score.asserted },
           snap := { level := false, asserted := s.strike.snap.asserted },
           gate := { level := false, asserted := s.strike.gate.asserted } } ∧
       t.grading =
         { queue := [], state := .idle, group := s.grading.group, outbound := [], outstanding := false, logFull := false,
           graded := 0, held := 0 } ∧
       (∀ l : LogId, t.writer.logs[l.idx] =
         if l = .plate then { s.writer.logs[l.idx] with refused := false } else s.writer.logs[l.idx]) ∧
       t.epoch = s.epoch + 1 ∧
       (let unstruck := (s.planner.pieces.filter fun q =>
          decide (q.state = .planned) || decide (q.state = .committed)).length
        let opened := if s.planner.openPiece.isSome then 1 else 0
        let gathering := match s.grading.state with | .gathering _ => 1 | _ => 0
        t.wires = { s.wires with
          plannerAsm := s.wires.plannerAsm ++ [t.tag (.scan 0 g.l1 g.level)]
          plannerStrike := s.wires.plannerStrike ++ [t.tag (.offer (some 0))]
          increments := s.wires.increments ++ List.replicate (unstruck + opened) (.planner, .abandoned) ++
            List.replicate (s.grading.queue.length + gathering) (.grading, .abandoned) })) ∧
  (∀ (n : Nat) (bytes : List Byte) (s : State) (sh : Shadow) (d : DetectGroup), s.inReset = false →
     s.cmd.execution = some { slot := n, phase := .ready bytes } → byteAt bytes 0 = 3 → s.cmd.runState = .running →
     s.cmd.shadow = some sh → s.cmd.detect.inUse = some d →
     ∃ (t : State) (closed : List Blob) (records : List FlawRecord), exec .stopRun s = .next t ∧
       t.cmd = { s.cmd with runState := .draining, execution := some { slot := n, phase := .finished none } } ∧
       t.shift = { s.shift with runState := .draining } ∧ t.path.runState = .draining ∧ t.travel = s.travel ∧
       t.planner = s.planner ∧ t.strike = s.strike ∧ t.grading = s.grading ∧
       (∀ k : LaneId, t.lanes[k].state = .off ∧ t.lanes[k].line = none ∧ t.lanes[k].runState = .draining ∧
         t.lanes[k].settled = s.lanes[k].settled ∧ t.lanes[k].counters = s.lanes[k].counters ∧
         t.engine.lanes[k] = { s.engine.lanes[k] with join := [] }) ∧
       t.engine.analysis = none ∧ t.engine.ready = [] ∧
       (∀ e ∈ (s.engine.analysis.map (·.entry)).toList ++ s.engine.ready, t.lanes[e.lane].buffer e.buffer = Buffer.empty) ∧
       closed.Perm s.asm.blobs ∧
       closed.Pairwise (fun b o => b.first < o.first ∨ (b.first = o.first ∧ b.id ≤ o.id)) ∧
       records.length = closed.length ∧
       (∀ i (b : Blob) (r : FlawRecord), closed[i]? = some b → records[i]? = some r →
         let held := ((records.take i).filter fun x => decide (x.disposition = .held)).length
         let disposition : Disposition :=
           if b.hi < sh.netLo ∨ sh.netHi < b.lo then .edge
           else if s.asm.gradedTail.any (fun x => decide (r.midpoint < x)) then .orphan
           else if s.asm.table.length + held < 512 then .held
           else .unheld
         r = b.flushedAs sh.travel.pitch d s.cmd.run r.number disposition ∧
           (s.asm.nextFlaw + i ≤ 4294967295 → r.number = s.asm.nextFlaw + i)) ∧
       (let flaws := (records.filter fun r => decide (r.disposition = .held)).map FlawRecord.entry
        t.asm = { s.asm with
          blobs := [], markers := [], nextFlaw := t.asm.nextFlaw, table := t.asm.table,
          overflow := (records.filter fun r => decide (r.disposition = .unheld)).foldl (fun o r => some (match o with
            | none => { lo := r.midpoint, hi := r.midpoint }
            | some x => { lo := min x.lo r.midpoint, hi := max x.hi r.midpoint })) s.asm.overflow
          numbersPast := t.asm.numbersPast } ∧
        t.asm.table.Perm (flaws ++ s.asm.table) ∧
        (s.asm.table.Pairwise FlawEntry.inOrder → t.asm.table.Pairwise FlawEntry.inOrder) ∧
        (s.asm.nextFlaw + records.length ≤ 4294967295 → t.asm.nextFlaw = s.asm.nextFlaw + records.length) ∧
        t.wires = { s.wires with
          asmPlanner := s.wires.asmPlanner ++ s.tagAll (flaws.map AsmMsg.heldFlaw ++ [.flushEnd])
          flawRecords := s.wires.flawRecords ++ records
          increments := s.wires.increments ++ records.map fun r => (.assembler, r.increment) }))

/-- RESET_RUN outside TRANSPARENT: the run state is CONFIGURED in every block that holds it, every block takes the run reset,
each field of its state as its table gives it, the open blobs, the held flaws and the records not yet taken dropped, the outputs
released without a pulse, and each piece not yet graded is counted as abandoned; the configuration, the group copies and groups
in use, the reference pair and the unit divider, the backgrounds, the logs' counts, the tally and the clock are kept (R16, R37,
R58, R79, R80, R101, R112, R114, R128, R164).

RUN_END_COMPLETION: in DRAINING the run state returns to CONFIGURED in every block that holds it, the run-end state to
NONE, and the Strike Unit closes: a snap not yet given is given as a pulse, the track and the gate list are emptied, every
output is released, and one status page is queued; in any other run state the message is discarded (R99, R112, R162,
R171).

The count of run resets, the counts of assertions and of numbers past the last 32-bit one, the lists of marked flaws, and one page
for one change are the model's (notes/assumptions/4, notes/assumptions/5, notes/assumptions/9, notes/assumptions/12,
notes/assumptions/14); that RUN_END_COMPLETION leaves the settled lines as they were, and that each pulse of SNAP counts as an
assertion while another entry holds SNAP asserted too, are its choices (notes/assumptions/39, notes/assumptions/45). -/
def Obligations.RunsAreResetAndEnd : Prop :=
  (∀ (n : Nat) (bytes : List Byte) (s : State), s.inReset = false →
     s.cmd.execution = some { slot := n, phase := .ready bytes } → byteAt bytes 0 = 4 →
     s.cmd.runState ≠ .transparent → s.runStatesAgree →
     ∃ t : State, exec .resetRun s = .next t ∧
       t.cmd = { s.cmd with runState := .configured, execution := some { slot := n, phase := .finished none } } ∧
       t.shift = { s.shift with runState := .configured } ∧ t.path.runState = .configured ∧ t.epoch = s.epoch + 1 ∧
       t.travel = { s.travel with
         acc := 0, high := 0, count := 0, nextPoint := none, positionLimit := false, motion := .stopped, timer := 0,
         heldPos := 0, speed := 0, quadErrors := 0 } ∧
       (∀ k : LaneId, t.lanes[k] = { Lane.powerOn with enabled := s.lanes[k].enabled, runState := .configured } ∧
         t.engine.lanes[k] = { s.engine.lanes[k] with join := [], crowded := 0 }) ∧
       t.engine.analysis = none ∧ t.engine.ready = [] ∧
       t.asm =
         { settled := Vector.replicate 8 0, joined := 0, blobs := [], nextBlob := 1, markers := [], nextFlaw := 1,
           table := [], gradedTail := none, overflow := none, gaps := [], forced := 0, truncated := 0,
           numbersPast := s.asm.numbersPast } ∧
       t.planner =
         { pieces := [], openPiece := none, cuts := [], nextPiece := 1, frontier := 0, cf := none, overdue := false,
           runEnd := .none, markedLate := [], markedUnplanned := [], numbersPast := s.planner.numbersPast } ∧
       t.strike =
         { offered := none, claiming := none, track := [], gates := [], lastPos := 0, strikes := 0, withdrawn := 0,
           merges := 0, score := { level := false, asserted := s.strike.score.asserted },
           snap := { level := false, asserted := s.strike.snap.asserted },
           gate := { level := false, asserted := s.strike.gate.asserted } } ∧
       t.grading =
         { queue := [], state := .idle, group := s.grading.group, outbound := [], outstanding := false, logFull := false,
           graded := 0, held := 0 } ∧
       (∀ l : LogId, t.writer.logs[l.idx] =
         if l = .plate then { s.writer.logs[l.idx] with refused := false } else s.writer.logs[l.idx]) ∧
       (let unstruck := (s.planner.pieces.filter fun q =>
          decide (q.state = .planned) || decide (q.state = .committed)).length
        let opened := if s.planner.openPiece.isSome then 1 else 0
        let gathering := match s.grading.state with | .gathering _ => 1 | _ => 0
        t.wires = { s.wires with
          increments := s.wires.increments ++ List.replicate (unstruck + opened) (.planner, .abandoned) ++
            List.replicate (s.grading.queue.length + gathering) (.grading, .abandoned) })) ∧
  (∀ (rest : List (Tagged Unit)) (s : State), s.inReset = false →
     s.wires.runEnds = { epoch := s.epoch, msg := () } :: rest →
     if s.cmd.runState = .draining then
       ∃ t : State, exec .runEndCompletion s = .next t ∧ t.wires = { s.wires with runEnds := rest } ∧
         t.cmd = { s.cmd with runState := .configured } ∧ t.shift = { s.shift with runState := .configured } ∧
         t.path.runState = .configured ∧ (∀ k : LaneId, t.lanes[k] = { s.lanes[k] with runState := .configured }) ∧
         t.planner = { s.planner with runEnd := .none } ∧ t.strike.track = [] ∧ t.strike.gates = [] ∧
         t.strike.offered = none ∧ t.strike.claiming = none ∧ t.strike.score.level = false ∧
         t.strike.snap.level = false ∧ t.strike.gate.level = false ∧
         t.strike.snap.asserted =
           s.strike.snap.asserted + (s.strike.track.filter fun e => decide (e.snap = .waiting)).length ∧
         t.writer.pageSeq = s.writer.pageSeq + 1
     else exec .runEndCompletion s = .next { s with wires := { s.wires with runEnds := rest } })

/-- SET_CLOCK with every field in its range: the calendar takes the values, the sub-second counter is 0, the clock is valid
and the tally flagged, in any run state; no tick is delivered and no boundary tested (R132, R175).

LANE_ENABLE and LANE_DISABLE outside TRANSPARENT act on the lanes of the mask, bit k naming lane k, and leave the others:
outside RUNNING only the enabled attribute changes; in RUNNING an OFF lane is enabled into WAITING with its seeded flag and
counters clear and any other lane is left. In RUNNING a disabled lane goes OFF: its line in progress is abandoned, its buffer
freed, and that line and every line above the accounted line up to the trigger count are declared, with cause DISABLED and the
lines declared counter risen by their number; its READY lines stay, its settled line is re-evaluated, and the lines it rises over
go to the assembler as gap lines before it, each with its increment (R28, R30, R32, R33, R165, R175).

MANUAL_CUT in RUNNING at the position given, or at the frontier: the first of R97's tests that fails gives the reason and
changes nothing; otherwise the open piece becomes MANUAL with its tail there and a new open piece is created and scanned.

That the settled line keeps its value outside RUNNING is the model's choice (notes/assumptions/39), and that the lanes of a mask
act in ascending order its reading (notes/assumptions/14). -/
def Obligations.CommandsOfOtherBlocks : Prop :=
  (∀ (n : Nat) (bytes : List Byte) (s : State), s.inReset = false →
     s.cmd.execution = some { slot := n, phase := .ready bytes } → byteAt bytes 0 = 5 →
     let given : Calendar :=
       { year := byteAt bytes 8 + 256 * byteAt bytes 9, month := byteAt bytes 10, day := byteAt bytes 11,
         weekday := byteAt bytes 12, hour := byteAt bytes 13, minute := byteAt bytes 14, second := byteAt bytes 15 }
     given.valid = true →
     exec .setClock s = .next { s with
       shift := { s.shift with
         calendar := given, sub := 0, valid := true, tally := { s.shift.tally with clockSet := true } }
       cmd := { s.cmd with execution := some { slot := n, phase := .finished none } } }) ∧
  (∀ (n : Nat) (bytes : List Byte) (s : State), s.inReset = false →
     s.cmd.execution = some { slot := n, phase := .ready bytes } → s.cmd.runState ≠ .transparent → s.runStatesAgree →
     let inMask : LaneId → Bool := fun k => decide (byteAt bytes 8 / 2 ^ k.val % 2 = 1)
     (byteAt bytes 0 = 6 → ∃ t : State, exec .laneEnable s = .next t ∧
       t.cmd = { s.cmd with execution := some { slot := n, phase := .finished none } } ∧
       ∀ k : LaneId,
         if inMask k = false then t.lanes[k] = s.lanes[k]
         else if s.cmd.runState ≠ .running then t.lanes[k] = { s.lanes[k] with enabled := true }
         else if s.lanes[k].state = .off then
           t.lanes[k].state = .waiting ∧ t.lanes[k].enabled = true ∧ t.lanes[k].seeded = false ∧ t.lanes[k].lock = 0 ∧
             t.lanes[k].misses = 0 ∧ t.lanes[k].accounted = s.lanes[k].accounted
         else t.lanes[k].state = s.lanes[k].state ∧ t.lanes[k].enabled = s.lanes[k].enabled ∧
           t.lanes[k].line = s.lanes[k].line ∧ t.lanes[k].accounted = s.lanes[k].accounted) ∧
     (byteAt bytes 0 = 7 → ∃ t : State, exec .laneDisable s = .next t ∧
       let after : LaneId → Lane := fun k =>
         let l := s.lanes[k]
         Lane.declaredUpTo { l.abandoned with state := .off, enabled := false } l.givenUp .disabled l.trigger
       t.cmd = { s.cmd with execution := some { slot := n, phase := .finished none } } ∧ t.engine = s.engine ∧
       (∀ k : LaneId,
         if inMask k = false then t.lanes[k] = s.lanes[k]
         else if s.cmd.runState ≠ .running then t.lanes[k] = { s.lanes[k] with enabled := false }
         else (after k).settlesTo t.lanes[k]) ∧
       (s.cmd.runState ≠ .running → t.wires = s.wires) ∧
       (∀ sh : Shadow, s.cmd.runState = .running → s.cmd.shadow = some sh →
         let gaps : LaneId → List (Nat × GapCause) := fun k =>
           if inMask k then (after k).gapsTo sh k 0 none t.lanes[k].settled else []
         t.wires = { s.wires with
           laneMsgs := Vector.ofFn fun k => s.wires.laneMsgs[k] ++
             if inMask k then s.tagAll ((after k).reports (gaps k) t.lanes[k].settled) else []
           increments := s.wires.increments ++
             (List.finRange 8).flatMap fun k => (gaps k).map fun g => (.lane k, .gapLine g.2) }))) ∧
  (∀ (n : Nat) (bytes : List Byte) (s : State) (sh : Shadow) (o : OpenPiece) (g : PlanGroup), s.inReset = false →
     s.cmd.execution = some { slot := n, phase := .ready bytes } → byteAt bytes 0 = 8 → s.cmd.runState = .running →
     s.cmd.shadow = some sh → s.planner.openPiece = some o → s.cmd.plan.activate.inUse = some g →
     s.planner.nextPiece < 4294967295 →
     let x := if byteAt bytes 8 = 1 then s.planner.frontier else field bytes 0x10 8
     let refused : Reason → Prop := fun r => exec .manualCut s =
       .next { s with cmd := { s.cmd with execution := some { slot := n, phase := .finished (some r) } } }
     if s.planner.cf.any (fun cf => decide ((x : Int) ≤ cf)) then refused .tooLate
     else if x < o.head + sh.minTrim then refused .tooSoon
     else if s.planner.frontier < x then refused .notInspected
     else if s.planner.overdue = true ∨ 32 < s.planner.cuts.length + 1 ∨ 40 < s.planner.pieces.length + 2 then
       refused .noRoom
     else ∃ t : State, exec .manualCut s = .next t ∧
       t.cmd = { s.cmd with
         plan := s.cmd.plan.activate, execution := some { slot := n, phase := .finished none } } ∧
       t.planner = { s.planner with
         pieces := s.planner.pieces ++
           [{ number := s.planner.nextPiece, kind := .manual, head := some o.head, tail := x, state := .planned,
              sizes := o.sizes }]
         cuts := s.planner.cuts ++ [{ pos := x, kind := .manual, committed := false }]
         nextPiece := s.planner.nextPiece + 1
         openPiece := some { head := x, sizes := g } } ∧
       t.wires.plannerAsm = s.wires.plannerAsm ++ [s.tag (.scan x (x + g.l1) g.level)])

/-! ## Path Unit -/

/-- A read at the C-port: held off in reset and while 32 entries stand; refused with REGION when it spans two classes, and
with VIEW_RIGHT in the view aperture without VIEW_READ; else queued as forwarded, translated to the ring behind its window, or
answered locally, DONE with zeros. A read that breaks R143's forms is not taken (R143, R145, R148, R149, R154). TAKE_VIEW_READ and
PEEK_VIEW_READ are such reads of a take or a peek window, which is the model's choice (notes/assumptions/6).

A write at the C-port, by its class and its source's rights: refused with REGION, VIEW_WRITE or LOCKED_FIELD, or queued
as forwarded, or, for one that touches the post word or a group's sequence word, queued awaiting a verdict with its request
sent to the Command Unit (R143, R145, R148 to R152). POST_WORD_WRITE and SEQUENCE_WORD_WRITE are such writes, which is the
model's choice (notes/assumptions/6).

A request refused is answered REFUSED, with zeros for a read, and a read of the spare aperture DONE with zeros: the entry
leaves at once with its response when no older entry of its source goes to memory, and otherwise stays behind it, and the
response returns when every older request of the source has been answered. A read that overlaps a pending rewrite is held
and counted, and nothing else changes (R144, R148, R149, R156, R158). Requests held off are taken, in the order they arrived,
as if presented anew, while the queue has room (R143).

That requests presented in reset are kept, that a view read meets a pending rewrite by ring position, of the Fault Log alone,
and the order of kind and length in detail A, are the model's readings (notes/assumptions/20, notes/assumptions/21,
notes/assumptions/26). -/
def Obligations.RequestsAreChecked : Prop :=
  (∀ (q : Request) (s : State),
     (q.readFormed = false → exec (.busRead q) s = .next s) ∧
     (q.readFormed = true → s.inReset = true ∨ 32 ≤ s.path.queue.length →
       exec (.busRead q) s = .next { s with path := { s.path with
         heldOff := s.path.heldOff ++ [{ kind := .read, req := q }] } }) ∧
     (q.readFormed = true → s.inReset = false → s.path.queue.length < 32 →
       let first := s.path.region q.addr.toNat
       let viewRead := (s.path.entry q.source).rights.viewRead
       let fault : Option FaultKind :=
         if first ≠ s.path.region q.lastByte then some .region
         else match first with
           | .view _ _ | .viewSpare => if viewRead then none else some .viewRight
           | _ => none
       let alone : Prop := (∀ e ∈ s.path.queue, e.req.source ≠ q.source) ∧
         ∀ x ∈ s.path.slots, x.source = q.source → x.response ≠ none
       ∃ t : State, exec (.busRead q) s = .next t ∧ t.path.nextId = s.path.nextId + 1 ∧ t.mem = s.mem ∧
         match fault with
         | some f =>
           t.path.refused = min 4294967295 (s.path.refused + 1) ∧
           t.wires = { s.wires with
             faults := s.wires.faults ++ [(.path,
               { source := q.source, kind := f, detailA := BitVec.ofNat 16 (256 * q.beats),
                 detailB := BitVec.ofNat 64 q.addr.toNat })]
             increments := s.wires.increments ++ [(.path, .refusedAccess)] } ∧
           (alone → ({ source := q.source, done := false, data := List.replicate q.span 0 } : Response) ∈ t.path.returned)
         | none =>
           t.path.refused = s.path.refused ∧ t.wires = s.wires ∧
           match first with
           | .viewSpare =>
             alone → ({ source := q.source, done := true, data := List.replicate q.span 0 } : Response) ∈ t.path.returned
           | .view l v => ∀ m w o, s.path.map = some m → windowAt m (q.addr.toNat - m.views.base) = some (l, w, o) →
               ∃ e ∈ t.path.queue, e.id = s.path.nextId ∧ e.kind = .read ∧ e.req = q ∧ e.region = .view l v ∧
                 e.viewAt = o ∧ e.mark = .translated (m.logs[l.idx].1 + o)
           | r => ∃ e ∈ t.path.queue,
               e.id = s.path.nextId ∧ e.kind = .read ∧ e.req = q ∧ e.region = r ∧ e.mark = .forwarded) ∧
     (q.readFormed = true → s.inReset = false → s.path.queue.length < 32 →
       let first := s.path.region q.addr.toNat
       let viewRead := (s.path.entry q.source).rights.viewRead
       let refused : Bool := decide (first ≠ s.path.region q.lastByte) ||
         match first with
         | .view _ _ | .viewSpare => !viewRead
         | _ => false
       ∃ (t : State) (e : PassEntry), exec (.busRead q) s = .next t ∧ e.id = s.path.nextId ∧ e.kind = .read ∧ e.req = q ∧
         e.region = first ∧ e.held = false ∧
         (match first with
          | .view l _ => ∀ m w o, refused = false → s.path.map = some m →
              windowAt m (q.addr.toNat - m.views.base) = some (l, w, o) →
              e.viewAt = o ∧ e.mark = .translated (m.logs[l.idx].1 + o)
          | .viewSpare => refused = false → e.mark = .localZeros
          | _ => refused = false → e.mark = .forwarded) ∧
         (refused = true → e.mark = .refused) ∧
         t = { s with path := t.path, wires := t.wires } ∧
         t.path = { s.path with
           queue := t.path.queue
           slots := t.path.slots
           returned := t.path.returned
           refused := t.path.refused
           heldReads := min 4294967295 (s.path.heldReads + newlyHeld s.path.rewrites (s.path.queue ++ [e]))
           nextId := s.path.nextId + 1 } ∧
         Path.settledInto { s.path with
           queue := heldAgainst s.path.rewrites (s.path.queue ++ [e])
           slots := s.path.slots ++ [{ id := s.path.nextId, source := q.source, response := none }] } t.path) ∧
     (∀ l, s.path.region q.addr.toNat = .view l .take →
       ∃ t : State, exec (.takeViewRead q) s = .next t ∧ exec (.busRead q) s = .next t) ∧
     ∀ l, s.path.region q.addr.toNat = .view l .peek →
       ∃ t : State, exec (.peekViewRead q) s = .next t ∧ exec (.busRead q) s = .next t) ∧
  (∀ (q : Request) (s : State),
     (q.writeFormed = false → exec (.busWrite q) s = .next s) ∧
     (q.writeFormed = true → s.inReset = true ∨ 32 ≤ s.path.queue.length →
       exec (.busWrite q) s = .next { s with path := { s.path with
         heldOff := s.path.heldOff ++ [{ kind := .write, req := q }] } }) ∧
     (q.writeFormed = true → s.inReset = false → s.path.queue.length < 32 →
       let first := s.path.region q.addr.toNat
       let e := s.path.entry q.source
       let counting := s.path.runState = .running ∨ s.path.runState = .draining
       let fault : Option FaultKind :=
         if first ≠ s.path.region q.lastByte then some .region
         else match first with
           | .plain => if e.rights.plainWrite then none else some .region
           | .landing k =>
             if (e.rights.landingOwn = true ∧ e.role = .camera k) ∨ e.rights.landingAny = true then none else some .region
           | .anchorConfig =>
             if e.rights.configWrite = false then some .region
             else if counting ∧ (q.enabledBytes.any fun a => isFixedByte (a - s.path.anchorBase)) = true then
               some .lockedField
             else none
           | .anchorCommand => if e.rights.commandWrite then none else some .region
           | .anchorOwned | .log => some .region
           | .view _ _ | .viewSpare => some .viewWrite
       let waits : Bool := match first with
         | .anchorCommand => q.touches (s.path.anchorBase + 0x4400) 4
         | .anchorConfig => (seqGroup s.path.anchorBase q).isSome
         | _ => false
       let alone : Prop := (∀ e ∈ s.path.queue, e.req.source ≠ q.source) ∧
         ∀ x ∈ s.path.slots, x.source = q.source → x.response ≠ none
       ∃ t : State, exec (.busWrite q) s = .next t ∧ t.path.nextId = s.path.nextId + 1 ∧ t.mem = s.mem ∧
         match fault with
         | some f =>
           t.path.refused = min 4294967295 (s.path.refused + 1) ∧
           t.wires = { s.wires with
             faults := s.wires.faults ++ [(.path,
               { source := q.source, kind := f, detailA := BitVec.ofNat 16 (1 + 256 * q.beats),
                 detailB := BitVec.ofNat 64 q.addr.toNat })]
             increments := s.wires.increments ++ [(.path, .refusedAccess)] } ∧
           (alone → ({ source := q.source, done := false, data := [] } : Response) ∈ t.path.returned)
         | none =>
           t.path.refused = s.path.refused ∧
           t.wires = { s.wires with verdictAsks := s.wires.verdictAsks ++
             (if waits then [{ id := s.path.nextId, req := q }] else []) } ∧
           ∃ x ∈ t.path.queue, x.id = s.path.nextId ∧ x.kind = .write ∧ x.req = q ∧ x.region = first ∧
             x.mark = if waits then .awaiting else .forwarded) ∧
     (q.writeFormed = true → s.inReset = false → s.path.queue.length < 32 →
       ∃ (t : State) (e : PassEntry), exec (.busWrite q) s = .next t ∧ e.id = s.path.nextId ∧ e.kind = .write ∧
         e.req = q ∧ e.region = s.path.region q.addr.toNat ∧ e.held = false ∧
         (e.mark = .refused ↔ t.wires.faults ≠ s.wires.faults) ∧
         (e.mark = .awaiting ↔ t.wires.verdictAsks ≠ s.wires.verdictAsks) ∧
         (e.mark = .refused ∨ e.mark = .awaiting ∨ e.mark = .forwarded) ∧
         t = { s with path := t.path, wires := t.wires } ∧
         t.path = { s.path with
           queue := t.path.queue
           slots := t.path.slots
           returned := t.path.returned
           refused := t.path.refused
           heldReads := min 4294967295 (s.path.heldReads + newlyHeld s.path.rewrites s.path.queue)
           nextId := s.path.nextId + 1 } ∧
         Path.settledInto { s.path with
           queue := heldAgainst s.path.rewrites (s.path.queue ++ [e])
           slots := s.path.slots ++ [{ id := s.path.nextId, source := q.source, response := none }] } t.path) ∧
     (s.path.region q.addr.toNat = .anchorCommand → q.touches (s.path.anchorBase + 0x4400) 4 = true →
       ∃ t : State, exec (.postWordWrite q) s = .next t ∧ exec (.busWrite q) s = .next t) ∧
     (s.path.region q.addr.toNat = .anchorConfig → (seqGroup s.path.anchorBase q).isSome = true →
       ∃ t : State, exec (.sequenceWordWrite q) s = .next t ∧ exec (.busWrite q) s = .next t)) ∧
  (∀ (h : HeldOff) (rest : List HeldOff) (s : State), s.inReset = false → s.path.queue.length < 32 →
     (match h.kind with
      | .read => h.req.readFormed = true
      | .write => h.req.writeFormed = true) →
     ∃ t : State, exec (match h.kind with
         | .read => .busRead h.req
         | .write => .busWrite h.req) { s with path := { s.path with heldOff := [] } } = .next t ∧
       State.takeHeld { s with path := { s.path with heldOff := h :: rest } } =
         State.takeHeld { t with path := { t.path with heldOff := rest } }) ∧
  ∀ s : State, s.path.heldOff = [] ∨ 32 ≤ s.path.queue.length → s.takeHeld = s

/-- The Command Unit's verdict: a post word write is accepted when the new post less the completion count is at most 16; a
sequence word write makes the group's pending copy, with the write applied, eligible when it is valid, and otherwise sets the
invalid mark and keeps the copies; an eligible CLOCK copy becomes active at once, and the Shift Unit takes its trim and its
entries in use as the shift start table (R131, R151, R166).

VERDICT at the Path Unit: accepted, the waiting entry is forwarded; otherwise it is refused with the verdict's fault, which
is reported and counted, and it leaves with its REFUSED response as soon as no older entry of its source goes to memory
(R144, R149, R151). With requests held off, the room this leaves is then taken up (R143).

REWRITE_ANNOUNCEMENT: while its rewrite stands in the internal queue the entry joins the pending-rewrite list, and every
translated view read of the Fault Log that overlaps a pending rewrite is held, each newly held read counted, and no other
entry changes; an announcement whose rewrite has left already changes nothing (R156, R158).

SEEN_WORD_WRITE: the enabled bytes replace those of the mirror's seen word, and ATTN is re-evaluated (R161, R172).

The order of kind and length in detail A, and that a read meets a rewrite by position, are the model's readings
(notes/assumptions/21, notes/assumptions/26). -/
def Obligations.VerdictsAndCopies : Prop :=
  (∀ (m : VerdictRequest) (rest : List VerdictRequest) (s : State), s.inReset = false →
     s.wires.verdictAsks = m :: rest →
     let answered : Verdict → Wires := fun v =>
       { s.wires with verdictAsks := rest, verdicts := s.wires.verdicts ++ [{ id := m.id, verdict := v }] }
     let post := m.req.overlayWord (s.path.anchorBase + 0x4400) s.cmd.post
     (seqGroup s.path.anchorBase m.req = none →
       exec .verdictRequest s = .next { s with
         wires := answered (if (post - s.cmd.completion).toNat ≤ 16 then .accept else .postOverrun) }) ∧
     ∀ g image, seqGroup s.path.anchorBase m.req = some g → s.pendingImage g m.req = some image →
       (s.cmd.groupValid g image = false →
         exec .verdictRequest s = .next { s with
           cmd := { s.cmd with invalid := s.cmd.invalid.set g.idx true }, wires := answered .groupInvalid }) ∧
       (s.cmd.groupValid g image = true →
         ∃ t : State, exec .verdictRequest s = .next t ∧ t.wires = answered .accept ∧ t.cmd.invalid[g.idx] = false ∧
           t.cmd.mirror = s.cmd.mirror ∧
           match g with
           | .detect => t.cmd.detect = { s.cmd.detect with
               eligible := some { fields := parseDetect image, seq := parseSeq image } }
           | .plan => t.cmd.plan = { s.cmd.plan with
               eligible := some { fields := parsePlan image, seq := parseSeq image } }
           | .grade => t.cmd.grade = { s.cmd.grade with
               eligible := some { fields := parseGrade image, seq := parseSeq image } }
           | .strike => t.cmd.strike = { s.cmd.strike with
               eligible := some { fields := parseStrike image, seq := parseSeq image } }
           | .clock => t.cmd.clock =
               { active := some { fields := parseClock image, seq := parseSeq image }, eligible := none } ∧
               t.shift = { s.shift with
                 trim := (parseClock image).trim
                 table := some ((parseClock image).entries.toList.take (parseClock image).count) })) ∧
  (∀ (v : VerdictMsg) (rest : List VerdictMsg) (s : State) (e : PassEntry), s.inReset = false →
     s.wires.verdicts = v :: rest → e ∈ s.path.queue → e.id = v.id → e.mark = .awaiting →
     (∀ x ∈ s.path.queue, x.id = v.id → x = e) →
     match v.verdict with
     | .accept =>
       exec .verdict s = .next { s with
         path := { s.path with queue := s.path.queue.map fun x =>
           if x.id = v.id then { x with mark := .forwarded } else x }
         wires := { s.wires with verdicts := rest } }
     | r =>
       ∃ t : State, exec .verdict s = .next t ∧ t.mem = s.mem ∧
         (s.path.heldOff = [] → t.path.refused = min 4294967295 (s.path.refused + 1) ∧
           t.wires = { s.wires with
             verdicts := rest
             faults := s.wires.faults ++ [(.path,
               { source := e.req.source, kind := if r = .postOverrun then .postOverrun else .groupInvalid,
                 detailA := BitVec.ofNat 16 ((match e.kind with | .read => 0 | .write => 1) + 256 * e.req.beats),
                 detailB := BitVec.ofNat 64 e.req.addr.toNat })]
             increments := s.wires.increments ++ [(.path, .refusedAccess)] } ∧
           ∀ x ∈ t.path.queue, x.mark ≠ .awaiting ∨ x.id ≠ v.id) ∧
         ∃ u : State, exec .verdict { s with path := { s.path with heldOff := [] } } = .next u ∧
           t = State.takeHeld { u with path := { u.path with heldOff := s.path.heldOff } } ∧
           u = { s with path := u.path, wires := u.wires } ∧
           u.wires = { s.wires with
             verdicts := rest
             faults := s.wires.faults ++ [(.path,
               { source := e.req.source, kind := if r = .postOverrun then .postOverrun else .groupInvalid,
                 detailA := BitVec.ofNat 16 ((match e.kind with | .read => 0 | .write => 1) + 256 * e.req.beats),
                 detailB := BitVec.ofNat 64 e.req.addr.toNat })]
             increments := s.wires.increments ++ [(.path, .refusedAccess)] } ∧
           u.path = { s.path with
             queue := u.path.queue
             slots := u.path.slots
             returned := u.path.returned
             heldOff := []
             refused := min 4294967295 (s.path.refused + 1) } ∧
           Path.settledInto { s.path with queue := s.path.queue.map fun x =>
             if x.id = v.id then { x with mark := .refused } else x } u.path) ∧
  (∀ (r : PendingRewrite) (rest : List PendingRewrite) (s : State), s.inReset = false →
     s.wires.announcements = r :: rest →
     let queued := ∃ t ∈ s.path.internal, ∃ p, t.tag = .rewrite r.id p
     (¬ queued → exec .rewriteAnnouncement s = .next { s with wires := { s.wires with announcements := rest } }) ∧
     (queued →
       exec .rewriteAnnouncement s = .next { s with
         path := { s.path with
           rewrites := s.path.rewrites ++ [r]
           queue := heldAgainst (s.path.rewrites ++ [r]) s.path.queue
           heldReads := min 4294967295 (s.path.heldReads + newlyHeld (s.path.rewrites ++ [r]) s.path.queue) }
         wires := { s.wires with announcements := rest } })) ∧
  (∀ (m : SeenWrite) (rest : List SeenWrite) (s : State), s.inReset = false → s.wires.seenWrites = m :: rest →
     m.enables.length = 4 → m.data.length = 4 →
     ∃ t : State, exec .seenWordWrite s = .next t ∧ t.wires = { s.wires with seenWrites := rest } ∧
       t.cmd = { s.cmd with seen := t.cmd.seen } ∧ t.writer = { s.writer with attn := t.writer.attn } ∧ t.attnRight ∧
       ∀ i, i < 4 → (le 4 t.cmd.seen.toNat)[i]? =
         if m.enables.getD i false then m.data[i]? else (le 4 s.cmd.seen.toNat)[i]?)

/-- M_PORT_SEND: of the oldest ready pass-through entry and the head of the internal queue, the one that is ready alone
leaves, and of two the one the turn marker does not name; the marker then names it. A pass-through entry that leaves counts
as forwarded; with neither ready nothing is sent (R144, R157, R158).

A pass-through entry that leaves is gone from the queue, with every entry it held back that goes nowhere, and its
transaction joins those at memory, a read with the bytes that stand there. A write's copy goes on by its class: a landing
write to its lane, the post word's bytes and a live group's field and sequence bytes to the mirror, the seen word's as a
write of its own (R153). A translated take read hands the Record Writer the ring positions whose sequence words lie within
its span, when there are any (R155). Requests held off then take the room (R143).

A transaction of the part that leaves is gone from the internal queue, which the waiting transactions then refill, and joins
those at memory; a sequence word that leaves makes its entry written, a rewrite frees the reads it held, and a completion
word becomes the last one sent (R156, R157, R161, R167).

A write of n bytes leaves every enabled byte of its span as written and every other byte of memory as it was (R143,
R144).

MEMORY_ANSWER: the oldest transaction not yet answered is answered: the data of the slot read makes the command ready,
the data of a configuration read joins what has been read, an answer to the Record Writer changes nothing else, and an answer
to a source is returned DONE with its data when no older request of that source waits for its response, and otherwise kept
(R144, R157, R160, R163).

The model's: memory answers its oldest transaction first, and the list of responses returned; a read takes its whole span
whatever its enables; a sequence word of a log's old ring counts as no written entry after a restart; held reads meet rewrites
by position (in order, notes/assumptions/29, 22, 32, 21). -/
def Obligations.PortAndMemory : Prop :=
  (∀ s : State, s.inReset = false →
     match readyEntry [] s.path.queue, s.path.internal with
     | none, [] => exec .mPortSend s = .next s
     | some (e, _), [] => ∃ t : State, exec .mPortSend s = .next t ∧ t.path.marker = .pass ∧
         t.path.forwarded = min 4294967295 (s.path.forwarded + 1) ∧
         t.mem = (if e.kind = .write then writeBytes s.mem e.target e.req.enables e.req.data else s.mem)
     | none, x :: _ => ∃ t : State, exec .mPortSend s = .next t ∧ t.path.marker = .internal ∧
         t.path.forwarded = s.path.forwarded ∧
         t.mem = (if x.write then writeBytes s.mem x.addr x.enables x.data else s.mem)
     | some (e, _), x :: xs => ∃ t : State, exec .mPortSend s = .next t ∧
         if s.path.marker = .internal then
           t.path.marker = .pass ∧ t.path.forwarded = min 4294967295 (s.path.forwarded + 1) ∧
           t.path.internal = x :: xs ∧
           t.mem = (if e.kind = .write then writeBytes s.mem e.target e.req.enables e.req.data else s.mem)
         else
           t.path.marker = .internal ∧ t.path.forwarded = s.path.forwarded ∧ t.path.queue.length = s.path.queue.length ∧
           t.mem = (if x.write then writeBytes s.mem x.addr x.enables x.data else s.mem)) ∧
  (∀ (s : State) (e : PassEntry) (rest : List PassEntry), s.inReset = false → readyEntry [] s.path.queue = some (e, rest) →
     s.path.internal = [] ∨ s.path.marker = .internal →
     ∃ t u : State, exec .mPortSend s = .next t ∧ exec .mPortSend { s with path := { s.path with heldOff := [] } } = .next u ∧
       t = State.takeHeld { u with path := { u.path with heldOff := s.path.heldOff } } ∧
       u = { s with mem := u.mem, cmd := u.cmd, path := u.path, wires := u.wires } ∧
       u.path = { s.path with
         queue := u.path.queue
         slots := u.path.slots
         returned := u.path.returned
         heldOff := []
         marker := .pass
         forwarded := min 4294967295 (s.path.forwarded + 1)
         atMemory := s.path.atMemory ++
           [{ dest := .source e.id
              data := match e.kind with
                | .read => (List.range' e.target e.req.span).map (readByte s.mem)
                | .write => [] }] } ∧
       Path.settledInto { s.path with queue := rest } u.path ∧
       (let anchor := s.path.anchorBase
        let carries : Nat → Option Byte := fun a => match e.kind with
          | .read => none
          | .write => e.req.byteFor a
        let seen := (List.range 4).map fun i => carries (anchor + 0x4408 + i)
        u.cmd = { s.cmd with post := u.cmd.post, mirror := u.cmd.mirror } ∧
        (∀ i, i < 4 → (le 4 u.cmd.post.toNat)[i]? = (le 4 s.cmd.post.toNat)[i]?.map fun b =>
          if e.region = .anchorCommand then (carries (anchor + 0x4400 + i)).getD b else b) ∧
        (∀ g : GroupId, (u.cmd.mirror[g.idx]).isSome = (s.cmd.mirror[g.idx]).isSome ∧
          ∀ x y, s.cmd.mirror[g.idx] = some x → u.cmd.mirror[g.idx] = some y →
            ∀ o : Nat, y.image[o]? = x.image[o]?.map fun b =>
              if e.region = .anchorConfig ∧ (g.isField o = true ∨ isSeqByte o = true) then
                (carries (anchor + g.base + o)).getD b
              else b) ∧
        u.wires = { s.wires with
          landing := (match e.kind, e.region with
            | .write, .landing k => upd s.wires.landing k fun l => l ++
                [{ source := e.req.source, addr := e.req.addr.toNat, span := e.req.span, enables := e.req.enables,
                   data := e.req.data }]
            | _, _ => s.wires.landing)
          seenWrites := s.wires.seenWrites ++
            (if e.region = .anchorCommand ∧ (seen.any Option.isSome) = true then
              [{ enables := seen.map Option.isSome, data := seen.map fun b => b.getD 0 }]
             else [])
          releases := s.wires.releases ++
            (match e.mark, e.region with
             | .translated _, .view l .take =>
               let positions := positionsWithin l.entrySize e.viewAt e.req.span
               if positions.isEmpty then [] else [{ log := l, positions := positions }]
             | _, _ => []) })) ∧
  (∀ (s : State) (x : Txn) (xs : List Txn), s.inReset = false → s.path.internal = x :: xs →
     readyEntry [] s.path.queue = none ∨ s.path.marker = .pass →
     let placed := (s.writer.waiting ++ s.cmd.waiting).take (if xs.length < 16 then 1 else 0)
     ∃ t : State, exec .mPortSend s = .next t ∧
       t = { s with
         mem := t.mem
         path := t.path
         writer := t.writer
         cmd := { s.cmd with waiting :=
           if s.writer.waiting = [] then s.cmd.waiting.drop placed.length else s.cmd.waiting }
         wires := { s.wires with announcements := s.wires.announcements ++ placed.filterMap fun y =>
           match y.tag with
           | .rewrite id p => some { id := id, position := p }
           | _ => none } } ∧
       t.path = { s.path with
         internal := xs ++ placed
         marker := .internal
         queue := t.path.queue
         rewrites := t.path.rewrites
         atMemory := s.path.atMemory ++
           [{ dest := match x.tag with
                | .slotRead => .slotRead
                | .areaRead => .areaRead
                | _ => .writer
              data := if x.write then [] else (List.range' x.addr x.span).map (readByte s.mem) }] } ∧
       (match x.tag with
        | .rewrite id _ =>
          t.path.rewrites = (s.path.rewrites.filter fun r => decide (r.id ≠ id)) ∧
            t.path.queue = s.path.queue.map fun e => { e with held := e.held && e.overlaps t.path.rewrites }
        | _ => t.path.rewrites = s.path.rewrites ∧ t.path.queue = s.path.queue) ∧
       t.writer = { s.writer with
         waiting := s.writer.waiting.drop placed.length
         attn := t.writer.attn
         lastCompletion := (match x.tag with | .completionWord v => v | _ => s.writer.lastCompletion)
         logs := (match x.tag with
           | .entrySeq l gen =>
             if s.writer.logs[l.idx].gen = gen then
               upd s.writer.logs l.idx fun g => { g with written := g.written + 1 }
             else s.writer.logs
           | _ => s.writer.logs) } ∧
       (s.attnRight → t.attnRight)) ∧
  (∀ (m : List Host.Cell) (a : Nat) (es : List Bool) (ds : List Byte) (x : Nat), Memory.wf m = true →
     es.length = ds.length →
     readByte (writeBytes m a es ds) x =
       if a ≤ x ∧ x < a + ds.length ∧ es.getD (x - a) false = true then ds.getD (x - a) 0 else readByte m x) ∧
  (∀ (m : MemTxn) (rest : List MemTxn) (s : State), s.inReset = false → s.path.atMemory = m :: rest →
     let popped : State := { s with path := { s.path with atMemory := rest } }
     (∀ n, m.dest = .slotRead → s.cmd.execution = some { slot := n, phase := .readingSlot } →
       exec .memoryAnswer s = .next { popped with
         cmd := { s.cmd with execution := some { slot := n, phase := .ready m.data } } }) ∧
     (∀ n bytes, m.dest = .areaRead → s.cmd.execution = some { slot := n, phase := .readingArea bytes } →
       exec .memoryAnswer s = .next { popped with
         cmd := { s.cmd with execution := some { slot := n, phase := .readingArea (bytes ++ m.data) } } }) ∧
     (m.dest = .writer → exec .memoryAnswer s = .next popped) ∧
     ∀ id k before after, m.dest = .source id →
       s.path.slots = before ++ { id := id, source := k, response := none } :: after →
       (∀ x ∈ before ++ after, x.id ≠ id) →
       ∃ t : State, exec .memoryAnswer s = .next t ∧ t.path.queue = s.path.queue ∧ t.path.atMemory = rest ∧
         ((∀ x ∈ before, x.source = k → x.response ≠ none) →
           ({ source := k, done := true, data := m.data } : Response) ∈ t.path.returned) ∧
         ((∃ x ∈ before, x.source = k ∧ x.response = none) →
           ({ id := id, source := k, response := some { source := k, done := true, data := m.data } } : ResponseSlot) ∈
             t.path.slots))
end

