-- ==== Sys2Proof/Laws/State.lean ====
section
/-! SUPPORT. The field lemmas of the named updates of State: what each leaves as it was, true by rfl, so that no later
proof unfolds a record update. -/

namespace Sys2Proof.Machine

variable (s : State)

/-! ### State.wire -/

@[simp] theorem State.wire_pending (f : Wires → Wires) : (s.wire f).pending = s.pending := rfl
@[simp] theorem State.wire_inReset (f : Wires → Wires) : (s.wire f).inReset = s.inReset := rfl
@[simp] theorem State.wire_epoch (f : Wires → Wires) : (s.wire f).epoch = s.epoch := rfl
@[simp] theorem State.wire_travel (f : Wires → Wires) : (s.wire f).travel = s.travel := rfl
@[simp] theorem State.wire_lanes (f : Wires → Wires) : (s.wire f).lanes = s.lanes := rfl
@[simp] theorem State.wire_engine (f : Wires → Wires) : (s.wire f).engine = s.engine := rfl
@[simp] theorem State.wire_asm (f : Wires → Wires) : (s.wire f).asm = s.asm := rfl
@[simp] theorem State.wire_planner (f : Wires → Wires) : (s.wire f).planner = s.planner := rfl
@[simp] theorem State.wire_strike (f : Wires → Wires) : (s.wire f).strike = s.strike := rfl
@[simp] theorem State.wire_grading (f : Wires → Wires) : (s.wire f).grading = s.grading := rfl
@[simp] theorem State.wire_shift (f : Wires → Wires) : (s.wire f).shift = s.shift := rfl
@[simp] theorem State.wire_path (f : Wires → Wires) : (s.wire f).path = s.path := rfl
@[simp] theorem State.wire_cmd (f : Wires → Wires) : (s.wire f).cmd = s.cmd := rfl
@[simp] theorem State.wire_writer (f : Wires → Wires) : (s.wire f).writer = s.writer := rfl
@[simp] theorem State.wire_wires (f : Wires → Wires) : (s.wire f).wires = f s.wires := rfl
@[simp] theorem State.wire_mem (f : Wires → Wires) : (s.wire f).mem = s.mem := rfl

/-! ### State.sendIncrements -/

@[simp] theorem State.sendIncrements_pending (b : Sender) (is : List Increment) : (s.sendIncrements b is).pending = s.pending := rfl
@[simp] theorem State.sendIncrements_inReset (b : Sender) (is : List Increment) : (s.sendIncrements b is).inReset = s.inReset := rfl
@[simp] theorem State.sendIncrements_epoch (b : Sender) (is : List Increment) : (s.sendIncrements b is).epoch = s.epoch := rfl
@[simp] theorem State.sendIncrements_travel (b : Sender) (is : List Increment) : (s.sendIncrements b is).travel = s.travel := rfl
@[simp] theorem State.sendIncrements_lanes (b : Sender) (is : List Increment) : (s.sendIncrements b is).lanes = s.lanes := rfl
@[simp] theorem State.sendIncrements_engine (b : Sender) (is : List Increment) : (s.sendIncrements b is).engine = s.engine := rfl
@[simp] theorem State.sendIncrements_asm (b : Sender) (is : List Increment) : (s.sendIncrements b is).asm = s.asm := rfl
@[simp] theorem State.sendIncrements_planner (b : Sender) (is : List Increment) : (s.sendIncrements b is).planner = s.planner := rfl
@[simp] theorem State.sendIncrements_strike (b : Sender) (is : List Increment) : (s.sendIncrements b is).strike = s.strike := rfl
@[simp] theorem State.sendIncrements_grading (b : Sender) (is : List Increment) : (s.sendIncrements b is).grading = s.grading := rfl
@[simp] theorem State.sendIncrements_shift (b : Sender) (is : List Increment) : (s.sendIncrements b is).shift = s.shift := rfl
@[simp] theorem State.sendIncrements_path (b : Sender) (is : List Increment) : (s.sendIncrements b is).path = s.path := rfl
@[simp] theorem State.sendIncrements_cmd (b : Sender) (is : List Increment) : (s.sendIncrements b is).cmd = s.cmd := rfl
@[simp] theorem State.sendIncrements_writer (b : Sender) (is : List Increment) : (s.sendIncrements b is).writer = s.writer := rfl
@[simp] theorem State.sendIncrements_mem (b : Sender) (is : List Increment) : (s.sendIncrements b is).mem = s.mem := rfl

/-! ### State.setCmd -/

@[simp] theorem State.setCmd_pending (c : Command) : (s.setCmd c).pending = s.pending := rfl
@[simp] theorem State.setCmd_inReset (c : Command) : (s.setCmd c).inReset = s.inReset := rfl
@[simp] theorem State.setCmd_epoch (c : Command) : (s.setCmd c).epoch = s.epoch := rfl
@[simp] theorem State.setCmd_travel (c : Command) : (s.setCmd c).travel = s.travel := rfl
@[simp] theorem State.setCmd_lanes (c : Command) : (s.setCmd c).lanes = s.lanes := rfl
@[simp] theorem State.setCmd_engine (c : Command) : (s.setCmd c).engine = s.engine := rfl
@[simp] theorem State.setCmd_asm (c : Command) : (s.setCmd c).asm = s.asm := rfl
@[simp] theorem State.setCmd_planner (c : Command) : (s.setCmd c).planner = s.planner := rfl
@[simp] theorem State.setCmd_strike (c : Command) : (s.setCmd c).strike = s.strike := rfl
@[simp] theorem State.setCmd_grading (c : Command) : (s.setCmd c).grading = s.grading := rfl
@[simp] theorem State.setCmd_shift (c : Command) : (s.setCmd c).shift = s.shift := rfl
@[simp] theorem State.setCmd_path (c : Command) : (s.setCmd c).path = s.path := rfl
@[simp] theorem State.setCmd_cmd (c : Command) : (s.setCmd c).cmd = c := rfl
@[simp] theorem State.setCmd_writer (c : Command) : (s.setCmd c).writer = s.writer := rfl
@[simp] theorem State.setCmd_wires (c : Command) : (s.setCmd c).wires = s.wires := rfl
@[simp] theorem State.setCmd_mem (c : Command) : (s.setCmd c).mem = s.mem := rfl

/-! ### State.setShift -/

@[simp] theorem State.setShift_pending (t : Shift) : (s.setShift t).pending = s.pending := rfl
@[simp] theorem State.setShift_inReset (t : Shift) : (s.setShift t).inReset = s.inReset := rfl
@[simp] theorem State.setShift_epoch (t : Shift) : (s.setShift t).epoch = s.epoch := rfl
@[simp] theorem State.setShift_travel (t : Shift) : (s.setShift t).travel = s.travel := rfl
@[simp] theorem State.setShift_lanes (t : Shift) : (s.setShift t).lanes = s.lanes := rfl
@[simp] theorem State.setShift_engine (t : Shift) : (s.setShift t).engine = s.engine := rfl
@[simp] theorem State.setShift_asm (t : Shift) : (s.setShift t).asm = s.asm := rfl
@[simp] theorem State.setShift_planner (t : Shift) : (s.setShift t).planner = s.planner := rfl
@[simp] theorem State.setShift_strike (t : Shift) : (s.setShift t).strike = s.strike := rfl
@[simp] theorem State.setShift_grading (t : Shift) : (s.setShift t).grading = s.grading := rfl
@[simp] theorem State.setShift_shift (t : Shift) : (s.setShift t).shift = t := rfl
@[simp] theorem State.setShift_path (t : Shift) : (s.setShift t).path = s.path := rfl
@[simp] theorem State.setShift_cmd (t : Shift) : (s.setShift t).cmd = s.cmd := rfl
@[simp] theorem State.setShift_writer (t : Shift) : (s.setShift t).writer = s.writer := rfl
@[simp] theorem State.setShift_wires (t : Shift) : (s.setShift t).wires = s.wires := rfl
@[simp] theorem State.setShift_mem (t : Shift) : (s.setShift t).mem = s.mem := rfl

/-! ### State.setLane -/

@[simp] theorem State.setLane_pending (k : LaneId) (l : Lane) : (s.setLane k l).pending = s.pending := rfl
@[simp] theorem State.setLane_inReset (k : LaneId) (l : Lane) : (s.setLane k l).inReset = s.inReset := rfl
@[simp] theorem State.setLane_epoch (k : LaneId) (l : Lane) : (s.setLane k l).epoch = s.epoch := rfl
@[simp] theorem State.setLane_travel (k : LaneId) (l : Lane) : (s.setLane k l).travel = s.travel := rfl
@[simp] theorem State.setLane_engine (k : LaneId) (l : Lane) : (s.setLane k l).engine = s.engine := rfl
@[simp] theorem State.setLane_asm (k : LaneId) (l : Lane) : (s.setLane k l).asm = s.asm := rfl
@[simp] theorem State.setLane_planner (k : LaneId) (l : Lane) : (s.setLane k l).planner = s.planner := rfl
@[simp] theorem State.setLane_strike (k : LaneId) (l : Lane) : (s.setLane k l).strike = s.strike := rfl
@[simp] theorem State.setLane_grading (k : LaneId) (l : Lane) : (s.setLane k l).grading = s.grading := rfl
@[simp] theorem State.setLane_shift (k : LaneId) (l : Lane) : (s.setLane k l).shift = s.shift := rfl
@[simp] theorem State.setLane_path (k : LaneId) (l : Lane) : (s.setLane k l).path = s.path := rfl
@[simp] theorem State.setLane_cmd (k : LaneId) (l : Lane) : (s.setLane k l).cmd = s.cmd := rfl
@[simp] theorem State.setLane_writer (k : LaneId) (l : Lane) : (s.setLane k l).writer = s.writer := rfl
@[simp] theorem State.setLane_wires (k : LaneId) (l : Lane) : (s.setLane k l).wires = s.wires := rfl
@[simp] theorem State.setLane_mem (k : LaneId) (l : Lane) : (s.setLane k l).mem = s.mem := rfl

/-! ### State.setEngineLane -/

@[simp] theorem State.setEngineLane_pending (k : LaneId) (e : EngineLane) : (s.setEngineLane k e).pending = s.pending := rfl
@[simp] theorem State.setEngineLane_inReset (k : LaneId) (e : EngineLane) : (s.setEngineLane k e).inReset = s.inReset := rfl
@[simp] theorem State.setEngineLane_epoch (k : LaneId) (e : EngineLane) : (s.setEngineLane k e).epoch = s.epoch := rfl
@[simp] theorem State.setEngineLane_travel (k : LaneId) (e : EngineLane) : (s.setEngineLane k e).travel = s.travel := rfl
@[simp] theorem State.setEngineLane_lanes (k : LaneId) (e : EngineLane) : (s.setEngineLane k e).lanes = s.lanes := rfl
@[simp] theorem State.setEngineLane_asm (k : LaneId) (e : EngineLane) : (s.setEngineLane k e).asm = s.asm := rfl
@[simp] theorem State.setEngineLane_planner (k : LaneId) (e : EngineLane) : (s.setEngineLane k e).planner = s.planner := rfl
@[simp] theorem State.setEngineLane_strike (k : LaneId) (e : EngineLane) : (s.setEngineLane k e).strike = s.strike := rfl
@[simp] theorem State.setEngineLane_grading (k : LaneId) (e : EngineLane) : (s.setEngineLane k e).grading = s.grading := rfl
@[simp] theorem State.setEngineLane_shift (k : LaneId) (e : EngineLane) : (s.setEngineLane k e).shift = s.shift := rfl
@[simp] theorem State.setEngineLane_path (k : LaneId) (e : EngineLane) : (s.setEngineLane k e).path = s.path := rfl
@[simp] theorem State.setEngineLane_cmd (k : LaneId) (e : EngineLane) : (s.setEngineLane k e).cmd = s.cmd := rfl
@[simp] theorem State.setEngineLane_writer (k : LaneId) (e : EngineLane) : (s.setEngineLane k e).writer = s.writer := rfl
@[simp] theorem State.setEngineLane_wires (k : LaneId) (e : EngineLane) : (s.setEngineLane k e).wires = s.wires := rfl
@[simp] theorem State.setEngineLane_mem (k : LaneId) (e : EngineLane) : (s.setEngineLane k e).mem = s.mem := rfl

/-! ### State.setLog -/

@[simp] theorem State.setLog_pending (l : LogId) (g : LogState) : (s.setLog l g).pending = s.pending := rfl
@[simp] theorem State.setLog_inReset (l : LogId) (g : LogState) : (s.setLog l g).inReset = s.inReset := rfl
@[simp] theorem State.setLog_epoch (l : LogId) (g : LogState) : (s.setLog l g).epoch = s.epoch := rfl
@[simp] theorem State.setLog_travel (l : LogId) (g : LogState) : (s.setLog l g).travel = s.travel := rfl
@[simp] theorem State.setLog_lanes (l : LogId) (g : LogState) : (s.setLog l g).lanes = s.lanes := rfl
@[simp] theorem State.setLog_engine (l : LogId) (g : LogState) : (s.setLog l g).engine = s.engine := rfl
@[simp] theorem State.setLog_asm (l : LogId) (g : LogState) : (s.setLog l g).asm = s.asm := rfl
@[simp] theorem State.setLog_planner (l : LogId) (g : LogState) : (s.setLog l g).planner = s.planner := rfl
@[simp] theorem State.setLog_strike (l : LogId) (g : LogState) : (s.setLog l g).strike = s.strike := rfl
@[simp] theorem State.setLog_grading (l : LogId) (g : LogState) : (s.setLog l g).grading = s.grading := rfl
@[simp] theorem State.setLog_shift (l : LogId) (g : LogState) : (s.setLog l g).shift = s.shift := rfl
@[simp] theorem State.setLog_path (l : LogId) (g : LogState) : (s.setLog l g).path = s.path := rfl
@[simp] theorem State.setLog_cmd (l : LogId) (g : LogState) : (s.setLog l g).cmd = s.cmd := rfl
@[simp] theorem State.setLog_wires (l : LogId) (g : LogState) : (s.setLog l g).wires = s.wires := rfl
@[simp] theorem State.setLog_mem (l : LogId) (g : LogState) : (s.setLog l g).mem = s.mem := rfl

/-! ### State.setRefused -/

@[simp] theorem State.setRefused_pending (l : LogId) (b : Bool) : (s.setRefused l b).pending = s.pending := rfl
@[simp] theorem State.setRefused_inReset (l : LogId) (b : Bool) : (s.setRefused l b).inReset = s.inReset := rfl
@[simp] theorem State.setRefused_epoch (l : LogId) (b : Bool) : (s.setRefused l b).epoch = s.epoch := rfl
@[simp] theorem State.setRefused_travel (l : LogId) (b : Bool) : (s.setRefused l b).travel = s.travel := rfl
@[simp] theorem State.setRefused_lanes (l : LogId) (b : Bool) : (s.setRefused l b).lanes = s.lanes := rfl
@[simp] theorem State.setRefused_engine (l : LogId) (b : Bool) : (s.setRefused l b).engine = s.engine := rfl
@[simp] theorem State.setRefused_asm (l : LogId) (b : Bool) : (s.setRefused l b).asm = s.asm := rfl
@[simp] theorem State.setRefused_planner (l : LogId) (b : Bool) : (s.setRefused l b).planner = s.planner := rfl
@[simp] theorem State.setRefused_strike (l : LogId) (b : Bool) : (s.setRefused l b).strike = s.strike := rfl
@[simp] theorem State.setRefused_grading (l : LogId) (b : Bool) : (s.setRefused l b).grading = s.grading := rfl
@[simp] theorem State.setRefused_shift (l : LogId) (b : Bool) : (s.setRefused l b).shift = s.shift := rfl
@[simp] theorem State.setRefused_path (l : LogId) (b : Bool) : (s.setRefused l b).path = s.path := rfl
@[simp] theorem State.setRefused_cmd (l : LogId) (b : Bool) : (s.setRefused l b).cmd = s.cmd := rfl
@[simp] theorem State.setRefused_wires (l : LogId) (b : Bool) : (s.setRefused l b).wires = s.wires := rfl
@[simp] theorem State.setRefused_mem (l : LogId) (b : Bool) : (s.setRefused l b).mem = s.mem := rfl

/-! ### State.setOpenFault -/

@[simp] theorem State.setOpenFault_pending (k : SourceId) (o : Option OpenFault) : (s.setOpenFault k o).pending = s.pending := rfl
@[simp] theorem State.setOpenFault_inReset (k : SourceId) (o : Option OpenFault) : (s.setOpenFault k o).inReset = s.inReset := rfl
@[simp] theorem State.setOpenFault_epoch (k : SourceId) (o : Option OpenFault) : (s.setOpenFault k o).epoch = s.epoch := rfl
@[simp] theorem State.setOpenFault_travel (k : SourceId) (o : Option OpenFault) : (s.setOpenFault k o).travel = s.travel := rfl
@[simp] theorem State.setOpenFault_lanes (k : SourceId) (o : Option OpenFault) : (s.setOpenFault k o).lanes = s.lanes := rfl
@[simp] theorem State.setOpenFault_engine (k : SourceId) (o : Option OpenFault) : (s.setOpenFault k o).engine = s.engine := rfl
@[simp] theorem State.setOpenFault_asm (k : SourceId) (o : Option OpenFault) : (s.setOpenFault k o).asm = s.asm := rfl
@[simp] theorem State.setOpenFault_planner (k : SourceId) (o : Option OpenFault) : (s.setOpenFault k o).planner = s.planner := rfl
@[simp] theorem State.setOpenFault_strike (k : SourceId) (o : Option OpenFault) : (s.setOpenFault k o).strike = s.strike := rfl
@[simp] theorem State.setOpenFault_grading (k : SourceId) (o : Option OpenFault) : (s.setOpenFault k o).grading = s.grading := rfl
@[simp] theorem State.setOpenFault_shift (k : SourceId) (o : Option OpenFault) : (s.setOpenFault k o).shift = s.shift := rfl
@[simp] theorem State.setOpenFault_path (k : SourceId) (o : Option OpenFault) : (s.setOpenFault k o).path = s.path := rfl
@[simp] theorem State.setOpenFault_cmd (k : SourceId) (o : Option OpenFault) : (s.setOpenFault k o).cmd = s.cmd := rfl
@[simp] theorem State.setOpenFault_wires (k : SourceId) (o : Option OpenFault) : (s.setOpenFault k o).wires = s.wires := rfl
@[simp] theorem State.setOpenFault_mem (k : SourceId) (o : Option OpenFault) : (s.setOpenFault k o).mem = s.mem := rfl

/-! ### State.takeDetect -/

@[simp] theorem State.takeDetect_pending : (s.takeDetect).pending = s.pending := rfl
@[simp] theorem State.takeDetect_inReset : (s.takeDetect).inReset = s.inReset := rfl
@[simp] theorem State.takeDetect_epoch : (s.takeDetect).epoch = s.epoch := rfl
@[simp] theorem State.takeDetect_travel : (s.takeDetect).travel = s.travel := rfl
@[simp] theorem State.takeDetect_lanes : (s.takeDetect).lanes = s.lanes := rfl
@[simp] theorem State.takeDetect_engine : (s.takeDetect).engine = s.engine := rfl
@[simp] theorem State.takeDetect_asm : (s.takeDetect).asm = s.asm := rfl
@[simp] theorem State.takeDetect_planner : (s.takeDetect).planner = s.planner := rfl
@[simp] theorem State.takeDetect_strike : (s.takeDetect).strike = s.strike := rfl
@[simp] theorem State.takeDetect_grading : (s.takeDetect).grading = s.grading := rfl
@[simp] theorem State.takeDetect_shift : (s.takeDetect).shift = s.shift := rfl
@[simp] theorem State.takeDetect_path : (s.takeDetect).path = s.path := rfl
@[simp] theorem State.takeDetect_writer : (s.takeDetect).writer = s.writer := rfl
@[simp] theorem State.takeDetect_wires : (s.takeDetect).wires = s.wires := rfl
@[simp] theorem State.takeDetect_mem : (s.takeDetect).mem = s.mem := rfl

/-! ### State.evalAttn -/

@[simp] theorem State.evalAttn_pending : (s.evalAttn).pending = s.pending := rfl
@[simp] theorem State.evalAttn_inReset : (s.evalAttn).inReset = s.inReset := rfl
@[simp] theorem State.evalAttn_epoch : (s.evalAttn).epoch = s.epoch := rfl
@[simp] theorem State.evalAttn_travel : (s.evalAttn).travel = s.travel := rfl
@[simp] theorem State.evalAttn_lanes : (s.evalAttn).lanes = s.lanes := rfl
@[simp] theorem State.evalAttn_engine : (s.evalAttn).engine = s.engine := rfl
@[simp] theorem State.evalAttn_asm : (s.evalAttn).asm = s.asm := rfl
@[simp] theorem State.evalAttn_planner : (s.evalAttn).planner = s.planner := rfl
@[simp] theorem State.evalAttn_strike : (s.evalAttn).strike = s.strike := rfl
@[simp] theorem State.evalAttn_grading : (s.evalAttn).grading = s.grading := rfl
@[simp] theorem State.evalAttn_shift : (s.evalAttn).shift = s.shift := rfl
@[simp] theorem State.evalAttn_path : (s.evalAttn).path = s.path := rfl
@[simp] theorem State.evalAttn_cmd : (s.evalAttn).cmd = s.cmd := rfl
@[simp] theorem State.evalAttn_wires : (s.evalAttn).wires = s.wires := rfl
@[simp] theorem State.evalAttn_mem : (s.evalAttn).mem = s.mem := rfl

/-! ### State.answerPlate -/

@[simp] theorem State.answerPlate_pending (a : LogAnswer) : (s.answerPlate a).pending = s.pending := rfl
@[simp] theorem State.answerPlate_inReset (a : LogAnswer) : (s.answerPlate a).inReset = s.inReset := rfl
@[simp] theorem State.answerPlate_epoch (a : LogAnswer) : (s.answerPlate a).epoch = s.epoch := rfl
@[simp] theorem State.answerPlate_travel (a : LogAnswer) : (s.answerPlate a).travel = s.travel := rfl
@[simp] theorem State.answerPlate_lanes (a : LogAnswer) : (s.answerPlate a).lanes = s.lanes := rfl
@[simp] theorem State.answerPlate_engine (a : LogAnswer) : (s.answerPlate a).engine = s.engine := rfl
@[simp] theorem State.answerPlate_asm (a : LogAnswer) : (s.answerPlate a).asm = s.asm := rfl
@[simp] theorem State.answerPlate_planner (a : LogAnswer) : (s.answerPlate a).planner = s.planner := rfl
@[simp] theorem State.answerPlate_strike (a : LogAnswer) : (s.answerPlate a).strike = s.strike := rfl
@[simp] theorem State.answerPlate_grading (a : LogAnswer) : (s.answerPlate a).grading = s.grading := rfl
@[simp] theorem State.answerPlate_shift (a : LogAnswer) : (s.answerPlate a).shift = s.shift := rfl
@[simp] theorem State.answerPlate_path (a : LogAnswer) : (s.answerPlate a).path = s.path := rfl
@[simp] theorem State.answerPlate_cmd (a : LogAnswer) : (s.answerPlate a).cmd = s.cmd := rfl
@[simp] theorem State.answerPlate_writer (a : LogAnswer) : (s.answerPlate a).writer = s.writer := rfl
@[simp] theorem State.answerPlate_mem (a : LogAnswer) : (s.answerPlate a).mem = s.mem := rfl

/-! ### State.answerShift -/

@[simp] theorem State.answerShift_pending (a : LogAnswer) : (s.answerShift a).pending = s.pending := rfl
@[simp] theorem State.answerShift_inReset (a : LogAnswer) : (s.answerShift a).inReset = s.inReset := rfl
@[simp] theorem State.answerShift_epoch (a : LogAnswer) : (s.answerShift a).epoch = s.epoch := rfl
@[simp] theorem State.answerShift_travel (a : LogAnswer) : (s.answerShift a).travel = s.travel := rfl
@[simp] theorem State.answerShift_lanes (a : LogAnswer) : (s.answerShift a).lanes = s.lanes := rfl
@[simp] theorem State.answerShift_engine (a : LogAnswer) : (s.answerShift a).engine = s.engine := rfl
@[simp] theorem State.answerShift_asm (a : LogAnswer) : (s.answerShift a).asm = s.asm := rfl
@[simp] theorem State.answerShift_planner (a : LogAnswer) : (s.answerShift a).planner = s.planner := rfl
@[simp] theorem State.answerShift_strike (a : LogAnswer) : (s.answerShift a).strike = s.strike := rfl
@[simp] theorem State.answerShift_grading (a : LogAnswer) : (s.answerShift a).grading = s.grading := rfl
@[simp] theorem State.answerShift_shift (a : LogAnswer) : (s.answerShift a).shift = s.shift := rfl
@[simp] theorem State.answerShift_path (a : LogAnswer) : (s.answerShift a).path = s.path := rfl
@[simp] theorem State.answerShift_cmd (a : LogAnswer) : (s.answerShift a).cmd = s.cmd := rfl
@[simp] theorem State.answerShift_writer (a : LogAnswer) : (s.answerShift a).writer = s.writer := rfl
@[simp] theorem State.answerShift_mem (a : LogAnswer) : (s.answerShift a).mem = s.mem := rfl

/-! ### State.tallyAdd -/

@[simp] theorem State.tallyAdd_pending (f : TallyCounters → TallyCounters) : (s.tallyAdd f).pending = s.pending := rfl
@[simp] theorem State.tallyAdd_inReset (f : TallyCounters → TallyCounters) : (s.tallyAdd f).inReset = s.inReset := rfl
@[simp] theorem State.tallyAdd_epoch (f : TallyCounters → TallyCounters) : (s.tallyAdd f).epoch = s.epoch := rfl
@[simp] theorem State.tallyAdd_travel (f : TallyCounters → TallyCounters) : (s.tallyAdd f).travel = s.travel := rfl
@[simp] theorem State.tallyAdd_lanes (f : TallyCounters → TallyCounters) : (s.tallyAdd f).lanes = s.lanes := rfl
@[simp] theorem State.tallyAdd_engine (f : TallyCounters → TallyCounters) : (s.tallyAdd f).engine = s.engine := rfl
@[simp] theorem State.tallyAdd_asm (f : TallyCounters → TallyCounters) : (s.tallyAdd f).asm = s.asm := rfl
@[simp] theorem State.tallyAdd_planner (f : TallyCounters → TallyCounters) : (s.tallyAdd f).planner = s.planner := rfl
@[simp] theorem State.tallyAdd_strike (f : TallyCounters → TallyCounters) : (s.tallyAdd f).strike = s.strike := rfl
@[simp] theorem State.tallyAdd_grading (f : TallyCounters → TallyCounters) : (s.tallyAdd f).grading = s.grading := rfl
@[simp] theorem State.tallyAdd_path (f : TallyCounters → TallyCounters) : (s.tallyAdd f).path = s.path := rfl
@[simp] theorem State.tallyAdd_cmd (f : TallyCounters → TallyCounters) : (s.tallyAdd f).cmd = s.cmd := rfl
@[simp] theorem State.tallyAdd_writer (f : TallyCounters → TallyCounters) : (s.tallyAdd f).writer = s.writer := rfl
@[simp] theorem State.tallyAdd_wires (f : TallyCounters → TallyCounters) : (s.tallyAdd f).wires = s.wires := rfl
@[simp] theorem State.tallyAdd_mem (f : TallyCounters → TallyCounters) : (s.tallyAdd f).mem = s.mem := rfl

/-! ### State.askPlanner -/

@[simp] theorem State.askPlanner_pending (m : PieceReq) : (s.askPlanner m).pending = s.pending := rfl
@[simp] theorem State.askPlanner_inReset (m : PieceReq) : (s.askPlanner m).inReset = s.inReset := rfl
@[simp] theorem State.askPlanner_epoch (m : PieceReq) : (s.askPlanner m).epoch = s.epoch := rfl
@[simp] theorem State.askPlanner_travel (m : PieceReq) : (s.askPlanner m).travel = s.travel := rfl
@[simp] theorem State.askPlanner_lanes (m : PieceReq) : (s.askPlanner m).lanes = s.lanes := rfl
@[simp] theorem State.askPlanner_engine (m : PieceReq) : (s.askPlanner m).engine = s.engine := rfl
@[simp] theorem State.askPlanner_asm (m : PieceReq) : (s.askPlanner m).asm = s.asm := rfl
@[simp] theorem State.askPlanner_planner (m : PieceReq) : (s.askPlanner m).planner = s.planner := rfl
@[simp] theorem State.askPlanner_strike (m : PieceReq) : (s.askPlanner m).strike = s.strike := rfl
@[simp] theorem State.askPlanner_grading (m : PieceReq) : (s.askPlanner m).grading = s.grading := rfl
@[simp] theorem State.askPlanner_shift (m : PieceReq) : (s.askPlanner m).shift = s.shift := rfl
@[simp] theorem State.askPlanner_path (m : PieceReq) : (s.askPlanner m).path = s.path := rfl
@[simp] theorem State.askPlanner_cmd (m : PieceReq) : (s.askPlanner m).cmd = s.cmd := rfl
@[simp] theorem State.askPlanner_writer (m : PieceReq) : (s.askPlanner m).writer = s.writer := rfl
@[simp] theorem State.askPlanner_mem (m : PieceReq) : (s.askPlanner m).mem = s.mem := rfl

/-! ### State.sendVerdict -/

@[simp] theorem State.sendVerdict_pending (i : Nat) (v : Verdict) : (s.sendVerdict i v).pending = s.pending := rfl
@[simp] theorem State.sendVerdict_inReset (i : Nat) (v : Verdict) : (s.sendVerdict i v).inReset = s.inReset := rfl
@[simp] theorem State.sendVerdict_epoch (i : Nat) (v : Verdict) : (s.sendVerdict i v).epoch = s.epoch := rfl
@[simp] theorem State.sendVerdict_travel (i : Nat) (v : Verdict) : (s.sendVerdict i v).travel = s.travel := rfl
@[simp] theorem State.sendVerdict_lanes (i : Nat) (v : Verdict) : (s.sendVerdict i v).lanes = s.lanes := rfl
@[simp] theorem State.sendVerdict_engine (i : Nat) (v : Verdict) : (s.sendVerdict i v).engine = s.engine := rfl
@[simp] theorem State.sendVerdict_asm (i : Nat) (v : Verdict) : (s.sendVerdict i v).asm = s.asm := rfl
@[simp] theorem State.sendVerdict_planner (i : Nat) (v : Verdict) : (s.sendVerdict i v).planner = s.planner := rfl
@[simp] theorem State.sendVerdict_strike (i : Nat) (v : Verdict) : (s.sendVerdict i v).strike = s.strike := rfl
@[simp] theorem State.sendVerdict_grading (i : Nat) (v : Verdict) : (s.sendVerdict i v).grading = s.grading := rfl
@[simp] theorem State.sendVerdict_shift (i : Nat) (v : Verdict) : (s.sendVerdict i v).shift = s.shift := rfl
@[simp] theorem State.sendVerdict_path (i : Nat) (v : Verdict) : (s.sendVerdict i v).path = s.path := rfl
@[simp] theorem State.sendVerdict_cmd (i : Nat) (v : Verdict) : (s.sendVerdict i v).cmd = s.cmd := rfl
@[simp] theorem State.sendVerdict_writer (i : Nat) (v : Verdict) : (s.sendVerdict i v).writer = s.writer := rfl
@[simp] theorem State.sendVerdict_mem (i : Nat) (v : Verdict) : (s.sendVerdict i v).mem = s.mem := rfl

/-! ### State.takeIn -/

@[simp] theorem State.takeIn_pending (x : Txn) : (s.takeIn x).pending = s.pending := rfl
@[simp] theorem State.takeIn_inReset (x : Txn) : (s.takeIn x).inReset = s.inReset := rfl
@[simp] theorem State.takeIn_epoch (x : Txn) : (s.takeIn x).epoch = s.epoch := rfl
@[simp] theorem State.takeIn_travel (x : Txn) : (s.takeIn x).travel = s.travel := rfl
@[simp] theorem State.takeIn_lanes (x : Txn) : (s.takeIn x).lanes = s.lanes := rfl
@[simp] theorem State.takeIn_engine (x : Txn) : (s.takeIn x).engine = s.engine := rfl
@[simp] theorem State.takeIn_asm (x : Txn) : (s.takeIn x).asm = s.asm := rfl
@[simp] theorem State.takeIn_planner (x : Txn) : (s.takeIn x).planner = s.planner := rfl
@[simp] theorem State.takeIn_strike (x : Txn) : (s.takeIn x).strike = s.strike := rfl
@[simp] theorem State.takeIn_grading (x : Txn) : (s.takeIn x).grading = s.grading := rfl
@[simp] theorem State.takeIn_shift (x : Txn) : (s.takeIn x).shift = s.shift := rfl
@[simp] theorem State.takeIn_cmd (x : Txn) : (s.takeIn x).cmd = s.cmd := rfl
@[simp] theorem State.takeIn_writer (x : Txn) : (s.takeIn x).writer = s.writer := rfl
@[simp] theorem State.takeIn_mem (x : Txn) : (s.takeIn x).mem = s.mem := rfl

/-! ### State.finishPlan -/

@[simp] theorem State.finishPlan_pending (r : PlanStep) : (s.finishPlan r).pending = s.pending := rfl
@[simp] theorem State.finishPlan_inReset (r : PlanStep) : (s.finishPlan r).inReset = s.inReset := rfl
@[simp] theorem State.finishPlan_epoch (r : PlanStep) : (s.finishPlan r).epoch = s.epoch := rfl
@[simp] theorem State.finishPlan_travel (r : PlanStep) : (s.finishPlan r).travel = s.travel := rfl
@[simp] theorem State.finishPlan_lanes (r : PlanStep) : (s.finishPlan r).lanes = s.lanes := rfl
@[simp] theorem State.finishPlan_engine (r : PlanStep) : (s.finishPlan r).engine = s.engine := rfl
@[simp] theorem State.finishPlan_asm (r : PlanStep) : (s.finishPlan r).asm = s.asm := rfl
@[simp] theorem State.finishPlan_planner (r : PlanStep) : (s.finishPlan r).planner = r.p := rfl
@[simp] theorem State.finishPlan_strike (r : PlanStep) : (s.finishPlan r).strike = s.strike := rfl
@[simp] theorem State.finishPlan_grading (r : PlanStep) : (s.finishPlan r).grading = s.grading := rfl
@[simp] theorem State.finishPlan_shift (r : PlanStep) : (s.finishPlan r).shift = s.shift := rfl
@[simp] theorem State.finishPlan_path (r : PlanStep) : (s.finishPlan r).path = s.path := rfl
@[simp] theorem State.finishPlan_writer (r : PlanStep) : (s.finishPlan r).writer = s.writer := rfl
@[simp] theorem State.finishPlan_mem (r : PlanStep) : (s.finishPlan r).mem = s.mem := rfl

/-! ### State.finishAsm -/

@[simp] theorem State.finishAsm_pending (r : AsmStep) : (s.finishAsm r).pending = s.pending := rfl
@[simp] theorem State.finishAsm_inReset (r : AsmStep) : (s.finishAsm r).inReset = s.inReset := rfl
@[simp] theorem State.finishAsm_epoch (r : AsmStep) : (s.finishAsm r).epoch = s.epoch := rfl
@[simp] theorem State.finishAsm_travel (r : AsmStep) : (s.finishAsm r).travel = s.travel := rfl
@[simp] theorem State.finishAsm_lanes (r : AsmStep) : (s.finishAsm r).lanes = s.lanes := rfl
@[simp] theorem State.finishAsm_engine (r : AsmStep) : (s.finishAsm r).engine = s.engine := rfl
@[simp] theorem State.finishAsm_asm (r : AsmStep) : (s.finishAsm r).asm = r.asm := rfl
@[simp] theorem State.finishAsm_planner (r : AsmStep) : (s.finishAsm r).planner = s.planner := rfl
@[simp] theorem State.finishAsm_strike (r : AsmStep) : (s.finishAsm r).strike = s.strike := rfl
@[simp] theorem State.finishAsm_grading (r : AsmStep) : (s.finishAsm r).grading = s.grading := rfl
@[simp] theorem State.finishAsm_shift (r : AsmStep) : (s.finishAsm r).shift = s.shift := rfl
@[simp] theorem State.finishAsm_path (r : AsmStep) : (s.finishAsm r).path = s.path := rfl
@[simp] theorem State.finishAsm_cmd (r : AsmStep) : (s.finishAsm r).cmd = s.cmd := rfl
@[simp] theorem State.finishAsm_writer (r : AsmStep) : (s.finishAsm r).writer = s.writer := rfl
@[simp] theorem State.finishAsm_mem (r : AsmStep) : (s.finishAsm r).mem = s.mem := rfl

/-! ### State.finishStrike -/

@[simp] theorem State.finishStrike_pending (r : StrikeStep) : (s.finishStrike r).pending = s.pending := rfl
@[simp] theorem State.finishStrike_inReset (r : StrikeStep) : (s.finishStrike r).inReset = s.inReset := rfl
@[simp] theorem State.finishStrike_epoch (r : StrikeStep) : (s.finishStrike r).epoch = s.epoch := rfl
@[simp] theorem State.finishStrike_travel (r : StrikeStep) : (s.finishStrike r).travel = s.travel := rfl
@[simp] theorem State.finishStrike_lanes (r : StrikeStep) : (s.finishStrike r).lanes = s.lanes := rfl
@[simp] theorem State.finishStrike_engine (r : StrikeStep) : (s.finishStrike r).engine = s.engine := rfl
@[simp] theorem State.finishStrike_asm (r : StrikeStep) : (s.finishStrike r).asm = s.asm := rfl
@[simp] theorem State.finishStrike_planner (r : StrikeStep) : (s.finishStrike r).planner = s.planner := rfl
@[simp] theorem State.finishStrike_strike (r : StrikeStep) : (s.finishStrike r).strike = r.t := rfl
@[simp] theorem State.finishStrike_grading (r : StrikeStep) : (s.finishStrike r).grading = s.grading := rfl
@[simp] theorem State.finishStrike_shift (r : StrikeStep) : (s.finishStrike r).shift = s.shift := rfl
@[simp] theorem State.finishStrike_path (r : StrikeStep) : (s.finishStrike r).path = s.path := rfl
@[simp] theorem State.finishStrike_cmd (r : StrikeStep) : (s.finishStrike r).cmd = s.cmd := rfl
@[simp] theorem State.finishStrike_writer (r : StrikeStep) : (s.finishStrike r).writer = s.writer := rfl
@[simp] theorem State.finishStrike_mem (r : StrikeStep) : (s.finishStrike r).mem = s.mem := rfl

/-! ### State.finishCommand -/

@[simp] theorem State.finishCommand_pending (n : Nat) (r : Option Reason) : (s.finishCommand n r).pending = s.pending := rfl
@[simp] theorem State.finishCommand_inReset (n : Nat) (r : Option Reason) : (s.finishCommand n r).inReset = s.inReset := rfl
@[simp] theorem State.finishCommand_epoch (n : Nat) (r : Option Reason) : (s.finishCommand n r).epoch = s.epoch := rfl
@[simp] theorem State.finishCommand_travel (n : Nat) (r : Option Reason) : (s.finishCommand n r).travel = s.travel := rfl
@[simp] theorem State.finishCommand_lanes (n : Nat) (r : Option Reason) : (s.finishCommand n r).lanes = s.lanes := rfl
@[simp] theorem State.finishCommand_engine (n : Nat) (r : Option Reason) : (s.finishCommand n r).engine = s.engine := rfl
@[simp] theorem State.finishCommand_asm (n : Nat) (r : Option Reason) : (s.finishCommand n r).asm = s.asm := rfl
@[simp] theorem State.finishCommand_planner (n : Nat) (r : Option Reason) : (s.finishCommand n r).planner = s.planner := rfl
@[simp] theorem State.finishCommand_strike (n : Nat) (r : Option Reason) : (s.finishCommand n r).strike = s.strike := rfl
@[simp] theorem State.finishCommand_grading (n : Nat) (r : Option Reason) : (s.finishCommand n r).grading = s.grading := rfl
@[simp] theorem State.finishCommand_shift (n : Nat) (r : Option Reason) : (s.finishCommand n r).shift = s.shift := rfl
@[simp] theorem State.finishCommand_path (n : Nat) (r : Option Reason) : (s.finishCommand n r).path = s.path := rfl
@[simp] theorem State.finishCommand_writer (n : Nat) (r : Option Reason) : (s.finishCommand n r).writer = s.writer := rfl
@[simp] theorem State.finishCommand_wires (n : Nat) (r : Option Reason) : (s.finishCommand n r).wires = s.wires := rfl
@[simp] theorem State.finishCommand_mem (n : Nat) (r : Option Reason) : (s.finishCommand n r).mem = s.mem := rfl

/-! ### State.offerShift -/

@[simp] theorem State.offerShift_pending (r : ShiftReport) : (s.offerShift r).pending = s.pending := rfl
@[simp] theorem State.offerShift_inReset (r : ShiftReport) : (s.offerShift r).inReset = s.inReset := rfl
@[simp] theorem State.offerShift_epoch (r : ShiftReport) : (s.offerShift r).epoch = s.epoch := rfl
@[simp] theorem State.offerShift_travel (r : ShiftReport) : (s.offerShift r).travel = s.travel := rfl
@[simp] theorem State.offerShift_lanes (r : ShiftReport) : (s.offerShift r).lanes = s.lanes := rfl
@[simp] theorem State.offerShift_engine (r : ShiftReport) : (s.offerShift r).engine = s.engine := rfl
@[simp] theorem State.offerShift_asm (r : ShiftReport) : (s.offerShift r).asm = s.asm := rfl
@[simp] theorem State.offerShift_planner (r : ShiftReport) : (s.offerShift r).planner = s.planner := rfl
@[simp] theorem State.offerShift_strike (r : ShiftReport) : (s.offerShift r).strike = s.strike := rfl
@[simp] theorem State.offerShift_grading (r : ShiftReport) : (s.offerShift r).grading = s.grading := rfl
@[simp] theorem State.offerShift_path (r : ShiftReport) : (s.offerShift r).path = s.path := rfl
@[simp] theorem State.offerShift_cmd (r : ShiftReport) : (s.offerShift r).cmd = s.cmd := rfl
@[simp] theorem State.offerShift_writer (r : ShiftReport) : (s.offerShift r).writer = s.writer := rfl
@[simp] theorem State.offerShift_mem (r : ShiftReport) : (s.offerShift r).mem = s.mem := rfl

/-! ### State.refuse -/

@[simp] theorem State.refuse_pending (f : FaultKind) (k : ReqKind) (q : Request) : (s.refuse f k q).pending = s.pending := rfl
@[simp] theorem State.refuse_inReset (f : FaultKind) (k : ReqKind) (q : Request) : (s.refuse f k q).inReset = s.inReset := rfl
@[simp] theorem State.refuse_epoch (f : FaultKind) (k : ReqKind) (q : Request) : (s.refuse f k q).epoch = s.epoch := rfl
@[simp] theorem State.refuse_travel (f : FaultKind) (k : ReqKind) (q : Request) : (s.refuse f k q).travel = s.travel := rfl
@[simp] theorem State.refuse_lanes (f : FaultKind) (k : ReqKind) (q : Request) : (s.refuse f k q).lanes = s.lanes := rfl
@[simp] theorem State.refuse_engine (f : FaultKind) (k : ReqKind) (q : Request) : (s.refuse f k q).engine = s.engine := rfl
@[simp] theorem State.refuse_asm (f : FaultKind) (k : ReqKind) (q : Request) : (s.refuse f k q).asm = s.asm := rfl
@[simp] theorem State.refuse_planner (f : FaultKind) (k : ReqKind) (q : Request) : (s.refuse f k q).planner = s.planner := rfl
@[simp] theorem State.refuse_strike (f : FaultKind) (k : ReqKind) (q : Request) : (s.refuse f k q).strike = s.strike := rfl
@[simp] theorem State.refuse_grading (f : FaultKind) (k : ReqKind) (q : Request) : (s.refuse f k q).grading = s.grading := rfl
@[simp] theorem State.refuse_shift (f : FaultKind) (k : ReqKind) (q : Request) : (s.refuse f k q).shift = s.shift := rfl
@[simp] theorem State.refuse_cmd (f : FaultKind) (k : ReqKind) (q : Request) : (s.refuse f k q).cmd = s.cmd := rfl
@[simp] theorem State.refuse_writer (f : FaultKind) (k : ReqKind) (q : Request) : (s.refuse f k q).writer = s.writer := rfl
@[simp] theorem State.refuse_mem (f : FaultKind) (k : ReqKind) (q : Request) : (s.refuse f k q).mem = s.mem := rfl

/-! ### State.handRunState -/

@[simp] theorem State.handRunState_pending (r : RunState) : (s.handRunState r).pending = s.pending := rfl
@[simp] theorem State.handRunState_inReset (r : RunState) : (s.handRunState r).inReset = s.inReset := rfl
@[simp] theorem State.handRunState_epoch (r : RunState) : (s.handRunState r).epoch = s.epoch := rfl
@[simp] theorem State.handRunState_travel (r : RunState) : (s.handRunState r).travel = s.travel := rfl
@[simp] theorem State.handRunState_engine (r : RunState) : (s.handRunState r).engine = s.engine := rfl
@[simp] theorem State.handRunState_asm (r : RunState) : (s.handRunState r).asm = s.asm := rfl
@[simp] theorem State.handRunState_planner (r : RunState) : (s.handRunState r).planner = s.planner := rfl
@[simp] theorem State.handRunState_strike (r : RunState) : (s.handRunState r).strike = s.strike := rfl
@[simp] theorem State.handRunState_grading (r : RunState) : (s.handRunState r).grading = s.grading := rfl
@[simp] theorem State.handRunState_writer (r : RunState) : (s.handRunState r).writer = s.writer := rfl
@[simp] theorem State.handRunState_wires (r : RunState) : (s.handRunState r).wires = s.wires := rfl
@[simp] theorem State.handRunState_mem (r : RunState) : (s.handRunState r).mem = s.mem := rfl

/-! ### State.plannerRunReset -/

@[simp] theorem State.plannerRunReset_pending : (s.plannerRunReset).pending = s.pending := rfl
@[simp] theorem State.plannerRunReset_inReset : (s.plannerRunReset).inReset = s.inReset := rfl
@[simp] theorem State.plannerRunReset_epoch : (s.plannerRunReset).epoch = s.epoch := rfl
@[simp] theorem State.plannerRunReset_travel : (s.plannerRunReset).travel = s.travel := rfl
@[simp] theorem State.plannerRunReset_lanes : (s.plannerRunReset).lanes = s.lanes := rfl
@[simp] theorem State.plannerRunReset_engine : (s.plannerRunReset).engine = s.engine := rfl
@[simp] theorem State.plannerRunReset_asm : (s.plannerRunReset).asm = s.asm := rfl
@[simp] theorem State.plannerRunReset_strike : (s.plannerRunReset).strike = s.strike := rfl
@[simp] theorem State.plannerRunReset_grading : (s.plannerRunReset).grading = s.grading := rfl
@[simp] theorem State.plannerRunReset_shift : (s.plannerRunReset).shift = s.shift := rfl
@[simp] theorem State.plannerRunReset_path : (s.plannerRunReset).path = s.path := rfl
@[simp] theorem State.plannerRunReset_cmd : (s.plannerRunReset).cmd = s.cmd := rfl
@[simp] theorem State.plannerRunReset_writer : (s.plannerRunReset).writer = s.writer := rfl
@[simp] theorem State.plannerRunReset_mem : (s.plannerRunReset).mem = s.mem := rfl

/-! ### State.gradingRunReset -/

@[simp] theorem State.gradingRunReset_pending : (s.gradingRunReset).pending = s.pending := rfl
@[simp] theorem State.gradingRunReset_inReset : (s.gradingRunReset).inReset = s.inReset := rfl
@[simp] theorem State.gradingRunReset_epoch : (s.gradingRunReset).epoch = s.epoch := rfl
@[simp] theorem State.gradingRunReset_travel : (s.gradingRunReset).travel = s.travel := rfl
@[simp] theorem State.gradingRunReset_lanes : (s.gradingRunReset).lanes = s.lanes := rfl
@[simp] theorem State.gradingRunReset_engine : (s.gradingRunReset).engine = s.engine := rfl
@[simp] theorem State.gradingRunReset_asm : (s.gradingRunReset).asm = s.asm := rfl
@[simp] theorem State.gradingRunReset_planner : (s.gradingRunReset).planner = s.planner := rfl
@[simp] theorem State.gradingRunReset_strike : (s.gradingRunReset).strike = s.strike := rfl
@[simp] theorem State.gradingRunReset_shift : (s.gradingRunReset).shift = s.shift := rfl
@[simp] theorem State.gradingRunReset_path : (s.gradingRunReset).path = s.path := rfl
@[simp] theorem State.gradingRunReset_cmd : (s.gradingRunReset).cmd = s.cmd := rfl
@[simp] theorem State.gradingRunReset_writer : (s.gradingRunReset).writer = s.writer := rfl
@[simp] theorem State.gradingRunReset_mem : (s.gradingRunReset).mem = s.mem := rfl

/-! ### State.writerRunReset -/

@[simp] theorem State.writerRunReset_pending : (s.writerRunReset).pending = s.pending := rfl
@[simp] theorem State.writerRunReset_inReset : (s.writerRunReset).inReset = s.inReset := rfl
@[simp] theorem State.writerRunReset_epoch : (s.writerRunReset).epoch = s.epoch := rfl
@[simp] theorem State.writerRunReset_travel : (s.writerRunReset).travel = s.travel := rfl
@[simp] theorem State.writerRunReset_lanes : (s.writerRunReset).lanes = s.lanes := rfl
@[simp] theorem State.writerRunReset_engine : (s.writerRunReset).engine = s.engine := rfl
@[simp] theorem State.writerRunReset_asm : (s.writerRunReset).asm = s.asm := rfl
@[simp] theorem State.writerRunReset_planner : (s.writerRunReset).planner = s.planner := rfl
@[simp] theorem State.writerRunReset_strike : (s.writerRunReset).strike = s.strike := rfl
@[simp] theorem State.writerRunReset_grading : (s.writerRunReset).grading = s.grading := rfl
@[simp] theorem State.writerRunReset_shift : (s.writerRunReset).shift = s.shift := rfl
@[simp] theorem State.writerRunReset_path : (s.writerRunReset).path = s.path := rfl
@[simp] theorem State.writerRunReset_cmd : (s.writerRunReset).cmd = s.cmd := rfl
@[simp] theorem State.writerRunReset_wires : (s.writerRunReset).wires = s.wires := rfl
@[simp] theorem State.writerRunReset_mem : (s.writerRunReset).mem = s.mem := rfl

/-! ### State.enableAtStart -/

@[simp] theorem State.enableAtStart_pending (c : Shadow) : (s.enableAtStart c).pending = s.pending := rfl
@[simp] theorem State.enableAtStart_inReset (c : Shadow) : (s.enableAtStart c).inReset = s.inReset := rfl
@[simp] theorem State.enableAtStart_epoch (c : Shadow) : (s.enableAtStart c).epoch = s.epoch := rfl
@[simp] theorem State.enableAtStart_travel (c : Shadow) : (s.enableAtStart c).travel = s.travel := rfl
@[simp] theorem State.enableAtStart_engine (c : Shadow) : (s.enableAtStart c).engine = s.engine := rfl
@[simp] theorem State.enableAtStart_asm (c : Shadow) : (s.enableAtStart c).asm = s.asm := rfl
@[simp] theorem State.enableAtStart_planner (c : Shadow) : (s.enableAtStart c).planner = s.planner := rfl
@[simp] theorem State.enableAtStart_strike (c : Shadow) : (s.enableAtStart c).strike = s.strike := rfl
@[simp] theorem State.enableAtStart_grading (c : Shadow) : (s.enableAtStart c).grading = s.grading := rfl
@[simp] theorem State.enableAtStart_shift (c : Shadow) : (s.enableAtStart c).shift = s.shift := rfl
@[simp] theorem State.enableAtStart_path (c : Shadow) : (s.enableAtStart c).path = s.path := rfl
@[simp] theorem State.enableAtStart_cmd (c : Shadow) : (s.enableAtStart c).cmd = s.cmd := rfl
@[simp] theorem State.enableAtStart_writer (c : Shadow) : (s.enableAtStart c).writer = s.writer := rfl
@[simp] theorem State.enableAtStart_wires (c : Shadow) : (s.enableAtStart c).wires = s.wires := rfl
@[simp] theorem State.enableAtStart_mem (c : Shadow) : (s.enableAtStart c).mem = s.mem := rfl

end Sys2Proof.Machine
end

