-- ==== Sys2Proof/Laws/Queue.lean ====
section
/-! SUPPORT. The laws of placing the part's own transactions (R157): all they change is the internal queue, the
transactions that wait for room in it, the announcements of rewrites, and, for a status page, its sequence. -/

namespace Sys2Proof.Machine

/-- A state with another internal queue, other waiting transactions, other announcements and another page sequence. -/
def State.requeue (s : State) (q w c : List Txn) (a : List PendingRewrite) (n : Word32) : State :=
  { s with
    path := { s.path with internal := q }
    writer := { s.writer with waiting := w, pageSeq := n }
    cmd := { s.cmd with waiting := c }
    wires := { s.wires with announcements := a } }

/-- A further change of the queues overwrites the one before. -/
@[simp] theorem State.requeue_requeue (s : State) (q w c : List Txn) (a : List PendingRewrite) (n : Word32)
    (q' w' c' : List Txn) (a' : List PendingRewrite) (n' : Word32) :
    (s.requeue q w c a n).requeue q' w' c' a' n' = s.requeue q' w' c' a' n' := rfl

/-- The queues as they stand change nothing. -/
theorem State.requeue_self (s : State) :
    s.requeue s.path.internal s.writer.waiting s.cmd.waiting s.wires.announcements s.writer.pageSeq = s := rfl

/-- What a placing does. -/
def State.Requeued (s t : State) : Prop := ∃ q w c a n, t = s.requeue q w c a n

theorem State.Requeued.refl (s : State) : s.Requeued s := ⟨_, _, _, _, _, s.requeue_self.symm⟩

theorem State.Requeued.trans {s t u : State} (h : s.Requeued t) (g : t.Requeued u) : s.Requeued u := by
  obtain ⟨q, w, c, a, n, rfl⟩ := h
  obtain ⟨q', w', c', a', n', rfl⟩ := g
  exact ⟨q', w', c', a', n', rfl⟩

theorem State.takeIn_requeued (s : State) (t : Txn) : s.Requeued (s.takeIn t) := by
  refine ⟨s.path.internal ++ [t], s.writer.waiting, s.cmd.waiting, (s.takeIn t).wires.announcements, s.writer.pageSeq, ?_⟩
  obtain ⟨tag, _, _, _, _, _⟩ := t
  cases tag <;> rfl

theorem State.placeWrite_requeued (s : State) (t : Txn) : s.Requeued (s.placeWrite t) := by
  unfold State.placeWrite
  split
  · exact s.takeIn_requeued t
  · exact ⟨s.path.internal, s.writer.waiting ++ [t], s.cmd.waiting, s.wires.announcements, s.writer.pageSeq, rfl⟩

theorem State.placeRead_requeued (s : State) (t : Txn) : s.Requeued (s.placeRead t) := by
  unfold State.placeRead
  split
  · exact s.takeIn_requeued t
  · exact ⟨s.path.internal, s.writer.waiting, s.cmd.waiting ++ [t], s.wires.announcements, s.writer.pageSeq, rfl⟩

theorem State.placeWrites_requeued (ts : List Txn) : ∀ s : State, s.Requeued (s.placeWrites ts) := by
  induction ts with
  | nil => exact fun s => .refl s
  | cons t ts ih => exact fun s => (s.placeWrite_requeued t).trans (ih _)

theorem State.placeReads_requeued (ts : List Txn) : ∀ s : State, s.Requeued (s.placeReads ts) := by
  induction ts with
  | nil => exact fun s => .refl s
  | cons t ts ih => exact fun s => (s.placeRead_requeued t).trans (ih _)

theorem State.writePageOf_requeued (s : State) (shown : State → State) : s.Requeued (s.writePageOf shown) :=
  State.Requeued.trans
    ⟨s.path.internal, s.writer.waiting, s.cmd.waiting, s.wires.announcements, s.writer.pageSeq + 1, rfl⟩
    (State.placeWrites_requeued _ _)

theorem State.writePage_requeued (s : State) : s.Requeued s.writePage := by
  unfold State.writePage
  exact s.writePageOf_requeued id

theorem State.writePages_requeued (n : Nat) : ∀ s : State, s.Requeued (State.writePages n s) := by
  induction n with
  | zero => exact fun s => .refl s
  | succ n ih => exact fun s => s.writePage_requeued.trans (ih _)

theorem State.refill_requeued (s : State) : s.Requeued s.refill := by
  unfold State.refill
  split
  · split
    · rename_i t rest _
      exact State.Requeued.trans
        ⟨s.path.internal, rest, s.cmd.waiting, s.wires.announcements, s.writer.pageSeq, rfl⟩ (State.takeIn_requeued _ _)
    · split
      · rename_i t rest _
        exact State.Requeued.trans
          ⟨s.path.internal, s.writer.waiting, rest, s.wires.announcements, s.writer.pageSeq, rfl⟩
          (State.takeIn_requeued _ _)
      · exact .refl s
  · exact .refl s

/-- What no queue holds, a placing keeps. -/
theorem State.Requeued.keeps {β : Type} {s t : State} (h : s.Requeued t) (f : State → β)
    (hf : ∀ (u : State) q w c a n, f (u.requeue q w c a n) = f u) : f t = f s := by
  obtain ⟨q, w, c, a, n, rfl⟩ := h
  exact hf s q w c a n

/-- The page sequence rises by one for each page. -/
theorem State.takeIn_pageSeq (s : State) (t : Txn) : (s.takeIn t).writer.pageSeq = s.writer.pageSeq := rfl

theorem State.placeWrite_pageSeq (s : State) (t : Txn) : (s.placeWrite t).writer.pageSeq = s.writer.pageSeq := by
  unfold State.placeWrite; split <;> rfl

theorem State.placeWrites_pageSeq (ts : List Txn) : ∀ s : State, (s.placeWrites ts).writer.pageSeq = s.writer.pageSeq := by
  induction ts with
  | nil => exact fun _ => rfl
  | cons t ts ih => exact fun s => (ih (s.placeWrite t)).trans (s.placeWrite_pageSeq t)

theorem State.writePage_pageSeq (s : State) : s.writePage.writer.pageSeq = s.writer.pageSeq + 1 := by
  simp only [State.writePage, State.writePageOf, State.placeWrites_pageSeq]

theorem State.writePages_pageSeq (n : Nat) :
    ∀ s : State, (State.writePages n s).writer.pageSeq = s.writer.pageSeq + BitVec.ofNat 32 n := by
  induction n with
  | zero => intro s; simp [State.writePages]
  | succ n ih =>
    intro s
    rw [State.writePages, ih, State.writePage_pageSeq, BitVec.add_assoc, Nat.add_comm n 1, BitVec.ofNat_add]
    rfl

/-- The internal queue holds at most its 16 transactions (R157). -/
theorem State.takeIn_bound (s : State) (t : Txn) (h : s.path.internal.length < Config.internalQueueLimit) :
    (s.takeIn t).path.internal.length ≤ Config.internalQueueLimit := by
  simp only [State.takeIn, List.length_append, List.length_cons, List.length_nil]; omega

theorem State.placeWrite_bound (s : State) (t : Txn) (h : s.path.internal.length ≤ Config.internalQueueLimit) :
    (s.placeWrite t).path.internal.length ≤ Config.internalQueueLimit := by
  unfold State.placeWrite; split
  · rename_i c; exact s.takeIn_bound t c.1
  · exact h

theorem State.placeRead_bound (s : State) (t : Txn) (h : s.path.internal.length ≤ Config.internalQueueLimit) :
    (s.placeRead t).path.internal.length ≤ Config.internalQueueLimit := by
  unfold State.placeRead; split
  · rename_i c; exact s.takeIn_bound t c.1
  · exact h

theorem State.placeWrites_bound (ts : List Txn) : ∀ s : State, s.path.internal.length ≤ Config.internalQueueLimit →
    (s.placeWrites ts).path.internal.length ≤ Config.internalQueueLimit := by
  induction ts with
  | nil => exact fun _ h => h
  | cons t ts ih => exact fun s h => ih _ (s.placeWrite_bound t h)

theorem State.placeReads_bound (ts : List Txn) : ∀ s : State, s.path.internal.length ≤ Config.internalQueueLimit →
    (s.placeReads ts).path.internal.length ≤ Config.internalQueueLimit := by
  induction ts with
  | nil => exact fun _ h => h
  | cons t ts ih => exact fun s h => ih _ (s.placeRead_bound t h)

theorem State.writePageOf_bound (s : State) (shown : State → State)
    (h : s.path.internal.length ≤ Config.internalQueueLimit) :
    (s.writePageOf shown).path.internal.length ≤ Config.internalQueueLimit := by
  unfold State.writePageOf
  apply State.placeWrites_bound
  exact h

theorem State.writePage_bound (s : State) (h : s.path.internal.length ≤ Config.internalQueueLimit) :
    s.writePage.path.internal.length ≤ Config.internalQueueLimit := by
  unfold State.writePage
  exact s.writePageOf_bound id h

theorem State.writePages_bound (n : Nat) : ∀ s : State, s.path.internal.length ≤ Config.internalQueueLimit →
    (State.writePages n s).path.internal.length ≤ Config.internalQueueLimit := by
  induction n with
  | zero => exact fun _ h => h
  | succ n ih => exact fun s h => ih _ (s.writePage_bound h)

theorem State.refill_bound (s : State) (h : s.path.internal.length ≤ Config.internalQueueLimit) :
    s.refill.path.internal.length ≤ Config.internalQueueLimit := by
  unfold State.refill
  split
  · rename_i c
    split
    · exact State.takeIn_bound _ _ c
    · split
      · exact State.takeIn_bound _ _ c
      · exact h
  · exact h

/-! ## The order of the transactions -/

/-- A write of the Record Writer joins the end of what stands queued and waiting (R157). -/
theorem State.placeWrite_queued (s : State) (t : Txn) :
    (s.placeWrite t).path.internal ++ (s.placeWrite t).writer.waiting =
      s.path.internal ++ s.writer.waiting ++ [t] := by
  unfold State.placeWrite
  split
  · rename_i h
    have hw : s.writer.waiting = [] := List.length_eq_zero_iff.mp h.2
    show (s.path.internal ++ [t]) ++ s.writer.waiting = _
    rw [hw]; simp
  · simp

/-- Writes of the Record Writer join the end in the order it issues them (R157). -/
theorem State.placeWrites_queued (ts : List Txn) : ∀ s : State,
    (s.placeWrites ts).path.internal ++ (s.placeWrites ts).writer.waiting =
      s.path.internal ++ s.writer.waiting ++ ts := by
  induction ts with
  | nil => intro s; simp [State.placeWrites]
  | cons t ts ih =>
    intro s
    have h := ih (s.placeWrite t)
    rw [State.placeWrite_queued] at h
    simpa [State.placeWrites] using h

/-- A read of the Command Unit joins the end of what stands queued and waiting (R157). -/
theorem State.placeRead_queued (s : State) (t : Txn) :
    (s.placeRead t).path.internal ++ (s.placeRead t).cmd.waiting = s.path.internal ++ s.cmd.waiting ++ [t] := by
  unfold State.placeRead
  split
  · rename_i h
    have hw : s.cmd.waiting = [] := List.length_eq_zero_iff.mp h.2
    show (s.path.internal ++ [t]) ++ s.cmd.waiting = _
    rw [hw]; simp
  · simp

/-- Reads of the Command Unit join the end in the order it issues them (R157). -/
theorem State.placeReads_queued (ts : List Txn) : ∀ s : State,
    (s.placeReads ts).path.internal ++ (s.placeReads ts).cmd.waiting = s.path.internal ++ s.cmd.waiting ++ ts := by
  induction ts with
  | nil => intro s; simp [State.placeReads]
  | cons t ts ih =>
    intro s
    have h := ih (s.placeRead t)
    rw [State.placeRead_queued] at h
    simpa [State.placeReads] using h

/-- A transaction that is no rewrite announces nothing (R156). -/
theorem State.placeWrite_wires (s : State) (t : Txn) (h : ∀ i p, t.tag ≠ .rewrite i p) :
    (s.placeWrite t).wires = s.wires := by
  unfold State.placeWrite State.takeIn
  split
  · cases ht : t.tag <;> first | rfl | exact absurd ht (h _ _)
  · rfl

theorem State.placeWrites_wires (ts : List Txn) : ∀ s : State, (∀ t ∈ ts, ∀ i p, t.tag ≠ .rewrite i p) →
    (s.placeWrites ts).wires = s.wires := by
  induction ts with
  | nil => exact fun _ _ => rfl
  | cons t ts ih =>
    intro s h
    exact (ih _ fun u hu => h u (List.mem_cons_of_mem _ hu)).trans (s.placeWrite_wires t (h t (List.mem_cons_self)))

end Sys2Proof.Machine
end

