-- ==== Sys2Proof/Laws/Frames.lean ====
section
/-! SUPPORT. The frames of the operations that carry a command's effect: the parts of the state each leaves as they were.
A later proof cites them in place of the operation's definition. -/

namespace Sys2Proof.Machine

/-- What each step of a fold keeps, the fold keeps. -/
theorem foldl_keeps {β γ : Type} (g : State → β → State) (f : State → γ) (h : ∀ s x, f (g s x) = f s) :
    ∀ (xs : List β) (s : State), f (xs.foldl g s) = f s := by
  intro xs
  induction xs with
  | nil => exact fun _ => rfl
  | cons x xs ih => exact fun s => (ih (g s x)).trans (h s x)

/-- What the answers of a settling leave of the Path Unit. -/
theorem Path.answers_frame (es : List PassEntry) (p : Path) :
    let r := es.foldl (fun p e => p.answer e.id (decide (e.mark = .localZeros)) e.zeroData) p
    r.anchorBase = p.anchorBase ∧ r.runState = p.runState ∧ r.map = p.map ∧ r.queue = p.queue ∧ r.heldOff = p.heldOff ∧
      r.internal = p.internal ∧ r.nextId = p.nextId ∧ r.rewrites = p.rewrites := by
  induction es generalizing p with
  | nil => simp
  | cons e es ih => exact ih _

/-- What a settling leaves of the Path Unit. -/
@[simp] theorem Path.settle_frame (p : Path) :
    p.settle.anchorBase = p.anchorBase ∧ p.settle.runState = p.runState ∧ p.settle.map = p.map ∧
      p.settle.heldOff = p.heldOff ∧ p.settle.internal = p.internal ∧ p.settle.nextId = p.nextId ∧
      p.settle.rewrites = p.rewrites := by
  have h := Path.answers_frame (localLeavers [] p.queue).1 { p with queue := (localLeavers [] p.queue).2 }
  simp only at h
  simp only [Path.settle, Path.respond]
  exact ⟨h.1, h.2.1, h.2.2.1, h.2.2.2.2.1, h.2.2.2.2.2.1, h.2.2.2.2.2.2.1, h.2.2.2.2.2.2.2⟩

/-- The queue after a settling: the entries that stay. -/
@[simp] theorem Path.settle_queue (p : Path) : p.settle.queue = (localLeavers [] p.queue).2 :=
  (Path.answers_frame (localLeavers [] p.queue).1 { p with queue := (localLeavers [] p.queue).2 }).2.2.2.1

/-- What a placing in the pass-through queue leaves of the Path Unit. -/
@[simp] theorem Path.enqueue_frame (p : Path) (k : ReqKind) (q : Request) (m : Mark) :
    (p.enqueue k q m).anchorBase = p.anchorBase ∧ (p.enqueue k q m).runState = p.runState ∧
      (p.enqueue k q m).map = p.map ∧ (p.enqueue k q m).heldOff = p.heldOff ∧ (p.enqueue k q m).internal = p.internal ∧
      (p.enqueue k q m).rewrites = p.rewrites := ⟨rfl, rfl, rfl, rfl, rfl, rfl⟩

/-- What an answer leaves of the Path Unit. -/
@[simp] theorem Path.answer_frame (p : Path) (i : Nat) (d : Bool) (b : List Byte) :
    (p.answer i d b).anchorBase = p.anchorBase ∧ (p.answer i d b).runState = p.runState ∧
      (p.answer i d b).map = p.map ∧ (p.answer i d b).heldOff = p.heldOff ∧ (p.answer i d b).internal = p.internal ∧
      (p.answer i d b).rewrites = p.rewrites ∧ (p.answer i d b).queue = p.queue ∧ (p.answer i d b).nextId = p.nextId :=
  ⟨rfl, rfl, rfl, rfl, rfl, rfl, rfl, rfl⟩

/-- What a return of responses leaves of the Path Unit. -/
@[simp] theorem Path.respond_frame (p : Path) :
    p.respond.anchorBase = p.anchorBase ∧ p.respond.runState = p.runState ∧ p.respond.map = p.map ∧
      p.respond.heldOff = p.heldOff ∧ p.respond.internal = p.internal ∧ p.respond.rewrites = p.rewrites ∧
      p.respond.queue = p.queue ∧ p.respond.nextId = p.nextId := ⟨rfl, rfl, rfl, rfl, rfl, rfl, rfl, rfl⟩

/-- What a new hold leaves of the Path Unit. -/
@[simp] theorem Path.hold_frame (p : Path) :
    p.hold.anchorBase = p.anchorBase ∧ p.hold.runState = p.runState ∧ p.hold.map = p.map ∧ p.hold.heldOff = p.heldOff ∧
      p.hold.internal = p.internal ∧ p.hold.rewrites = p.rewrites ∧ p.hold.nextId = p.nextId :=
  ⟨rfl, rfl, rfl, rfl, rfl, rfl, rfl⟩

/-- What the end of a hold leaves of the Path Unit. -/
@[simp] theorem Path.unhold_frame (p : Path) :
    p.unhold.anchorBase = p.anchorBase ∧ p.unhold.runState = p.runState ∧ p.unhold.map = p.map ∧
      p.unhold.heldOff = p.heldOff ∧ p.unhold.internal = p.internal ∧ p.unhold.rewrites = p.rewrites ∧
      p.unhold.nextId = p.nextId := ⟨rfl, rfl, rfl, rfl, rfl, rfl, rfl⟩

/-- What a new mark leaves of the Path Unit. -/
@[simp] theorem Path.remark_frame (p : Path) (i : Nat) (m : Mark) :
    (p.remark i m).anchorBase = p.anchorBase ∧ (p.remark i m).runState = p.runState ∧ (p.remark i m).map = p.map ∧
      (p.remark i m).heldOff = p.heldOff ∧ (p.remark i m).internal = p.internal ∧ (p.remark i m).rewrites = p.rewrites ∧
      (p.remark i m).nextId = p.nextId := ⟨rfl, rfl, rfl, rfl, rfl, rfl, rfl⟩

/-- What the opening of a tally leaves of the Shift Unit. -/
@[simp] theorem Shift.openTally_frame (t : Shift) (o : OpeningSlot) :
    (t.openTally o).calendar = t.calendar ∧ (t.openTally o).sub = t.sub ∧ (t.openTally o).trim = t.trim ∧
      (t.openTally o).valid = t.valid ∧ (t.openTally o).table = t.table ∧ (t.openTally o).number = t.number ∧
      (t.openTally o).run = t.run ∧ (t.openTally o).runState = t.runState ∧ (t.openTally o).hold = t.hold :=
  ⟨rfl, rfl, rfl, rfl, rfl, rfl, rfl, rfl, rfl⟩

/-- What a CLOCK copy leaves of the Shift Unit. -/
@[simp] theorem Shift.takeClock_frame (t : Shift) (g : ClockGroup) :
    (t.takeClock g).calendar = t.calendar ∧ (t.takeClock g).sub = t.sub ∧ (t.takeClock g).valid = t.valid ∧
      (t.takeClock g).number = t.number ∧ (t.takeClock g).run = t.run ∧ (t.takeClock g).runState = t.runState ∧
      (t.takeClock g).tally = t.tally ∧ (t.takeClock g).hold = t.hold := ⟨rfl, rfl, rfl, rfl, rfl, rfl, rfl, rfl⟩

/-- What a new run number leaves of the Shift Unit. -/
@[simp] theorem Shift.newRun_frame (t : Shift) :
    t.newRun.calendar = t.calendar ∧ t.newRun.sub = t.sub ∧ t.newRun.trim = t.trim ∧ t.newRun.valid = t.valid ∧
      t.newRun.table = t.table ∧ t.newRun.number = t.number ∧ t.newRun.runState = t.runState ∧ t.newRun.hold = t.hold :=
  ⟨rfl, rfl, rfl, rfl, rfl, rfl, rfl, rfl⟩

/-- What an increment leaves of the Shift Unit. -/
@[simp] theorem State.tallyAdd_shift_frame (s : State) (f : TallyCounters → TallyCounters) :
    (s.tallyAdd f).shift.calendar = s.shift.calendar ∧ (s.tallyAdd f).shift.sub = s.shift.sub ∧
      (s.tallyAdd f).shift.trim = s.shift.trim ∧ (s.tallyAdd f).shift.valid = s.shift.valid ∧
      (s.tallyAdd f).shift.number = s.shift.number ∧ (s.tallyAdd f).shift.run = s.shift.run ∧
      (s.tallyAdd f).shift.runState = s.shift.runState ∧ (s.tallyAdd f).shift.hold = s.shift.hold :=
  ⟨rfl, rfl, rfl, rfl, rfl, rfl, rfl, rfl⟩

/-- What an offer of a report leaves of the Shift Unit. -/
@[simp] theorem State.offerShift_shift_frame (s : State) (r : ShiftReport) :
    (s.offerShift r).shift.calendar = s.shift.calendar ∧ (s.offerShift r).shift.sub = s.shift.sub ∧
      (s.offerShift r).shift.trim = s.shift.trim ∧ (s.offerShift r).shift.valid = s.shift.valid ∧
      (s.offerShift r).shift.number = s.shift.number ∧ (s.offerShift r).shift.run = s.shift.run ∧
      (s.offerShift r).shift.runState = s.shift.runState ∧ (s.offerShift r).shift.tally = s.shift.tally :=
  ⟨rfl, rfl, rfl, rfl, rfl, rfl, rfl, rfl⟩

/-- What a change of one log leaves of the Record Writer. -/
@[simp] theorem State.setLog_writer_frame (s : State) (l : LogId) (g : LogState) :
    (s.setLog l g).writer.calendar = s.writer.calendar ∧ (s.setLog l g).writer.clockValid = s.writer.clockValid ∧
      (s.setLog l g).writer.attn = s.writer.attn ∧ (s.setLog l g).writer.lastCompletion = s.writer.lastCompletion :=
  ⟨rfl, rfl, rfl, rfl⟩

/-- What a refused mark leaves of the Record Writer. -/
@[simp] theorem State.setRefused_writer_frame (s : State) (l : LogId) (b : Bool) :
    (s.setRefused l b).writer.calendar = s.writer.calendar ∧ (s.setRefused l b).writer.clockValid = s.writer.clockValid ∧
      (s.setRefused l b).writer.attn = s.writer.attn ∧ (s.setRefused l b).writer.lastCompletion = s.writer.lastCompletion :=
  ⟨rfl, rfl, rfl, rfl⟩

/-- What an evaluation of ATTN leaves of the Record Writer. -/
@[simp] theorem State.evalAttn_writer_frame (s : State) :
    s.evalAttn.writer.calendar = s.writer.calendar ∧ s.evalAttn.writer.clockValid = s.writer.clockValid ∧
      s.evalAttn.writer.logs = s.writer.logs ∧ s.evalAttn.writer.lastCompletion = s.writer.lastCompletion :=
  ⟨rfl, rfl, rfl, rfl⟩

/-- What a removal from the collapse set leaves of the Record Writer. -/
theorem Writer.dropReleased_frame (w : Writer) (k : SourceId) :
    (w.dropReleased k).calendar = w.calendar ∧ (w.dropReleased k).clockValid = w.clockValid ∧
      (w.dropReleased k).logs = w.logs ∧ (w.dropReleased k).attn = w.attn ∧
      (w.dropReleased k).lastCompletion = w.lastCompletion := by
  unfold Writer.dropReleased
  split
  · simp
  · dsimp only; split <;> simp

/-- What the removals of a release leave of the Record Writer. -/
@[simp] theorem Writer.dropAll_frame (ks : List SourceId) (w : Writer) :
    (ks.foldl Writer.dropReleased w).calendar = w.calendar ∧ (ks.foldl Writer.dropReleased w).clockValid = w.clockValid ∧
      (ks.foldl Writer.dropReleased w).logs = w.logs ∧ (ks.foldl Writer.dropReleased w).attn = w.attn ∧
      (ks.foldl Writer.dropReleased w).lastCompletion = w.lastCompletion := by
  induction ks generalizing w with
  | nil => simp
  | cons k ks ih =>
    obtain ⟨h1, h2, h3, h4, h5⟩ := ih (w.dropReleased k)
    obtain ⟨g1, g2, g3, g4, g5⟩ := w.dropReleased_frame k
    exact ⟨h1.trans g1, h2.trans g2, h3.trans g3, h4.trans g4, h5.trans g5⟩

/-- What a refusal leaves of the Path Unit. -/
@[simp] theorem State.refuse_path_frame (s : State) (f : FaultKind) (k : ReqKind) (q : Request) :
    (s.refuse f k q).path.anchorBase = s.path.anchorBase ∧ (s.refuse f k q).path.runState = s.path.runState ∧
      (s.refuse f k q).path.map = s.path.map ∧ (s.refuse f k q).path.heldOff = s.path.heldOff ∧
      (s.refuse f k q).path.internal = s.path.internal ∧ (s.refuse f k q).path.rewrites = s.path.rewrites ∧
      (s.refuse f k q).path.queue = s.path.queue ∧ (s.refuse f k q).path.nextId = s.path.nextId :=
  ⟨rfl, rfl, rfl, rfl, rfl, rfl, rfl, rfl⟩

/-- What State.placeWrite leaves as it was. -/
@[simp] theorem State.placeWrite_frame (s : State) (t : Txn) :
    (s.placeWrite t).pending = s.pending ∧
    (s.placeWrite t).epoch = s.epoch ∧
    (s.placeWrite t).inReset = s.inReset ∧
    (s.placeWrite t).travel = s.travel ∧
    (s.placeWrite t).lanes = s.lanes ∧
    (s.placeWrite t).engine = s.engine ∧
    (s.placeWrite t).asm = s.asm ∧
    (s.placeWrite t).planner = s.planner ∧
    (s.placeWrite t).strike = s.strike ∧
    (s.placeWrite t).grading = s.grading ∧
    (s.placeWrite t).shift = s.shift ∧
    (s.placeWrite t).mem = s.mem ∧
    (s.placeWrite t).path.anchorBase = s.path.anchorBase ∧
    (s.placeWrite t).path.runState = s.path.runState ∧
    (s.placeWrite t).path.map = s.path.map ∧
    (s.placeWrite t).path.queue = s.path.queue ∧
    (s.placeWrite t).path.heldOff = s.path.heldOff ∧
    (s.placeWrite t).path.nextId = s.path.nextId ∧
    (s.placeWrite t).cmd.runState = s.cmd.runState ∧
    (s.placeWrite t).cmd.lastReason = s.cmd.lastReason ∧
    (s.placeWrite t).cmd.shadow = s.cmd.shadow ∧
    (s.placeWrite t).cmd.post = s.cmd.post ∧
    (s.placeWrite t).cmd.seen = s.cmd.seen ∧
    (s.placeWrite t).cmd.taken = s.cmd.taken ∧
    (s.placeWrite t).cmd.completion = s.cmd.completion ∧
    (s.placeWrite t).cmd.execution = s.cmd.execution ∧
    (s.placeWrite t).cmd.run = s.cmd.run ∧
    (s.placeWrite t).writer.logs = s.writer.logs ∧
    (s.placeWrite t).writer.calendar = s.writer.calendar ∧
    (s.placeWrite t).writer.clockValid = s.writer.clockValid ∧
    (s.placeWrite t).writer.attn = s.writer.attn := by
  obtain ⟨q, w, c, a, n, h⟩ := s.placeWrite_requeued t
  rw [h]
  exact ⟨rfl, rfl, rfl, rfl, rfl, rfl, rfl, rfl, rfl, rfl, rfl, rfl, rfl, rfl, rfl, rfl, rfl, rfl, rfl, rfl, rfl, rfl, rfl, rfl, rfl, rfl, rfl, rfl, rfl, rfl, rfl⟩

/-- What State.placeRead leaves as it was. -/
@[simp] theorem State.placeRead_frame (s : State) (t : Txn) :
    (s.placeRead t).pending = s.pending ∧
    (s.placeRead t).epoch = s.epoch ∧
    (s.placeRead t).inReset = s.inReset ∧
    (s.placeRead t).travel = s.travel ∧
    (s.placeRead t).lanes = s.lanes ∧
    (s.placeRead t).engine = s.engine ∧
    (s.placeRead t).asm = s.asm ∧
    (s.placeRead t).planner = s.planner ∧
    (s.placeRead t).strike = s.strike ∧
    (s.placeRead t).grading = s.grading ∧
    (s.placeRead t).shift = s.shift ∧
    (s.placeRead t).mem = s.mem ∧
    (s.placeRead t).path.anchorBase = s.path.anchorBase ∧
    (s.placeRead t).path.runState = s.path.runState ∧
    (s.placeRead t).path.map = s.path.map ∧
    (s.placeRead t).path.queue = s.path.queue ∧
    (s.placeRead t).path.heldOff = s.path.heldOff ∧
    (s.placeRead t).path.nextId = s.path.nextId ∧
    (s.placeRead t).cmd.runState = s.cmd.runState ∧
    (s.placeRead t).cmd.lastReason = s.cmd.lastReason ∧
    (s.placeRead t).cmd.shadow = s.cmd.shadow ∧
    (s.placeRead t).cmd.post = s.cmd.post ∧
    (s.placeRead t).cmd.seen = s.cmd.seen ∧
    (s.placeRead t).cmd.taken = s.cmd.taken ∧
    (s.placeRead t).cmd.completion = s.cmd.completion ∧
    (s.placeRead t).cmd.execution = s.cmd.execution ∧
    (s.placeRead t).cmd.run = s.cmd.run ∧
    (s.placeRead t).writer.logs = s.writer.logs ∧
    (s.placeRead t).writer.calendar = s.writer.calendar ∧
    (s.placeRead t).writer.clockValid = s.writer.clockValid ∧
    (s.placeRead t).writer.attn = s.writer.attn := by
  obtain ⟨q, w, c, a, n, h⟩ := s.placeRead_requeued t
  rw [h]
  exact ⟨rfl, rfl, rfl, rfl, rfl, rfl, rfl, rfl, rfl, rfl, rfl, rfl, rfl, rfl, rfl, rfl, rfl, rfl, rfl, rfl, rfl, rfl, rfl, rfl, rfl, rfl, rfl, rfl, rfl, rfl, rfl⟩

/-- What State.placeWrites leaves as it was. -/
@[simp] theorem State.placeWrites_frame (s : State) (ts : List Txn) :
    (s.placeWrites ts).pending = s.pending ∧
    (s.placeWrites ts).epoch = s.epoch ∧
    (s.placeWrites ts).inReset = s.inReset ∧
    (s.placeWrites ts).travel = s.travel ∧
    (s.placeWrites ts).lanes = s.lanes ∧
    (s.placeWrites ts).engine = s.engine ∧
    (s.placeWrites ts).asm = s.asm ∧
    (s.placeWrites ts).planner = s.planner ∧
    (s.placeWrites ts).strike = s.strike ∧
    (s.placeWrites ts).grading = s.grading ∧
    (s.placeWrites ts).shift = s.shift ∧
    (s.placeWrites ts).mem = s.mem ∧
    (s.placeWrites ts).path.anchorBase = s.path.anchorBase ∧
    (s.placeWrites ts).path.runState = s.path.runState ∧
    (s.placeWrites ts).path.map = s.path.map ∧
    (s.placeWrites ts).path.queue = s.path.queue ∧
    (s.placeWrites ts).path.heldOff = s.path.heldOff ∧
    (s.placeWrites ts).path.nextId = s.path.nextId ∧
    (s.placeWrites ts).cmd.runState = s.cmd.runState ∧
    (s.placeWrites ts).cmd.lastReason = s.cmd.lastReason ∧
    (s.placeWrites ts).cmd.shadow = s.cmd.shadow ∧
    (s.placeWrites ts).cmd.post = s.cmd.post ∧
    (s.placeWrites ts).cmd.seen = s.cmd.seen ∧
    (s.placeWrites ts).cmd.taken = s.cmd.taken ∧
    (s.placeWrites ts).cmd.completion = s.cmd.completion ∧
    (s.placeWrites ts).cmd.execution = s.cmd.execution ∧
    (s.placeWrites ts).cmd.run = s.cmd.run ∧
    (s.placeWrites ts).writer.logs = s.writer.logs ∧
    (s.placeWrites ts).writer.calendar = s.writer.calendar ∧
    (s.placeWrites ts).writer.clockValid = s.writer.clockValid ∧
    (s.placeWrites ts).writer.attn = s.writer.attn := by
  obtain ⟨q, w, c, a, n, h⟩ := State.placeWrites_requeued ts s
  rw [h]
  exact ⟨rfl, rfl, rfl, rfl, rfl, rfl, rfl, rfl, rfl, rfl, rfl, rfl, rfl, rfl, rfl, rfl, rfl, rfl, rfl, rfl, rfl, rfl, rfl, rfl, rfl, rfl, rfl, rfl, rfl, rfl, rfl⟩

/-- What State.placeReads leaves as it was. -/
@[simp] theorem State.placeReads_frame (s : State) (ts : List Txn) :
    (s.placeReads ts).pending = s.pending ∧
    (s.placeReads ts).epoch = s.epoch ∧
    (s.placeReads ts).inReset = s.inReset ∧
    (s.placeReads ts).travel = s.travel ∧
    (s.placeReads ts).lanes = s.lanes ∧
    (s.placeReads ts).engine = s.engine ∧
    (s.placeReads ts).asm = s.asm ∧
    (s.placeReads ts).planner = s.planner ∧
    (s.placeReads ts).strike = s.strike ∧
    (s.placeReads ts).grading = s.grading ∧
    (s.placeReads ts).shift = s.shift ∧
    (s.placeReads ts).mem = s.mem ∧
    (s.placeReads ts).path.anchorBase = s.path.anchorBase ∧
    (s.placeReads ts).path.runState = s.path.runState ∧
    (s.placeReads ts).path.map = s.path.map ∧
    (s.placeReads ts).path.queue = s.path.queue ∧
    (s.placeReads ts).path.heldOff = s.path.heldOff ∧
    (s.placeReads ts).path.nextId = s.path.nextId ∧
    (s.placeReads ts).cmd.runState = s.cmd.runState ∧
    (s.placeReads ts).cmd.lastReason = s.cmd.lastReason ∧
    (s.placeReads ts).cmd.shadow = s.cmd.shadow ∧
    (s.placeReads ts).cmd.post = s.cmd.post ∧
    (s.placeReads ts).cmd.seen = s.cmd.seen ∧
    (s.placeReads ts).cmd.taken = s.cmd.taken ∧
    (s.placeReads ts).cmd.completion = s.cmd.completion ∧
    (s.placeReads ts).cmd.execution = s.cmd.execution ∧
    (s.placeReads ts).cmd.run = s.cmd.run ∧
    (s.placeReads ts).writer.logs = s.writer.logs ∧
    (s.placeReads ts).writer.calendar = s.writer.calendar ∧
    (s.placeReads ts).writer.clockValid = s.writer.clockValid ∧
    (s.placeReads ts).writer.attn = s.writer.attn := by
  obtain ⟨q, w, c, a, n, h⟩ := State.placeReads_requeued ts s
  rw [h]
  exact ⟨rfl, rfl, rfl, rfl, rfl, rfl, rfl, rfl, rfl, rfl, rfl, rfl, rfl, rfl, rfl, rfl, rfl, rfl, rfl, rfl, rfl, rfl, rfl, rfl, rfl, rfl, rfl, rfl, rfl, rfl, rfl⟩

/-- What State.writePageOf leaves as it was. -/
@[simp] theorem State.writePageOf_frame (shown : State → State) (s : State) :
    (s.writePageOf shown).pending = s.pending ∧
    (s.writePageOf shown).epoch = s.epoch ∧
    (s.writePageOf shown).inReset = s.inReset ∧
    (s.writePageOf shown).travel = s.travel ∧
    (s.writePageOf shown).lanes = s.lanes ∧
    (s.writePageOf shown).engine = s.engine ∧
    (s.writePageOf shown).asm = s.asm ∧
    (s.writePageOf shown).planner = s.planner ∧
    (s.writePageOf shown).strike = s.strike ∧
    (s.writePageOf shown).grading = s.grading ∧
    (s.writePageOf shown).shift = s.shift ∧
    (s.writePageOf shown).mem = s.mem ∧
    (s.writePageOf shown).path.anchorBase = s.path.anchorBase ∧
    (s.writePageOf shown).path.runState = s.path.runState ∧
    (s.writePageOf shown).path.map = s.path.map ∧
    (s.writePageOf shown).path.queue = s.path.queue ∧
    (s.writePageOf shown).path.heldOff = s.path.heldOff ∧
    (s.writePageOf shown).path.nextId = s.path.nextId ∧
    (s.writePageOf shown).cmd.runState = s.cmd.runState ∧
    (s.writePageOf shown).cmd.lastReason = s.cmd.lastReason ∧
    (s.writePageOf shown).cmd.shadow = s.cmd.shadow ∧
    (s.writePageOf shown).cmd.post = s.cmd.post ∧
    (s.writePageOf shown).cmd.seen = s.cmd.seen ∧
    (s.writePageOf shown).cmd.taken = s.cmd.taken ∧
    (s.writePageOf shown).cmd.completion = s.cmd.completion ∧
    (s.writePageOf shown).cmd.execution = s.cmd.execution ∧
    (s.writePageOf shown).cmd.run = s.cmd.run ∧
    (s.writePageOf shown).writer.logs = s.writer.logs ∧
    (s.writePageOf shown).writer.calendar = s.writer.calendar ∧
    (s.writePageOf shown).writer.clockValid = s.writer.clockValid ∧
    (s.writePageOf shown).writer.attn = s.writer.attn := by
  obtain ⟨q, w, c, a, n, h⟩ := s.writePageOf_requeued shown
  rw [h]
  exact ⟨rfl, rfl, rfl, rfl, rfl, rfl, rfl, rfl, rfl, rfl, rfl, rfl, rfl, rfl, rfl, rfl, rfl, rfl, rfl, rfl, rfl, rfl, rfl, rfl, rfl, rfl, rfl, rfl, rfl, rfl, rfl⟩

/-- What State.writePage leaves as it was. -/
@[simp] theorem State.writePage_frame (s : State) :
    (s.writePage).pending = s.pending ∧
    (s.writePage).epoch = s.epoch ∧
    (s.writePage).inReset = s.inReset ∧
    (s.writePage).travel = s.travel ∧
    (s.writePage).lanes = s.lanes ∧
    (s.writePage).engine = s.engine ∧
    (s.writePage).asm = s.asm ∧
    (s.writePage).planner = s.planner ∧
    (s.writePage).strike = s.strike ∧
    (s.writePage).grading = s.grading ∧
    (s.writePage).shift = s.shift ∧
    (s.writePage).mem = s.mem ∧
    (s.writePage).path.anchorBase = s.path.anchorBase ∧
    (s.writePage).path.runState = s.path.runState ∧
    (s.writePage).path.map = s.path.map ∧
    (s.writePage).path.queue = s.path.queue ∧
    (s.writePage).path.heldOff = s.path.heldOff ∧
    (s.writePage).path.nextId = s.path.nextId ∧
    (s.writePage).cmd.runState = s.cmd.runState ∧
    (s.writePage).cmd.lastReason = s.cmd.lastReason ∧
    (s.writePage).cmd.shadow = s.cmd.shadow ∧
    (s.writePage).cmd.post = s.cmd.post ∧
    (s.writePage).cmd.seen = s.cmd.seen ∧
    (s.writePage).cmd.taken = s.cmd.taken ∧
    (s.writePage).cmd.completion = s.cmd.completion ∧
    (s.writePage).cmd.execution = s.cmd.execution ∧
    (s.writePage).cmd.run = s.cmd.run ∧
    (s.writePage).writer.logs = s.writer.logs ∧
    (s.writePage).writer.calendar = s.writer.calendar ∧
    (s.writePage).writer.clockValid = s.writer.clockValid ∧
    (s.writePage).writer.attn = s.writer.attn := by
  unfold State.writePage
  exact State.writePageOf_frame id s

/-- What State.writePages leaves as it was. -/
@[simp] theorem State.writePages_frame (n : Nat) (s : State) :
    (State.writePages n s).pending = s.pending ∧
    (State.writePages n s).epoch = s.epoch ∧
    (State.writePages n s).inReset = s.inReset ∧
    (State.writePages n s).travel = s.travel ∧
    (State.writePages n s).lanes = s.lanes ∧
    (State.writePages n s).engine = s.engine ∧
    (State.writePages n s).asm = s.asm ∧
    (State.writePages n s).planner = s.planner ∧
    (State.writePages n s).strike = s.strike ∧
    (State.writePages n s).grading = s.grading ∧
    (State.writePages n s).shift = s.shift ∧
    (State.writePages n s).mem = s.mem ∧
    (State.writePages n s).path.anchorBase = s.path.anchorBase ∧
    (State.writePages n s).path.runState = s.path.runState ∧
    (State.writePages n s).path.map = s.path.map ∧
    (State.writePages n s).path.queue = s.path.queue ∧
    (State.writePages n s).path.heldOff = s.path.heldOff ∧
    (State.writePages n s).path.nextId = s.path.nextId ∧
    (State.writePages n s).cmd.runState = s.cmd.runState ∧
    (State.writePages n s).cmd.lastReason = s.cmd.lastReason ∧
    (State.writePages n s).cmd.shadow = s.cmd.shadow ∧
    (State.writePages n s).cmd.post = s.cmd.post ∧
    (State.writePages n s).cmd.seen = s.cmd.seen ∧
    (State.writePages n s).cmd.taken = s.cmd.taken ∧
    (State.writePages n s).cmd.completion = s.cmd.completion ∧
    (State.writePages n s).cmd.execution = s.cmd.execution ∧
    (State.writePages n s).cmd.run = s.cmd.run ∧
    (State.writePages n s).writer.logs = s.writer.logs ∧
    (State.writePages n s).writer.calendar = s.writer.calendar ∧
    (State.writePages n s).writer.clockValid = s.writer.clockValid ∧
    (State.writePages n s).writer.attn = s.writer.attn := by
  obtain ⟨q, w, c, a, n, h⟩ := State.writePages_requeued n s
  rw [h]
  exact ⟨rfl, rfl, rfl, rfl, rfl, rfl, rfl, rfl, rfl, rfl, rfl, rfl, rfl, rfl, rfl, rfl, rfl, rfl, rfl, rfl, rfl, rfl, rfl, rfl, rfl, rfl, rfl, rfl, rfl, rfl, rfl⟩

/-- What State.refill leaves as it was. -/
@[simp] theorem State.refill_frame (s : State) :
    (s.refill).pending = s.pending ∧
    (s.refill).epoch = s.epoch ∧
    (s.refill).inReset = s.inReset ∧
    (s.refill).travel = s.travel ∧
    (s.refill).lanes = s.lanes ∧
    (s.refill).engine = s.engine ∧
    (s.refill).asm = s.asm ∧
    (s.refill).planner = s.planner ∧
    (s.refill).strike = s.strike ∧
    (s.refill).grading = s.grading ∧
    (s.refill).shift = s.shift ∧
    (s.refill).mem = s.mem ∧
    (s.refill).path.anchorBase = s.path.anchorBase ∧
    (s.refill).path.runState = s.path.runState ∧
    (s.refill).path.map = s.path.map ∧
    (s.refill).path.queue = s.path.queue ∧
    (s.refill).path.heldOff = s.path.heldOff ∧
    (s.refill).path.nextId = s.path.nextId ∧
    (s.refill).cmd.runState = s.cmd.runState ∧
    (s.refill).cmd.lastReason = s.cmd.lastReason ∧
    (s.refill).cmd.shadow = s.cmd.shadow ∧
    (s.refill).cmd.post = s.cmd.post ∧
    (s.refill).cmd.seen = s.cmd.seen ∧
    (s.refill).cmd.taken = s.cmd.taken ∧
    (s.refill).cmd.completion = s.cmd.completion ∧
    (s.refill).cmd.execution = s.cmd.execution ∧
    (s.refill).cmd.run = s.cmd.run ∧
    (s.refill).writer.logs = s.writer.logs ∧
    (s.refill).writer.calendar = s.writer.calendar ∧
    (s.refill).writer.clockValid = s.writer.clockValid ∧
    (s.refill).writer.attn = s.writer.attn := by
  obtain ⟨q, w, c, a, n, h⟩ := s.refill_requeued
  rw [h]
  exact ⟨rfl, rfl, rfl, rfl, rfl, rfl, rfl, rfl, rfl, rfl, rfl, rfl, rfl, rfl, rfl, rfl, rfl, rfl, rfl, rfl, rfl, rfl, rfl, rfl, rfl, rfl, rfl, rfl, rfl, rfl, rfl⟩

/-- What State.placeEntry leaves as it was. -/
@[simp] theorem State.placeEntry_frame (s : State) (l : LogId) (b : List Byte) :
    (s.placeEntry l b).pending = s.pending ∧
    (s.placeEntry l b).epoch = s.epoch ∧
    (s.placeEntry l b).inReset = s.inReset ∧
    (s.placeEntry l b).travel = s.travel ∧
    (s.placeEntry l b).lanes = s.lanes ∧
    (s.placeEntry l b).engine = s.engine ∧
    (s.placeEntry l b).asm = s.asm ∧
    (s.placeEntry l b).planner = s.planner ∧
    (s.placeEntry l b).strike = s.strike ∧
    (s.placeEntry l b).grading = s.grading ∧
    (s.placeEntry l b).shift = s.shift ∧
    (s.placeEntry l b).mem = s.mem ∧
    (s.placeEntry l b).path.anchorBase = s.path.anchorBase ∧
    (s.placeEntry l b).path.runState = s.path.runState ∧
    (s.placeEntry l b).path.map = s.path.map ∧
    (s.placeEntry l b).path.queue = s.path.queue ∧
    (s.placeEntry l b).path.heldOff = s.path.heldOff ∧
    (s.placeEntry l b).path.nextId = s.path.nextId ∧
    (s.placeEntry l b).cmd.runState = s.cmd.runState ∧
    (s.placeEntry l b).cmd.lastReason = s.cmd.lastReason ∧
    (s.placeEntry l b).cmd.shadow = s.cmd.shadow ∧
    (s.placeEntry l b).cmd.post = s.cmd.post ∧
    (s.placeEntry l b).cmd.seen = s.cmd.seen ∧
    (s.placeEntry l b).cmd.taken = s.cmd.taken ∧
    (s.placeEntry l b).cmd.completion = s.cmd.completion ∧
    (s.placeEntry l b).cmd.execution = s.cmd.execution ∧
    (s.placeEntry l b).cmd.run = s.cmd.run ∧
    (s.placeEntry l b).writer.calendar = s.writer.calendar ∧
    (s.placeEntry l b).writer.clockValid = s.writer.clockValid ∧
    (s.placeEntry l b).writer.attn = s.writer.attn := by
  unfold State.placeEntry
  try dsimp only
  (repeat' split) <;> simp [State.setLog]

/-- What State.finishLane leaves as it was. -/
@[simp] theorem State.finishLane_frame (s : State) (k : LaneId) (r : LaneStep) (x : Option (Nat × Option GapCause)) :
    (s.finishLane k r x).pending = s.pending ∧
    (s.finishLane k r x).epoch = s.epoch ∧
    (s.finishLane k r x).inReset = s.inReset ∧
    (s.finishLane k r x).travel = s.travel ∧
    (s.finishLane k r x).asm = s.asm ∧
    (s.finishLane k r x).planner = s.planner ∧
    (s.finishLane k r x).strike = s.strike ∧
    (s.finishLane k r x).grading = s.grading ∧
    (s.finishLane k r x).shift = s.shift ∧
    (s.finishLane k r x).mem = s.mem ∧
    (s.finishLane k r x).path.anchorBase = s.path.anchorBase ∧
    (s.finishLane k r x).path.runState = s.path.runState ∧
    (s.finishLane k r x).path.map = s.path.map ∧
    (s.finishLane k r x).path.queue = s.path.queue ∧
    (s.finishLane k r x).path.heldOff = s.path.heldOff ∧
    (s.finishLane k r x).path.nextId = s.path.nextId ∧
    (s.finishLane k r x).cmd.runState = s.cmd.runState ∧
    (s.finishLane k r x).cmd.lastReason = s.cmd.lastReason ∧
    (s.finishLane k r x).cmd.shadow = s.cmd.shadow ∧
    (s.finishLane k r x).cmd.post = s.cmd.post ∧
    (s.finishLane k r x).cmd.seen = s.cmd.seen ∧
    (s.finishLane k r x).cmd.taken = s.cmd.taken ∧
    (s.finishLane k r x).cmd.completion = s.cmd.completion ∧
    (s.finishLane k r x).cmd.execution = s.cmd.execution ∧
    (s.finishLane k r x).cmd.run = s.cmd.run ∧
    (s.finishLane k r x).writer.logs = s.writer.logs ∧
    (s.finishLane k r x).writer.calendar = s.writer.calendar ∧
    (s.finishLane k r x).writer.clockValid = s.writer.clockValid ∧
    (s.finishLane k r x).writer.attn = s.writer.attn := by
  unfold State.finishLane
  try dsimp only
  (repeat' split) <;> simp []

/-- What takeLanding leaves as it was. -/
@[simp] theorem takeLanding_frame (k : LaneId) (w : LandingCopy) (s : State) :
    (takeLanding k w s).pending = s.pending ∧
    (takeLanding k w s).epoch = s.epoch ∧
    (takeLanding k w s).inReset = s.inReset ∧
    (takeLanding k w s).travel = s.travel ∧
    (takeLanding k w s).asm = s.asm ∧
    (takeLanding k w s).planner = s.planner ∧
    (takeLanding k w s).strike = s.strike ∧
    (takeLanding k w s).grading = s.grading ∧
    (takeLanding k w s).shift = s.shift ∧
    (takeLanding k w s).mem = s.mem ∧
    (takeLanding k w s).path.anchorBase = s.path.anchorBase ∧
    (takeLanding k w s).path.runState = s.path.runState ∧
    (takeLanding k w s).path.map = s.path.map ∧
    (takeLanding k w s).path.queue = s.path.queue ∧
    (takeLanding k w s).path.heldOff = s.path.heldOff ∧
    (takeLanding k w s).path.nextId = s.path.nextId ∧
    (takeLanding k w s).cmd.runState = s.cmd.runState ∧
    (takeLanding k w s).cmd.lastReason = s.cmd.lastReason ∧
    (takeLanding k w s).cmd.shadow = s.cmd.shadow ∧
    (takeLanding k w s).cmd.post = s.cmd.post ∧
    (takeLanding k w s).cmd.seen = s.cmd.seen ∧
    (takeLanding k w s).cmd.taken = s.cmd.taken ∧
    (takeLanding k w s).cmd.completion = s.cmd.completion ∧
    (takeLanding k w s).cmd.execution = s.cmd.execution ∧
    (takeLanding k w s).cmd.run = s.cmd.run ∧
    (takeLanding k w s).writer.logs = s.writer.logs ∧
    (takeLanding k w s).writer.calendar = s.writer.calendar ∧
    (takeLanding k w s).writer.clockValid = s.writer.clockValid ∧
    (takeLanding k w s).writer.attn = s.writer.attn := by
  unfold takeLanding
  try dsimp only
  (repeat' split) <;> simp []

/-- What takeLineTrigger leaves as it was. -/
@[simp] theorem takeLineTrigger_frame (k : LaneId) (n : Nat) (s : State) :
    (takeLineTrigger k n s).pending = s.pending ∧
    (takeLineTrigger k n s).epoch = s.epoch ∧
    (takeLineTrigger k n s).inReset = s.inReset ∧
    (takeLineTrigger k n s).travel = s.travel ∧
    (takeLineTrigger k n s).asm = s.asm ∧
    (takeLineTrigger k n s).planner = s.planner ∧
    (takeLineTrigger k n s).strike = s.strike ∧
    (takeLineTrigger k n s).grading = s.grading ∧
    (takeLineTrigger k n s).shift = s.shift ∧
    (takeLineTrigger k n s).mem = s.mem ∧
    (takeLineTrigger k n s).path.anchorBase = s.path.anchorBase ∧
    (takeLineTrigger k n s).path.runState = s.path.runState ∧
    (takeLineTrigger k n s).path.map = s.path.map ∧
    (takeLineTrigger k n s).path.queue = s.path.queue ∧
    (takeLineTrigger k n s).path.heldOff = s.path.heldOff ∧
    (takeLineTrigger k n s).path.nextId = s.path.nextId ∧
    (takeLineTrigger k n s).cmd.runState = s.cmd.runState ∧
    (takeLineTrigger k n s).cmd.lastReason = s.cmd.lastReason ∧
    (takeLineTrigger k n s).cmd.shadow = s.cmd.shadow ∧
    (takeLineTrigger k n s).cmd.post = s.cmd.post ∧
    (takeLineTrigger k n s).cmd.seen = s.cmd.seen ∧
    (takeLineTrigger k n s).cmd.taken = s.cmd.taken ∧
    (takeLineTrigger k n s).cmd.completion = s.cmd.completion ∧
    (takeLineTrigger k n s).cmd.execution = s.cmd.execution ∧
    (takeLineTrigger k n s).cmd.run = s.cmd.run ∧
    (takeLineTrigger k n s).writer.logs = s.writer.logs ∧
    (takeLineTrigger k n s).writer.calendar = s.writer.calendar ∧
    (takeLineTrigger k n s).writer.clockValid = s.writer.clockValid ∧
    (takeLineTrigger k n s).writer.attn = s.writer.attn := by
  unfold takeLineTrigger
  try dsimp only
  (repeat' split) <;> simp []

/-- What completeAnalysis leaves as it was. -/
@[simp] theorem completeAnalysis_frame (a : Analysis) (c : Shadow) (s : State) :
    (completeAnalysis a c s).pending = s.pending ∧
    (completeAnalysis a c s).epoch = s.epoch ∧
    (completeAnalysis a c s).inReset = s.inReset ∧
    (completeAnalysis a c s).travel = s.travel ∧
    (completeAnalysis a c s).asm = s.asm ∧
    (completeAnalysis a c s).planner = s.planner ∧
    (completeAnalysis a c s).strike = s.strike ∧
    (completeAnalysis a c s).grading = s.grading ∧
    (completeAnalysis a c s).shift = s.shift ∧
    (completeAnalysis a c s).mem = s.mem ∧
    (completeAnalysis a c s).path.anchorBase = s.path.anchorBase ∧
    (completeAnalysis a c s).path.runState = s.path.runState ∧
    (completeAnalysis a c s).path.map = s.path.map ∧
    (completeAnalysis a c s).path.queue = s.path.queue ∧
    (completeAnalysis a c s).path.heldOff = s.path.heldOff ∧
    (completeAnalysis a c s).path.nextId = s.path.nextId ∧
    (completeAnalysis a c s).cmd.runState = s.cmd.runState ∧
    (completeAnalysis a c s).cmd.lastReason = s.cmd.lastReason ∧
    (completeAnalysis a c s).cmd.shadow = s.cmd.shadow ∧
    (completeAnalysis a c s).cmd.post = s.cmd.post ∧
    (completeAnalysis a c s).cmd.seen = s.cmd.seen ∧
    (completeAnalysis a c s).cmd.taken = s.cmd.taken ∧
    (completeAnalysis a c s).cmd.completion = s.cmd.completion ∧
    (completeAnalysis a c s).cmd.execution = s.cmd.execution ∧
    (completeAnalysis a c s).cmd.run = s.cmd.run ∧
    (completeAnalysis a c s).writer.logs = s.writer.logs ∧
    (completeAnalysis a c s).writer.calendar = s.writer.calendar ∧
    (completeAnalysis a c s).writer.clockValid = s.writer.clockValid ∧
    (completeAnalysis a c s).writer.attn = s.writer.attn := by
  unfold completeAnalysis
  try dsimp only
  (repeat' split) <;> simp []

/-- What analysisBegin leaves as it was. -/
@[simp] theorem analysisBegin_frame (s : State) :
    (analysisBegin s).pending = s.pending ∧
    (analysisBegin s).epoch = s.epoch ∧
    (analysisBegin s).inReset = s.inReset ∧
    (analysisBegin s).travel = s.travel ∧
    (analysisBegin s).lanes = s.lanes ∧
    (analysisBegin s).asm = s.asm ∧
    (analysisBegin s).planner = s.planner ∧
    (analysisBegin s).strike = s.strike ∧
    (analysisBegin s).grading = s.grading ∧
    (analysisBegin s).shift = s.shift ∧
    (analysisBegin s).mem = s.mem ∧
    (analysisBegin s).path = s.path ∧
    (analysisBegin s).cmd.runState = s.cmd.runState ∧
    (analysisBegin s).cmd.lastReason = s.cmd.lastReason ∧
    (analysisBegin s).cmd.shadow = s.cmd.shadow ∧
    (analysisBegin s).cmd.post = s.cmd.post ∧
    (analysisBegin s).cmd.seen = s.cmd.seen ∧
    (analysisBegin s).cmd.taken = s.cmd.taken ∧
    (analysisBegin s).cmd.completion = s.cmd.completion ∧
    (analysisBegin s).cmd.execution = s.cmd.execution ∧
    (analysisBegin s).cmd.run = s.cmd.run ∧
    (analysisBegin s).writer = s.writer ∧
    (analysisBegin s).wires = s.wires := by
  unfold analysisBegin
  try dsimp only
  (repeat' split) <;> simp [State.takeDetect]

/-- What joinNext leaves as it was. -/
@[simp] theorem joinNext_frame (s : State) :
    (joinNext s).pending = s.pending ∧
    (joinNext s).epoch = s.epoch ∧
    (joinNext s).inReset = s.inReset ∧
    (joinNext s).travel = s.travel ∧
    (joinNext s).lanes = s.lanes ∧
    (joinNext s).planner = s.planner ∧
    (joinNext s).strike = s.strike ∧
    (joinNext s).grading = s.grading ∧
    (joinNext s).shift = s.shift ∧
    (joinNext s).mem = s.mem ∧
    (joinNext s).path = s.path ∧
    (joinNext s).cmd.runState = s.cmd.runState ∧
    (joinNext s).cmd.lastReason = s.cmd.lastReason ∧
    (joinNext s).cmd.shadow = s.cmd.shadow ∧
    (joinNext s).cmd.post = s.cmd.post ∧
    (joinNext s).cmd.seen = s.cmd.seen ∧
    (joinNext s).cmd.taken = s.cmd.taken ∧
    (joinNext s).cmd.completion = s.cmd.completion ∧
    (joinNext s).cmd.execution = s.cmd.execution ∧
    (joinNext s).cmd.run = s.cmd.run ∧
    (joinNext s).writer = s.writer := by
  unfold joinNext
  try dsimp only
  (repeat' split) <;> simp [State.takeDetect]

/-- What flushBlobs leaves as it was. -/
@[simp] theorem flushBlobs_frame (s : State) :
    (flushBlobs s).pending = s.pending ∧
    (flushBlobs s).epoch = s.epoch ∧
    (flushBlobs s).inReset = s.inReset ∧
    (flushBlobs s).travel = s.travel ∧
    (flushBlobs s).lanes = s.lanes ∧
    (flushBlobs s).engine = s.engine ∧
    (flushBlobs s).planner = s.planner ∧
    (flushBlobs s).strike = s.strike ∧
    (flushBlobs s).grading = s.grading ∧
    (flushBlobs s).shift = s.shift ∧
    (flushBlobs s).mem = s.mem ∧
    (flushBlobs s).path = s.path ∧
    (flushBlobs s).cmd = s.cmd ∧
    (flushBlobs s).writer = s.writer := by
  unfold flushBlobs
  try dsimp only
  (repeat' split) <;> simp []

/-- What takeLaneMsg leaves as it was. -/
@[simp] theorem takeLaneMsg_frame (k : LaneId) (m : LaneMsg) (s : State) :
    (takeLaneMsg k m s).pending = s.pending ∧
    (takeLaneMsg k m s).epoch = s.epoch ∧
    (takeLaneMsg k m s).inReset = s.inReset ∧
    (takeLaneMsg k m s).travel = s.travel ∧
    (takeLaneMsg k m s).lanes = s.lanes ∧
    (takeLaneMsg k m s).engine = s.engine ∧
    (takeLaneMsg k m s).planner = s.planner ∧
    (takeLaneMsg k m s).strike = s.strike ∧
    (takeLaneMsg k m s).grading = s.grading ∧
    (takeLaneMsg k m s).shift = s.shift ∧
    (takeLaneMsg k m s).mem = s.mem ∧
    (takeLaneMsg k m s).path = s.path ∧
    (takeLaneMsg k m s).cmd = s.cmd ∧
    (takeLaneMsg k m s).writer = s.writer ∧
    (takeLaneMsg k m s).wires = s.wires := by
  unfold takeLaneMsg
  try dsimp only
  (repeat' split) <;> simp []

/-- What takePlanReq leaves as it was. -/
@[simp] theorem takePlanReq_frame (m : PlanReq) (s : State) :
    (takePlanReq m s).pending = s.pending ∧
    (takePlanReq m s).epoch = s.epoch ∧
    (takePlanReq m s).inReset = s.inReset ∧
    (takePlanReq m s).travel = s.travel ∧
    (takePlanReq m s).lanes = s.lanes ∧
    (takePlanReq m s).engine = s.engine ∧
    (takePlanReq m s).planner = s.planner ∧
    (takePlanReq m s).strike = s.strike ∧
    (takePlanReq m s).grading = s.grading ∧
    (takePlanReq m s).shift = s.shift ∧
    (takePlanReq m s).mem = s.mem ∧
    (takePlanReq m s).path = s.path ∧
    (takePlanReq m s).cmd = s.cmd ∧
    (takePlanReq m s).writer = s.writer := by
  unfold takePlanReq
  try dsimp only
  (repeat' split) <;> simp []

/-- What takeGather leaves as it was. -/
@[simp] theorem takeGather_frame (m : GatherReq) (s : State) :
    (takeGather m s).pending = s.pending ∧
    (takeGather m s).epoch = s.epoch ∧
    (takeGather m s).inReset = s.inReset ∧
    (takeGather m s).travel = s.travel ∧
    (takeGather m s).lanes = s.lanes ∧
    (takeGather m s).engine = s.engine ∧
    (takeGather m s).planner = s.planner ∧
    (takeGather m s).strike = s.strike ∧
    (takeGather m s).grading = s.grading ∧
    (takeGather m s).shift = s.shift ∧
    (takeGather m s).mem = s.mem ∧
    (takeGather m s).path = s.path ∧
    (takeGather m s).cmd = s.cmd ∧
    (takeGather m s).writer = s.writer := by
  unfold takeGather
  try dsimp only
  (repeat' split) <;> simp []

/-- What takeAsmMsg leaves as it was. -/
@[simp] theorem takeAsmMsg_frame (m : AsmMsg) (s : State) :
    (takeAsmMsg m s).pending = s.pending ∧
    (takeAsmMsg m s).epoch = s.epoch ∧
    (takeAsmMsg m s).inReset = s.inReset ∧
    (takeAsmMsg m s).travel = s.travel ∧
    (takeAsmMsg m s).lanes = s.lanes ∧
    (takeAsmMsg m s).engine = s.engine ∧
    (takeAsmMsg m s).asm = s.asm ∧
    (takeAsmMsg m s).strike = s.strike ∧
    (takeAsmMsg m s).grading = s.grading ∧
    (takeAsmMsg m s).shift = s.shift ∧
    (takeAsmMsg m s).mem = s.mem ∧
    (takeAsmMsg m s).path = s.path ∧
    (takeAsmMsg m s).cmd.runState = s.cmd.runState ∧
    (takeAsmMsg m s).cmd.lastReason = s.cmd.lastReason ∧
    (takeAsmMsg m s).cmd.shadow = s.cmd.shadow ∧
    (takeAsmMsg m s).cmd.post = s.cmd.post ∧
    (takeAsmMsg m s).cmd.seen = s.cmd.seen ∧
    (takeAsmMsg m s).cmd.taken = s.cmd.taken ∧
    (takeAsmMsg m s).cmd.completion = s.cmd.completion ∧
    (takeAsmMsg m s).cmd.execution = s.cmd.execution ∧
    (takeAsmMsg m s).cmd.run = s.cmd.run ∧
    (takeAsmMsg m s).writer = s.writer := by
  unfold takeAsmMsg
  try dsimp only
  (repeat' split) <;> simp [State.finishPlan]

/-- What takePlannerRise leaves as it was. -/
@[simp] theorem takePlannerRise_frame (m : Rise) (s : State) :
    (takePlannerRise m s).pending = s.pending ∧
    (takePlannerRise m s).epoch = s.epoch ∧
    (takePlannerRise m s).inReset = s.inReset ∧
    (takePlannerRise m s).travel = s.travel ∧
    (takePlannerRise m s).lanes = s.lanes ∧
    (takePlannerRise m s).engine = s.engine ∧
    (takePlannerRise m s).asm = s.asm ∧
    (takePlannerRise m s).strike = s.strike ∧
    (takePlannerRise m s).grading = s.grading ∧
    (takePlannerRise m s).shift = s.shift ∧
    (takePlannerRise m s).mem = s.mem ∧
    (takePlannerRise m s).path = s.path ∧
    (takePlannerRise m s).cmd.runState = s.cmd.runState ∧
    (takePlannerRise m s).cmd.lastReason = s.cmd.lastReason ∧
    (takePlannerRise m s).cmd.shadow = s.cmd.shadow ∧
    (takePlannerRise m s).cmd.post = s.cmd.post ∧
    (takePlannerRise m s).cmd.seen = s.cmd.seen ∧
    (takePlannerRise m s).cmd.taken = s.cmd.taken ∧
    (takePlannerRise m s).cmd.completion = s.cmd.completion ∧
    (takePlannerRise m s).cmd.execution = s.cmd.execution ∧
    (takePlannerRise m s).cmd.run = s.cmd.run ∧
    (takePlannerRise m s).writer = s.writer := by
  unfold takePlannerRise
  try dsimp only
  (repeat' split) <;> simp [State.finishPlan]

/-- What takeClaim leaves as it was. -/
@[simp] theorem takeClaim_frame (n : Nat) (s : State) :
    (takeClaim n s).pending = s.pending ∧
    (takeClaim n s).epoch = s.epoch ∧
    (takeClaim n s).inReset = s.inReset ∧
    (takeClaim n s).travel = s.travel ∧
    (takeClaim n s).lanes = s.lanes ∧
    (takeClaim n s).engine = s.engine ∧
    (takeClaim n s).asm = s.asm ∧
    (takeClaim n s).strike = s.strike ∧
    (takeClaim n s).grading = s.grading ∧
    (takeClaim n s).shift = s.shift ∧
    (takeClaim n s).mem = s.mem ∧
    (takeClaim n s).path = s.path ∧
    (takeClaim n s).cmd.runState = s.cmd.runState ∧
    (takeClaim n s).cmd.lastReason = s.cmd.lastReason ∧
    (takeClaim n s).cmd.shadow = s.cmd.shadow ∧
    (takeClaim n s).cmd.post = s.cmd.post ∧
    (takeClaim n s).cmd.seen = s.cmd.seen ∧
    (takeClaim n s).cmd.taken = s.cmd.taken ∧
    (takeClaim n s).cmd.completion = s.cmd.completion ∧
    (takeClaim n s).cmd.execution = s.cmd.execution ∧
    (takeClaim n s).cmd.run = s.cmd.run ∧
    (takeClaim n s).writer = s.writer := by
  unfold takeClaim
  try dsimp only
  (repeat' split) <;> simp [State.finishPlan]

/-- What State.runEndDone leaves as it was. -/
@[simp] theorem State.runEndDone_frame (s : State) :
    (s.runEndDone).pending = s.pending ∧
    (s.runEndDone).epoch = s.epoch ∧
    (s.runEndDone).inReset = s.inReset ∧
    (s.runEndDone).travel = s.travel ∧
    (s.runEndDone).lanes = s.lanes ∧
    (s.runEndDone).engine = s.engine ∧
    (s.runEndDone).asm = s.asm ∧
    (s.runEndDone).planner = s.planner ∧
    (s.runEndDone).strike = s.strike ∧
    (s.runEndDone).grading = s.grading ∧
    (s.runEndDone).shift = s.shift ∧
    (s.runEndDone).mem = s.mem ∧
    (s.runEndDone).path = s.path ∧
    (s.runEndDone).cmd = s.cmd ∧
    (s.runEndDone).writer = s.writer := by
  unfold State.runEndDone
  try dsimp only
  (repeat' split) <;> simp []

/-- What takePieceReq leaves as it was. -/
@[simp] theorem takePieceReq_frame (m : PieceReq) (s : State) :
    (takePieceReq m s).pending = s.pending ∧
    (takePieceReq m s).epoch = s.epoch ∧
    (takePieceReq m s).inReset = s.inReset ∧
    (takePieceReq m s).travel = s.travel ∧
    (takePieceReq m s).lanes = s.lanes ∧
    (takePieceReq m s).engine = s.engine ∧
    (takePieceReq m s).asm = s.asm ∧
    (takePieceReq m s).strike = s.strike ∧
    (takePieceReq m s).grading = s.grading ∧
    (takePieceReq m s).shift = s.shift ∧
    (takePieceReq m s).mem = s.mem ∧
    (takePieceReq m s).path = s.path ∧
    (takePieceReq m s).cmd.runState = s.cmd.runState ∧
    (takePieceReq m s).cmd.lastReason = s.cmd.lastReason ∧
    (takePieceReq m s).cmd.shadow = s.cmd.shadow ∧
    (takePieceReq m s).cmd.post = s.cmd.post ∧
    (takePieceReq m s).cmd.seen = s.cmd.seen ∧
    (takePieceReq m s).cmd.taken = s.cmd.taken ∧
    (takePieceReq m s).cmd.completion = s.cmd.completion ∧
    (takePieceReq m s).cmd.execution = s.cmd.execution ∧
    (takePieceReq m s).cmd.run = s.cmd.run ∧
    (takePieceReq m s).writer = s.writer := by
  unfold takePieceReq
  try dsimp only
  (repeat' split) <;> simp [State.finishPlan, State.runEndDone_frame]

/-- What takeStrikeRise leaves as it was. -/
@[simp] theorem takeStrikeRise_frame (m : Rise) (s : State) :
    (takeStrikeRise m s).pending = s.pending ∧
    (takeStrikeRise m s).epoch = s.epoch ∧
    (takeStrikeRise m s).inReset = s.inReset ∧
    (takeStrikeRise m s).travel = s.travel ∧
    (takeStrikeRise m s).lanes = s.lanes ∧
    (takeStrikeRise m s).engine = s.engine ∧
    (takeStrikeRise m s).asm = s.asm ∧
    (takeStrikeRise m s).planner = s.planner ∧
    (takeStrikeRise m s).grading = s.grading ∧
    (takeStrikeRise m s).shift = s.shift ∧
    (takeStrikeRise m s).mem = s.mem ∧
    (takeStrikeRise m s).path = s.path ∧
    (takeStrikeRise m s).cmd = s.cmd ∧
    (takeStrikeRise m s).writer = s.writer := by
  unfold takeStrikeRise
  try dsimp only
  (repeat' split) <;> simp []

/-- What takeGrant leaves as it was. -/
@[simp] theorem takeGrant_frame (n : Nat) (q : PieceKind) (h : Option Nat) (z : Nat) (c : Shadow) (s : State) :
    (takeGrant n q h z c s).pending = s.pending ∧
    (takeGrant n q h z c s).epoch = s.epoch ∧
    (takeGrant n q h z c s).inReset = s.inReset ∧
    (takeGrant n q h z c s).travel = s.travel ∧
    (takeGrant n q h z c s).lanes = s.lanes ∧
    (takeGrant n q h z c s).engine = s.engine ∧
    (takeGrant n q h z c s).asm = s.asm ∧
    (takeGrant n q h z c s).planner = s.planner ∧
    (takeGrant n q h z c s).grading = s.grading ∧
    (takeGrant n q h z c s).shift = s.shift ∧
    (takeGrant n q h z c s).mem = s.mem ∧
    (takeGrant n q h z c s).path = s.path ∧
    (takeGrant n q h z c s).cmd.runState = s.cmd.runState ∧
    (takeGrant n q h z c s).cmd.lastReason = s.cmd.lastReason ∧
    (takeGrant n q h z c s).cmd.shadow = s.cmd.shadow ∧
    (takeGrant n q h z c s).cmd.post = s.cmd.post ∧
    (takeGrant n q h z c s).cmd.seen = s.cmd.seen ∧
    (takeGrant n q h z c s).cmd.taken = s.cmd.taken ∧
    (takeGrant n q h z c s).cmd.completion = s.cmd.completion ∧
    (takeGrant n q h z c s).cmd.execution = s.cmd.execution ∧
    (takeGrant n q h z c s).cmd.run = s.cmd.run ∧
    (takeGrant n q h z c s).writer = s.writer := by
  unfold takeGrant
  try dsimp only
  (repeat' split) <;> simp []

/-- What takeStrikeMsg leaves as it was. -/
@[simp] theorem takeStrikeMsg_frame (m : StrikeMsg) (s : State) :
    (takeStrikeMsg m s).pending = s.pending ∧
    (takeStrikeMsg m s).epoch = s.epoch ∧
    (takeStrikeMsg m s).inReset = s.inReset ∧
    (takeStrikeMsg m s).travel = s.travel ∧
    (takeStrikeMsg m s).lanes = s.lanes ∧
    (takeStrikeMsg m s).engine = s.engine ∧
    (takeStrikeMsg m s).asm = s.asm ∧
    (takeStrikeMsg m s).planner = s.planner ∧
    (takeStrikeMsg m s).grading = s.grading ∧
    (takeStrikeMsg m s).shift = s.shift ∧
    (takeStrikeMsg m s).mem = s.mem ∧
    (takeStrikeMsg m s).path = s.path ∧
    (takeStrikeMsg m s).cmd.runState = s.cmd.runState ∧
    (takeStrikeMsg m s).cmd.lastReason = s.cmd.lastReason ∧
    (takeStrikeMsg m s).cmd.shadow = s.cmd.shadow ∧
    (takeStrikeMsg m s).cmd.post = s.cmd.post ∧
    (takeStrikeMsg m s).cmd.seen = s.cmd.seen ∧
    (takeStrikeMsg m s).cmd.taken = s.cmd.taken ∧
    (takeStrikeMsg m s).cmd.completion = s.cmd.completion ∧
    (takeStrikeMsg m s).cmd.execution = s.cmd.execution ∧
    (takeStrikeMsg m s).cmd.run = s.cmd.run ∧
    (takeStrikeMsg m s).writer = s.writer := by
  unfold takeStrikeMsg
  try dsimp only
  (repeat' split) <;> simp []

/-- What takeGradeAnswer leaves as it was. -/
@[simp] theorem takeGradeAnswer_frame (m : GradeAnswer) (s : State) :
    (takeGradeAnswer m s).pending = s.pending ∧
    (takeGradeAnswer m s).epoch = s.epoch ∧
    (takeGradeAnswer m s).inReset = s.inReset ∧
    (takeGradeAnswer m s).travel = s.travel ∧
    (takeGradeAnswer m s).lanes = s.lanes ∧
    (takeGradeAnswer m s).engine = s.engine ∧
    (takeGradeAnswer m s).asm = s.asm ∧
    (takeGradeAnswer m s).planner = s.planner ∧
    (takeGradeAnswer m s).grading = s.grading ∧
    (takeGradeAnswer m s).shift = s.shift ∧
    (takeGradeAnswer m s).mem = s.mem ∧
    (takeGradeAnswer m s).path = s.path ∧
    (takeGradeAnswer m s).cmd = s.cmd ∧
    (takeGradeAnswer m s).writer = s.writer := by
  unfold takeGradeAnswer
  try dsimp only
  (repeat' split) <;> simp []

/-- What takeHandoff leaves as it was. -/
@[simp] theorem takeHandoff_frame (m : Handoff) (s : State) :
    (takeHandoff m s).pending = s.pending ∧
    (takeHandoff m s).epoch = s.epoch ∧
    (takeHandoff m s).inReset = s.inReset ∧
    (takeHandoff m s).travel = s.travel ∧
    (takeHandoff m s).lanes = s.lanes ∧
    (takeHandoff m s).engine = s.engine ∧
    (takeHandoff m s).asm = s.asm ∧
    (takeHandoff m s).planner = s.planner ∧
    (takeHandoff m s).strike = s.strike ∧
    (takeHandoff m s).shift = s.shift ∧
    (takeHandoff m s).mem = s.mem ∧
    (takeHandoff m s).path = s.path ∧
    (takeHandoff m s).cmd = s.cmd ∧
    (takeHandoff m s).writer = s.writer ∧
    (takeHandoff m s).wires = s.wires := by
  unfold takeHandoff
  try dsimp only
  (repeat' split) <;> simp []

/-- What gradingBegin leaves as it was. -/
@[simp] theorem gradingBegin_frame (s : State) :
    (gradingBegin s).pending = s.pending ∧
    (gradingBegin s).epoch = s.epoch ∧
    (gradingBegin s).inReset = s.inReset ∧
    (gradingBegin s).travel = s.travel ∧
    (gradingBegin s).lanes = s.lanes ∧
    (gradingBegin s).engine = s.engine ∧
    (gradingBegin s).asm = s.asm ∧
    (gradingBegin s).planner = s.planner ∧
    (gradingBegin s).strike = s.strike ∧
    (gradingBegin s).shift = s.shift ∧
    (gradingBegin s).mem = s.mem ∧
    (gradingBegin s).path = s.path ∧
    (gradingBegin s).cmd.runState = s.cmd.runState ∧
    (gradingBegin s).cmd.lastReason = s.cmd.lastReason ∧
    (gradingBegin s).cmd.shadow = s.cmd.shadow ∧
    (gradingBegin s).cmd.post = s.cmd.post ∧
    (gradingBegin s).cmd.seen = s.cmd.seen ∧
    (gradingBegin s).cmd.taken = s.cmd.taken ∧
    (gradingBegin s).cmd.completion = s.cmd.completion ∧
    (gradingBegin s).cmd.execution = s.cmd.execution ∧
    (gradingBegin s).cmd.run = s.cmd.run ∧
    (gradingBegin s).writer = s.writer := by
  unfold gradingBegin
  try dsimp only
  (repeat' split) <;> simp []

/-- What takeGatherAnswer leaves as it was. -/
@[simp] theorem takeGatherAnswer_frame (m : GatherAnswer) (s : State) :
    (takeGatherAnswer m s).pending = s.pending ∧
    (takeGatherAnswer m s).epoch = s.epoch ∧
    (takeGatherAnswer m s).inReset = s.inReset ∧
    (takeGatherAnswer m s).travel = s.travel ∧
    (takeGatherAnswer m s).lanes = s.lanes ∧
    (takeGatherAnswer m s).engine = s.engine ∧
    (takeGatherAnswer m s).asm = s.asm ∧
    (takeGatherAnswer m s).planner = s.planner ∧
    (takeGatherAnswer m s).strike = s.strike ∧
    (takeGatherAnswer m s).shift = s.shift ∧
    (takeGatherAnswer m s).mem = s.mem ∧
    (takeGatherAnswer m s).path = s.path ∧
    (takeGatherAnswer m s).cmd = s.cmd ∧
    (takeGatherAnswer m s).writer = s.writer := by
  unfold takeGatherAnswer
  try dsimp only
  (repeat' split) <;> simp []

/-- What State.offerPlate leaves as it was. -/
@[simp] theorem State.offerPlate_frame (s : State) :
    (s.offerPlate).pending = s.pending ∧
    (s.offerPlate).epoch = s.epoch ∧
    (s.offerPlate).inReset = s.inReset ∧
    (s.offerPlate).travel = s.travel ∧
    (s.offerPlate).lanes = s.lanes ∧
    (s.offerPlate).engine = s.engine ∧
    (s.offerPlate).asm = s.asm ∧
    (s.offerPlate).planner = s.planner ∧
    (s.offerPlate).strike = s.strike ∧
    (s.offerPlate).shift = s.shift ∧
    (s.offerPlate).mem = s.mem ∧
    (s.offerPlate).path = s.path ∧
    (s.offerPlate).cmd = s.cmd ∧
    (s.offerPlate).writer = s.writer := by
  unfold State.offerPlate
  try dsimp only
  (repeat' split) <;> simp []

/-- What State.joinOutbound leaves as it was. -/
@[simp] theorem State.joinOutbound_frame (s : State) (r : PlateRecord) :
    (s.joinOutbound r).pending = s.pending ∧
    (s.joinOutbound r).epoch = s.epoch ∧
    (s.joinOutbound r).inReset = s.inReset ∧
    (s.joinOutbound r).travel = s.travel ∧
    (s.joinOutbound r).lanes = s.lanes ∧
    (s.joinOutbound r).engine = s.engine ∧
    (s.joinOutbound r).asm = s.asm ∧
    (s.joinOutbound r).planner = s.planner ∧
    (s.joinOutbound r).strike = s.strike ∧
    (s.joinOutbound r).shift = s.shift ∧
    (s.joinOutbound r).mem = s.mem ∧
    (s.joinOutbound r).path = s.path ∧
    (s.joinOutbound r).cmd = s.cmd ∧
    (s.joinOutbound r).writer = s.writer := by
  unfold State.joinOutbound
  try dsimp only
  (repeat' split) <;> simp []

/-- What takeStamp leaves as it was. -/
@[simp] theorem takeStamp_frame (m : ShiftStamp) (s : State) :
    (takeStamp m s).pending = s.pending ∧
    (takeStamp m s).epoch = s.epoch ∧
    (takeStamp m s).inReset = s.inReset ∧
    (takeStamp m s).travel = s.travel ∧
    (takeStamp m s).lanes = s.lanes ∧
    (takeStamp m s).engine = s.engine ∧
    (takeStamp m s).asm = s.asm ∧
    (takeStamp m s).planner = s.planner ∧
    (takeStamp m s).strike = s.strike ∧
    (takeStamp m s).shift = s.shift ∧
    (takeStamp m s).mem = s.mem ∧
    (takeStamp m s).path = s.path ∧
    (takeStamp m s).cmd = s.cmd ∧
    (takeStamp m s).writer = s.writer := by
  unfold takeStamp
  try dsimp only
  (repeat' split) <;> simp []

/-- What plateAccepted leaves as it was. -/
@[simp] theorem plateAccepted_frame (s : State) :
    (plateAccepted s).pending = s.pending ∧
    (plateAccepted s).epoch = s.epoch ∧
    (plateAccepted s).inReset = s.inReset ∧
    (plateAccepted s).travel = s.travel ∧
    (plateAccepted s).lanes = s.lanes ∧
    (plateAccepted s).engine = s.engine ∧
    (plateAccepted s).asm = s.asm ∧
    (plateAccepted s).planner = s.planner ∧
    (plateAccepted s).strike = s.strike ∧
    (plateAccepted s).shift = s.shift ∧
    (plateAccepted s).mem = s.mem ∧
    (plateAccepted s).path = s.path ∧
    (plateAccepted s).cmd = s.cmd ∧
    (plateAccepted s).writer = s.writer := by
  unfold plateAccepted
  try dsimp only
  (repeat' split) <;> simp []

/-- What State.askAll leaves as it was. -/
@[simp] theorem State.askAll_frame (os : List Outbound) (s : State) :
    (os.foldl (fun s o => s.askPlanner (.waitingLog o.record.number)) s).pending = s.pending ∧
    (os.foldl (fun s o => s.askPlanner (.waitingLog o.record.number)) s).epoch = s.epoch ∧
    (os.foldl (fun s o => s.askPlanner (.waitingLog o.record.number)) s).inReset = s.inReset ∧
    (os.foldl (fun s o => s.askPlanner (.waitingLog o.record.number)) s).travel = s.travel ∧
    (os.foldl (fun s o => s.askPlanner (.waitingLog o.record.number)) s).lanes = s.lanes ∧
    (os.foldl (fun s o => s.askPlanner (.waitingLog o.record.number)) s).engine = s.engine ∧
    (os.foldl (fun s o => s.askPlanner (.waitingLog o.record.number)) s).asm = s.asm ∧
    (os.foldl (fun s o => s.askPlanner (.waitingLog o.record.number)) s).planner = s.planner ∧
    (os.foldl (fun s o => s.askPlanner (.waitingLog o.record.number)) s).strike = s.strike ∧
    (os.foldl (fun s o => s.askPlanner (.waitingLog o.record.number)) s).grading = s.grading ∧
    (os.foldl (fun s o => s.askPlanner (.waitingLog o.record.number)) s).shift = s.shift ∧
    (os.foldl (fun s o => s.askPlanner (.waitingLog o.record.number)) s).mem = s.mem ∧
    (os.foldl (fun s o => s.askPlanner (.waitingLog o.record.number)) s).path = s.path ∧
    (os.foldl (fun s o => s.askPlanner (.waitingLog o.record.number)) s).cmd = s.cmd ∧
    (os.foldl (fun s o => s.askPlanner (.waitingLog o.record.number)) s).writer = s.writer := by
  induction os generalizing s with
  | nil => simp
  | cons o os ih => simp [ih]

/-- What plateFull leaves as it was. -/
@[simp] theorem plateFull_frame (s : State) :
    (plateFull s).pending = s.pending ∧
    (plateFull s).epoch = s.epoch ∧
    (plateFull s).inReset = s.inReset ∧
    (plateFull s).travel = s.travel ∧
    (plateFull s).lanes = s.lanes ∧
    (plateFull s).engine = s.engine ∧
    (plateFull s).asm = s.asm ∧
    (plateFull s).planner = s.planner ∧
    (plateFull s).strike = s.strike ∧
    (plateFull s).shift = s.shift ∧
    (plateFull s).mem = s.mem ∧
    (plateFull s).path = s.path ∧
    (plateFull s).cmd = s.cmd ∧
    (plateFull s).writer = s.writer := by
  unfold plateFull
  try dsimp only
  (repeat' split) <;> simp []

/-- What plateRoom leaves as it was. -/
@[simp] theorem plateRoom_frame (s : State) :
    (plateRoom s).pending = s.pending ∧
    (plateRoom s).epoch = s.epoch ∧
    (plateRoom s).inReset = s.inReset ∧
    (plateRoom s).travel = s.travel ∧
    (plateRoom s).lanes = s.lanes ∧
    (plateRoom s).engine = s.engine ∧
    (plateRoom s).asm = s.asm ∧
    (plateRoom s).planner = s.planner ∧
    (plateRoom s).strike = s.strike ∧
    (plateRoom s).shift = s.shift ∧
    (plateRoom s).mem = s.mem ∧
    (plateRoom s).path = s.path ∧
    (plateRoom s).cmd = s.cmd ∧
    (plateRoom s).writer = s.writer := by
  unfold plateRoom
  try dsimp only
  (repeat' split) <;> simp []

/-- What takePlateAnswer leaves as it was. -/
@[simp] theorem takePlateAnswer_frame (m : LogAnswer) (s : State) :
    (takePlateAnswer m s).pending = s.pending ∧
    (takePlateAnswer m s).epoch = s.epoch ∧
    (takePlateAnswer m s).inReset = s.inReset ∧
    (takePlateAnswer m s).travel = s.travel ∧
    (takePlateAnswer m s).lanes = s.lanes ∧
    (takePlateAnswer m s).engine = s.engine ∧
    (takePlateAnswer m s).asm = s.asm ∧
    (takePlateAnswer m s).planner = s.planner ∧
    (takePlateAnswer m s).strike = s.strike ∧
    (takePlateAnswer m s).shift = s.shift ∧
    (takePlateAnswer m s).mem = s.mem ∧
    (takePlateAnswer m s).path = s.path ∧
    (takePlateAnswer m s).cmd = s.cmd ∧
    (takePlateAnswer m s).writer = s.writer := by
  unfold takePlateAnswer
  try dsimp only
  (repeat' split) <;> simp []

/-- What State.boundary leaves as it was. -/
@[simp] theorem State.boundary_frame (s : State) (o : OpeningSlot) :
    (s.boundary o).pending = s.pending ∧
    (s.boundary o).epoch = s.epoch ∧
    (s.boundary o).inReset = s.inReset ∧
    (s.boundary o).travel = s.travel ∧
    (s.boundary o).lanes = s.lanes ∧
    (s.boundary o).engine = s.engine ∧
    (s.boundary o).asm = s.asm ∧
    (s.boundary o).planner = s.planner ∧
    (s.boundary o).strike = s.strike ∧
    (s.boundary o).grading = s.grading ∧
    (s.boundary o).shift.calendar = s.shift.calendar ∧
    (s.boundary o).shift.sub = s.shift.sub ∧
    (s.boundary o).shift.trim = s.shift.trim ∧
    (s.boundary o).shift.valid = s.shift.valid ∧
    (s.boundary o).shift.run = s.shift.run ∧
    (s.boundary o).shift.runState = s.shift.runState ∧
    (s.boundary o).mem = s.mem ∧
    (s.boundary o).path = s.path ∧
    (s.boundary o).cmd = s.cmd ∧
    (s.boundary o).writer = s.writer := by
  unfold State.boundary
  try dsimp only
  (repeat' split) <;> simp []

/-- What State.testBoundary leaves as it was. -/
@[simp] theorem State.testBoundary_frame (s : State) :
    (s.testBoundary).pending = s.pending ∧
    (s.testBoundary).epoch = s.epoch ∧
    (s.testBoundary).inReset = s.inReset ∧
    (s.testBoundary).travel = s.travel ∧
    (s.testBoundary).lanes = s.lanes ∧
    (s.testBoundary).engine = s.engine ∧
    (s.testBoundary).asm = s.asm ∧
    (s.testBoundary).planner = s.planner ∧
    (s.testBoundary).strike = s.strike ∧
    (s.testBoundary).grading = s.grading ∧
    (s.testBoundary).shift.calendar = s.shift.calendar ∧
    (s.testBoundary).shift.sub = s.shift.sub ∧
    (s.testBoundary).shift.trim = s.shift.trim ∧
    (s.testBoundary).shift.valid = s.shift.valid ∧
    (s.testBoundary).shift.run = s.shift.run ∧
    (s.testBoundary).shift.runState = s.shift.runState ∧
    (s.testBoundary).mem = s.mem ∧
    (s.testBoundary).path = s.path ∧
    (s.testBoundary).cmd = s.cmd ∧
    (s.testBoundary).writer = s.writer := by
  unfold State.testBoundary
  try dsimp only
  (repeat' split) <;> simp []

/-- What dividePeriod leaves as it was. -/
@[simp] theorem dividePeriod_frame (s : State) :
    (dividePeriod s).pending = s.pending ∧
    (dividePeriod s).epoch = s.epoch ∧
    (dividePeriod s).inReset = s.inReset ∧
    (dividePeriod s).lanes = s.lanes ∧
    (dividePeriod s).engine = s.engine ∧
    (dividePeriod s).asm = s.asm ∧
    (dividePeriod s).planner = s.planner ∧
    (dividePeriod s).strike = s.strike ∧
    (dividePeriod s).grading = s.grading ∧
    (dividePeriod s).shift = s.shift ∧
    (dividePeriod s).mem = s.mem ∧
    (dividePeriod s).path = s.path ∧
    (dividePeriod s).cmd = s.cmd ∧
    (dividePeriod s).writer = s.writer := by
  unfold dividePeriod
  try dsimp only
  (repeat' split) <;> simp []

/-- What secondEnd leaves as it was. -/
@[simp] theorem secondEnd_frame (s : State) :
    (secondEnd s).pending = s.pending ∧
    (secondEnd s).epoch = s.epoch ∧
    (secondEnd s).inReset = s.inReset ∧
    (secondEnd s).travel = s.travel ∧
    (secondEnd s).lanes = s.lanes ∧
    (secondEnd s).engine = s.engine ∧
    (secondEnd s).asm = s.asm ∧
    (secondEnd s).planner = s.planner ∧
    (secondEnd s).strike = s.strike ∧
    (secondEnd s).grading = s.grading ∧
    (secondEnd s).shift.trim = s.shift.trim ∧
    (secondEnd s).shift.valid = s.shift.valid ∧
    (secondEnd s).shift.run = s.shift.run ∧
    (secondEnd s).shift.runState = s.shift.runState ∧
    (secondEnd s).mem = s.mem ∧
    (secondEnd s).path = s.path ∧
    (secondEnd s).cmd = s.cmd ∧
    (secondEnd s).writer = s.writer := by
  unfold secondEnd
  try dsimp only
  (repeat' split) <;> simp []

/-- What period leaves as it was. -/
@[simp] theorem period_frame (s : State) :
    (period s).pending = s.pending ∧
    (period s).epoch = s.epoch ∧
    (period s).inReset = s.inReset ∧
    (period s).lanes = s.lanes ∧
    (period s).engine = s.engine ∧
    (period s).asm = s.asm ∧
    (period s).planner = s.planner ∧
    (period s).strike = s.strike ∧
    (period s).grading = s.grading ∧
    (period s).shift.trim = s.shift.trim ∧
    (period s).shift.valid = s.shift.valid ∧
    (period s).shift.run = s.shift.run ∧
    (period s).shift.runState = s.shift.runState ∧
    (period s).mem = s.mem ∧
    (period s).path = s.path ∧
    (period s).cmd = s.cmd ∧
    (period s).writer = s.writer := by
  unfold period
  try dsimp only
  (repeat' split) <;> simp []

/-- What takeGradingIncrement leaves as it was. -/
@[simp] theorem takeGradingIncrement_frame (m : Tagged GradingIncrement) (s : State) :
    (takeGradingIncrement m s).pending = s.pending ∧
    (takeGradingIncrement m s).epoch = s.epoch ∧
    (takeGradingIncrement m s).inReset = s.inReset ∧
    (takeGradingIncrement m s).travel = s.travel ∧
    (takeGradingIncrement m s).lanes = s.lanes ∧
    (takeGradingIncrement m s).engine = s.engine ∧
    (takeGradingIncrement m s).asm = s.asm ∧
    (takeGradingIncrement m s).planner = s.planner ∧
    (takeGradingIncrement m s).strike = s.strike ∧
    (takeGradingIncrement m s).grading = s.grading ∧
    (takeGradingIncrement m s).shift.calendar = s.shift.calendar ∧
    (takeGradingIncrement m s).shift.sub = s.shift.sub ∧
    (takeGradingIncrement m s).shift.trim = s.shift.trim ∧
    (takeGradingIncrement m s).shift.valid = s.shift.valid ∧
    (takeGradingIncrement m s).shift.number = s.shift.number ∧
    (takeGradingIncrement m s).shift.run = s.shift.run ∧
    (takeGradingIncrement m s).shift.runState = s.shift.runState ∧
    (takeGradingIncrement m s).mem = s.mem ∧
    (takeGradingIncrement m s).path = s.path ∧
    (takeGradingIncrement m s).cmd = s.cmd ∧
    (takeGradingIncrement m s).writer = s.writer := by
  unfold takeGradingIncrement
  try dsimp only
  (repeat' split) <;> simp []

/-- What takeShiftAnswer leaves as it was. -/
@[simp] theorem takeShiftAnswer_frame (m : LogAnswer) (s : State) :
    (takeShiftAnswer m s).pending = s.pending ∧
    (takeShiftAnswer m s).epoch = s.epoch ∧
    (takeShiftAnswer m s).inReset = s.inReset ∧
    (takeShiftAnswer m s).travel = s.travel ∧
    (takeShiftAnswer m s).lanes = s.lanes ∧
    (takeShiftAnswer m s).engine = s.engine ∧
    (takeShiftAnswer m s).asm = s.asm ∧
    (takeShiftAnswer m s).planner = s.planner ∧
    (takeShiftAnswer m s).strike = s.strike ∧
    (takeShiftAnswer m s).grading = s.grading ∧
    (takeShiftAnswer m s).shift.calendar = s.shift.calendar ∧
    (takeShiftAnswer m s).shift.sub = s.shift.sub ∧
    (takeShiftAnswer m s).shift.trim = s.shift.trim ∧
    (takeShiftAnswer m s).shift.valid = s.shift.valid ∧
    (takeShiftAnswer m s).shift.number = s.shift.number ∧
    (takeShiftAnswer m s).shift.run = s.shift.run ∧
    (takeShiftAnswer m s).shift.runState = s.shift.runState ∧
    (takeShiftAnswer m s).mem = s.mem ∧
    (takeShiftAnswer m s).path = s.path ∧
    (takeShiftAnswer m s).cmd = s.cmd ∧
    (takeShiftAnswer m s).writer = s.writer := by
  unfold takeShiftAnswer
  try dsimp only
  (repeat' split) <;> simp []

/-- What takeFlawRecord leaves as it was. -/
@[simp] theorem takeFlawRecord_frame (m : FlawRecord) (s : State) :
    (takeFlawRecord m s).pending = s.pending ∧
    (takeFlawRecord m s).epoch = s.epoch ∧
    (takeFlawRecord m s).inReset = s.inReset ∧
    (takeFlawRecord m s).travel = s.travel ∧
    (takeFlawRecord m s).lanes = s.lanes ∧
    (takeFlawRecord m s).engine = s.engine ∧
    (takeFlawRecord m s).asm = s.asm ∧
    (takeFlawRecord m s).planner = s.planner ∧
    (takeFlawRecord m s).strike = s.strike ∧
    (takeFlawRecord m s).grading = s.grading ∧
    (takeFlawRecord m s).shift = s.shift ∧
    (takeFlawRecord m s).mem = s.mem ∧
    (takeFlawRecord m s).path.anchorBase = s.path.anchorBase ∧
    (takeFlawRecord m s).path.runState = s.path.runState ∧
    (takeFlawRecord m s).path.map = s.path.map ∧
    (takeFlawRecord m s).path.queue = s.path.queue ∧
    (takeFlawRecord m s).path.heldOff = s.path.heldOff ∧
    (takeFlawRecord m s).path.nextId = s.path.nextId ∧
    (takeFlawRecord m s).cmd.runState = s.cmd.runState ∧
    (takeFlawRecord m s).cmd.lastReason = s.cmd.lastReason ∧
    (takeFlawRecord m s).cmd.shadow = s.cmd.shadow ∧
    (takeFlawRecord m s).cmd.post = s.cmd.post ∧
    (takeFlawRecord m s).cmd.seen = s.cmd.seen ∧
    (takeFlawRecord m s).cmd.taken = s.cmd.taken ∧
    (takeFlawRecord m s).cmd.completion = s.cmd.completion ∧
    (takeFlawRecord m s).cmd.execution = s.cmd.execution ∧
    (takeFlawRecord m s).cmd.run = s.cmd.run ∧
    (takeFlawRecord m s).writer.calendar = s.writer.calendar ∧
    (takeFlawRecord m s).writer.clockValid = s.writer.clockValid ∧
    (takeFlawRecord m s).writer.attn = s.writer.attn := by
  unfold takeFlawRecord
  try dsimp only
  (repeat' split) <;> simp []

/-- What takePlateOffer leaves as it was. -/
@[simp] theorem takePlateOffer_frame (m : PlateRecord) (s : State) :
    (takePlateOffer m s).pending = s.pending ∧
    (takePlateOffer m s).epoch = s.epoch ∧
    (takePlateOffer m s).inReset = s.inReset ∧
    (takePlateOffer m s).travel = s.travel ∧
    (takePlateOffer m s).lanes = s.lanes ∧
    (takePlateOffer m s).engine = s.engine ∧
    (takePlateOffer m s).asm = s.asm ∧
    (takePlateOffer m s).planner = s.planner ∧
    (takePlateOffer m s).strike = s.strike ∧
    (takePlateOffer m s).grading = s.grading ∧
    (takePlateOffer m s).shift = s.shift ∧
    (takePlateOffer m s).mem = s.mem ∧
    (takePlateOffer m s).path.anchorBase = s.path.anchorBase ∧
    (takePlateOffer m s).path.runState = s.path.runState ∧
    (takePlateOffer m s).path.map = s.path.map ∧
    (takePlateOffer m s).path.queue = s.path.queue ∧
    (takePlateOffer m s).path.heldOff = s.path.heldOff ∧
    (takePlateOffer m s).path.nextId = s.path.nextId ∧
    (takePlateOffer m s).cmd.runState = s.cmd.runState ∧
    (takePlateOffer m s).cmd.lastReason = s.cmd.lastReason ∧
    (takePlateOffer m s).cmd.shadow = s.cmd.shadow ∧
    (takePlateOffer m s).cmd.post = s.cmd.post ∧
    (takePlateOffer m s).cmd.seen = s.cmd.seen ∧
    (takePlateOffer m s).cmd.taken = s.cmd.taken ∧
    (takePlateOffer m s).cmd.completion = s.cmd.completion ∧
    (takePlateOffer m s).cmd.execution = s.cmd.execution ∧
    (takePlateOffer m s).cmd.run = s.cmd.run ∧
    (takePlateOffer m s).writer.calendar = s.writer.calendar ∧
    (takePlateOffer m s).writer.clockValid = s.writer.clockValid ∧
    (takePlateOffer m s).writer.attn = s.writer.attn := by
  unfold takePlateOffer
  try dsimp only
  (repeat' split) <;> simp [State.setRefused, State.setLog]

/-- What takeShiftOffer leaves as it was. -/
@[simp] theorem takeShiftOffer_frame (m : ShiftReport) (s : State) :
    (takeShiftOffer m s).pending = s.pending ∧
    (takeShiftOffer m s).epoch = s.epoch ∧
    (takeShiftOffer m s).inReset = s.inReset ∧
    (takeShiftOffer m s).travel = s.travel ∧
    (takeShiftOffer m s).lanes = s.lanes ∧
    (takeShiftOffer m s).engine = s.engine ∧
    (takeShiftOffer m s).asm = s.asm ∧
    (takeShiftOffer m s).planner = s.planner ∧
    (takeShiftOffer m s).strike = s.strike ∧
    (takeShiftOffer m s).grading = s.grading ∧
    (takeShiftOffer m s).shift = s.shift ∧
    (takeShiftOffer m s).mem = s.mem ∧
    (takeShiftOffer m s).path.anchorBase = s.path.anchorBase ∧
    (takeShiftOffer m s).path.runState = s.path.runState ∧
    (takeShiftOffer m s).path.map = s.path.map ∧
    (takeShiftOffer m s).path.queue = s.path.queue ∧
    (takeShiftOffer m s).path.heldOff = s.path.heldOff ∧
    (takeShiftOffer m s).path.nextId = s.path.nextId ∧
    (takeShiftOffer m s).cmd.runState = s.cmd.runState ∧
    (takeShiftOffer m s).cmd.lastReason = s.cmd.lastReason ∧
    (takeShiftOffer m s).cmd.shadow = s.cmd.shadow ∧
    (takeShiftOffer m s).cmd.post = s.cmd.post ∧
    (takeShiftOffer m s).cmd.seen = s.cmd.seen ∧
    (takeShiftOffer m s).cmd.taken = s.cmd.taken ∧
    (takeShiftOffer m s).cmd.completion = s.cmd.completion ∧
    (takeShiftOffer m s).cmd.execution = s.cmd.execution ∧
    (takeShiftOffer m s).cmd.run = s.cmd.run ∧
    (takeShiftOffer m s).writer.calendar = s.writer.calendar ∧
    (takeShiftOffer m s).writer.clockValid = s.writer.clockValid ∧
    (takeShiftOffer m s).writer.attn = s.writer.attn := by
  unfold takeShiftOffer
  try dsimp only
  (repeat' split) <;> simp [State.setRefused, State.setLog]

/-- What State.rewriteFault leaves as it was. -/
@[simp] theorem State.rewriteFault_frame (s : State) (f : LogFields) (o : OpenFault) :
    (s.rewriteFault f o).pending = s.pending ∧
    (s.rewriteFault f o).epoch = s.epoch ∧
    (s.rewriteFault f o).inReset = s.inReset ∧
    (s.rewriteFault f o).travel = s.travel ∧
    (s.rewriteFault f o).lanes = s.lanes ∧
    (s.rewriteFault f o).engine = s.engine ∧
    (s.rewriteFault f o).asm = s.asm ∧
    (s.rewriteFault f o).planner = s.planner ∧
    (s.rewriteFault f o).strike = s.strike ∧
    (s.rewriteFault f o).grading = s.grading ∧
    (s.rewriteFault f o).shift = s.shift ∧
    (s.rewriteFault f o).mem = s.mem ∧
    (s.rewriteFault f o).path.anchorBase = s.path.anchorBase ∧
    (s.rewriteFault f o).path.runState = s.path.runState ∧
    (s.rewriteFault f o).path.map = s.path.map ∧
    (s.rewriteFault f o).path.queue = s.path.queue ∧
    (s.rewriteFault f o).path.heldOff = s.path.heldOff ∧
    (s.rewriteFault f o).path.nextId = s.path.nextId ∧
    (s.rewriteFault f o).cmd.runState = s.cmd.runState ∧
    (s.rewriteFault f o).cmd.lastReason = s.cmd.lastReason ∧
    (s.rewriteFault f o).cmd.shadow = s.cmd.shadow ∧
    (s.rewriteFault f o).cmd.post = s.cmd.post ∧
    (s.rewriteFault f o).cmd.seen = s.cmd.seen ∧
    (s.rewriteFault f o).cmd.taken = s.cmd.taken ∧
    (s.rewriteFault f o).cmd.completion = s.cmd.completion ∧
    (s.rewriteFault f o).cmd.execution = s.cmd.execution ∧
    (s.rewriteFault f o).cmd.run = s.cmd.run ∧
    (s.rewriteFault f o).writer.logs = s.writer.logs ∧
    (s.rewriteFault f o).writer.calendar = s.writer.calendar ∧
    (s.rewriteFault f o).writer.clockValid = s.writer.clockValid ∧
    (s.rewriteFault f o).writer.attn = s.writer.attn := by
  unfold State.rewriteFault
  try dsimp only
  (repeat' split) <;> simp []

/-- What takeFault leaves as it was. -/
@[simp] theorem takeFault_frame (m : FaultMsg) (s : State) :
    (takeFault m s).pending = s.pending ∧
    (takeFault m s).epoch = s.epoch ∧
    (takeFault m s).inReset = s.inReset ∧
    (takeFault m s).travel = s.travel ∧
    (takeFault m s).lanes = s.lanes ∧
    (takeFault m s).engine = s.engine ∧
    (takeFault m s).asm = s.asm ∧
    (takeFault m s).planner = s.planner ∧
    (takeFault m s).strike = s.strike ∧
    (takeFault m s).grading = s.grading ∧
    (takeFault m s).shift = s.shift ∧
    (takeFault m s).mem = s.mem ∧
    (takeFault m s).path.anchorBase = s.path.anchorBase ∧
    (takeFault m s).path.runState = s.path.runState ∧
    (takeFault m s).path.map = s.path.map ∧
    (takeFault m s).path.queue = s.path.queue ∧
    (takeFault m s).path.heldOff = s.path.heldOff ∧
    (takeFault m s).path.nextId = s.path.nextId ∧
    (takeFault m s).cmd.runState = s.cmd.runState ∧
    (takeFault m s).cmd.lastReason = s.cmd.lastReason ∧
    (takeFault m s).cmd.shadow = s.cmd.shadow ∧
    (takeFault m s).cmd.post = s.cmd.post ∧
    (takeFault m s).cmd.seen = s.cmd.seen ∧
    (takeFault m s).cmd.taken = s.cmd.taken ∧
    (takeFault m s).cmd.completion = s.cmd.completion ∧
    (takeFault m s).cmd.execution = s.cmd.execution ∧
    (takeFault m s).cmd.run = s.cmd.run ∧
    (takeFault m s).writer.calendar = s.writer.calendar ∧
    (takeFault m s).writer.clockValid = s.writer.clockValid ∧
    (takeFault m s).writer.attn = s.writer.attn := by
  unfold takeFault
  try dsimp only
  (repeat' split) <;> simp [State.setOpenFault]

/-- What afterRelease leaves as it was. -/
@[simp] theorem afterRelease_frame (l : LogId) (s : State) :
    (afterRelease l s).pending = s.pending ∧
    (afterRelease l s).epoch = s.epoch ∧
    (afterRelease l s).inReset = s.inReset ∧
    (afterRelease l s).travel = s.travel ∧
    (afterRelease l s).lanes = s.lanes ∧
    (afterRelease l s).engine = s.engine ∧
    (afterRelease l s).asm = s.asm ∧
    (afterRelease l s).planner = s.planner ∧
    (afterRelease l s).strike = s.strike ∧
    (afterRelease l s).grading = s.grading ∧
    (afterRelease l s).shift = s.shift ∧
    (afterRelease l s).mem = s.mem ∧
    (afterRelease l s).path = s.path ∧
    (afterRelease l s).cmd = s.cmd ∧
    (afterRelease l s).writer.calendar = s.writer.calendar ∧
    (afterRelease l s).writer.clockValid = s.writer.clockValid := by
  unfold afterRelease
  try dsimp only
  (repeat' split) <;> simp []

/-- What takeRelease leaves as it was. -/
@[simp] theorem takeRelease_frame (m : Release) (s : State) :
    (takeRelease m s).pending = s.pending ∧
    (takeRelease m s).epoch = s.epoch ∧
    (takeRelease m s).inReset = s.inReset ∧
    (takeRelease m s).travel = s.travel ∧
    (takeRelease m s).lanes = s.lanes ∧
    (takeRelease m s).engine = s.engine ∧
    (takeRelease m s).asm = s.asm ∧
    (takeRelease m s).planner = s.planner ∧
    (takeRelease m s).strike = s.strike ∧
    (takeRelease m s).grading = s.grading ∧
    (takeRelease m s).shift = s.shift ∧
    (takeRelease m s).mem = s.mem ∧
    (takeRelease m s).path = s.path ∧
    (takeRelease m s).cmd = s.cmd ∧
    (takeRelease m s).writer.calendar = s.writer.calendar ∧
    (takeRelease m s).writer.clockValid = s.writer.clockValid := by
  unfold takeRelease
  try dsimp only
  (repeat' split) <;> simp []

/-- What writerSecond leaves as it was. -/
@[simp] theorem writerSecond_frame (s : State) :
    (writerSecond s).pending = s.pending ∧
    (writerSecond s).epoch = s.epoch ∧
    (writerSecond s).inReset = s.inReset ∧
    (writerSecond s).travel = s.travel ∧
    (writerSecond s).lanes = s.lanes ∧
    (writerSecond s).engine = s.engine ∧
    (writerSecond s).asm = s.asm ∧
    (writerSecond s).planner = s.planner ∧
    (writerSecond s).strike = s.strike ∧
    (writerSecond s).grading = s.grading ∧
    (writerSecond s).shift = s.shift ∧
    (writerSecond s).mem = s.mem ∧
    (writerSecond s).path.anchorBase = s.path.anchorBase ∧
    (writerSecond s).path.runState = s.path.runState ∧
    (writerSecond s).path.map = s.path.map ∧
    (writerSecond s).path.queue = s.path.queue ∧
    (writerSecond s).path.heldOff = s.path.heldOff ∧
    (writerSecond s).path.nextId = s.path.nextId ∧
    (writerSecond s).cmd.runState = s.cmd.runState ∧
    (writerSecond s).cmd.lastReason = s.cmd.lastReason ∧
    (writerSecond s).cmd.shadow = s.cmd.shadow ∧
    (writerSecond s).cmd.post = s.cmd.post ∧
    (writerSecond s).cmd.seen = s.cmd.seen ∧
    (writerSecond s).cmd.taken = s.cmd.taken ∧
    (writerSecond s).cmd.completion = s.cmd.completion ∧
    (writerSecond s).cmd.execution = s.cmd.execution ∧
    (writerSecond s).cmd.run = s.cmd.run ∧
    (writerSecond s).writer.logs = s.writer.logs ∧
    (writerSecond s).writer.attn = s.writer.attn := by
  unfold writerSecond
  try dsimp only
  (repeat' split) <;> simp []

/-- What State.takeLogFields leaves as it was. -/
@[simp] theorem State.takeLogFields_frame (s : State) (l : LogId) (f : LogFields) :
    (s.takeLogFields l f).pending = s.pending ∧
    (s.takeLogFields l f).epoch = s.epoch ∧
    (s.takeLogFields l f).inReset = s.inReset ∧
    (s.takeLogFields l f).travel = s.travel ∧
    (s.takeLogFields l f).lanes = s.lanes ∧
    (s.takeLogFields l f).engine = s.engine ∧
    (s.takeLogFields l f).asm = s.asm ∧
    (s.takeLogFields l f).planner = s.planner ∧
    (s.takeLogFields l f).strike = s.strike ∧
    (s.takeLogFields l f).grading = s.grading ∧
    (s.takeLogFields l f).shift = s.shift ∧
    (s.takeLogFields l f).mem = s.mem ∧
    (s.takeLogFields l f).path = s.path ∧
    (s.takeLogFields l f).cmd = s.cmd ∧
    (s.takeLogFields l f).writer.calendar = s.writer.calendar ∧
    (s.takeLogFields l f).writer.clockValid = s.writer.clockValid := by
  unfold State.takeLogFields
  try dsimp only
  (repeat' split) <;> simp []

/-- What encoderEdge leaves as it was. -/
@[simp] theorem encoderEdge_frame (a b : Bool) (s : State) :
    (encoderEdge a b s).pending = s.pending ∧
    (encoderEdge a b s).epoch = s.epoch ∧
    (encoderEdge a b s).inReset = s.inReset ∧
    (encoderEdge a b s).lanes = s.lanes ∧
    (encoderEdge a b s).engine = s.engine ∧
    (encoderEdge a b s).asm = s.asm ∧
    (encoderEdge a b s).planner = s.planner ∧
    (encoderEdge a b s).strike = s.strike ∧
    (encoderEdge a b s).grading = s.grading ∧
    (encoderEdge a b s).shift = s.shift ∧
    (encoderEdge a b s).mem = s.mem ∧
    (encoderEdge a b s).path = s.path ∧
    (encoderEdge a b s).cmd = s.cmd ∧
    (encoderEdge a b s).writer = s.writer := by
  unfold encoderEdge
  try dsimp only
  (repeat' split) <;> simp [sendTriggers]

/-- What takeUnitTick leaves as it was. -/
@[simp] theorem takeUnitTick_frame (s : State) :
    (takeUnitTick s).pending = s.pending ∧
    (takeUnitTick s).epoch = s.epoch ∧
    (takeUnitTick s).inReset = s.inReset ∧
    (takeUnitTick s).lanes = s.lanes ∧
    (takeUnitTick s).engine = s.engine ∧
    (takeUnitTick s).asm = s.asm ∧
    (takeUnitTick s).planner = s.planner ∧
    (takeUnitTick s).strike = s.strike ∧
    (takeUnitTick s).grading = s.grading ∧
    (takeUnitTick s).shift = s.shift ∧
    (takeUnitTick s).mem = s.mem ∧
    (takeUnitTick s).path = s.path ∧
    (takeUnitTick s).cmd = s.cmd ∧
    (takeUnitTick s).writer = s.writer := by
  unfold takeUnitTick
  try dsimp only
  (repeat' split) <;> simp []

/-- What travelSecond leaves as it was. -/
@[simp] theorem travelSecond_frame (s : State) :
    (travelSecond s).pending = s.pending ∧
    (travelSecond s).epoch = s.epoch ∧
    (travelSecond s).inReset = s.inReset ∧
    (travelSecond s).lanes = s.lanes ∧
    (travelSecond s).engine = s.engine ∧
    (travelSecond s).asm = s.asm ∧
    (travelSecond s).planner = s.planner ∧
    (travelSecond s).strike = s.strike ∧
    (travelSecond s).grading = s.grading ∧
    (travelSecond s).shift = s.shift ∧
    (travelSecond s).mem = s.mem ∧
    (travelSecond s).path = s.path ∧
    (travelSecond s).cmd = s.cmd ∧
    (travelSecond s).writer = s.writer := by
  unfold travelSecond
  try dsimp only
  (repeat' split) <;> simp []

/-- What State.takeOne leaves as it was. -/
@[simp] theorem State.takeOne_frame (s : State) (k : ReqKind) (q : Request) :
    (s.takeOne k q).pending = s.pending ∧
    (s.takeOne k q).epoch = s.epoch ∧
    (s.takeOne k q).inReset = s.inReset ∧
    (s.takeOne k q).travel = s.travel ∧
    (s.takeOne k q).lanes = s.lanes ∧
    (s.takeOne k q).engine = s.engine ∧
    (s.takeOne k q).asm = s.asm ∧
    (s.takeOne k q).planner = s.planner ∧
    (s.takeOne k q).strike = s.strike ∧
    (s.takeOne k q).grading = s.grading ∧
    (s.takeOne k q).shift = s.shift ∧
    (s.takeOne k q).mem = s.mem ∧
    (s.takeOne k q).path.anchorBase = s.path.anchorBase ∧
    (s.takeOne k q).path.runState = s.path.runState ∧
    (s.takeOne k q).path.map = s.path.map ∧
    (s.takeOne k q).path.heldOff = s.path.heldOff ∧
    (s.takeOne k q).path.internal = s.path.internal ∧
    (s.takeOne k q).cmd = s.cmd ∧
    (s.takeOne k q).writer = s.writer := by
  unfold State.takeOne
  try dsimp only
  (repeat' split) <;> simp []

/-- What State.request leaves as it was. -/
@[simp] theorem State.request_frame (s : State) (k : ReqKind) (q : Request) :
    (s.request k q).pending = s.pending ∧
    (s.request k q).epoch = s.epoch ∧
    (s.request k q).inReset = s.inReset ∧
    (s.request k q).travel = s.travel ∧
    (s.request k q).lanes = s.lanes ∧
    (s.request k q).engine = s.engine ∧
    (s.request k q).asm = s.asm ∧
    (s.request k q).planner = s.planner ∧
    (s.request k q).strike = s.strike ∧
    (s.request k q).grading = s.grading ∧
    (s.request k q).shift = s.shift ∧
    (s.request k q).mem = s.mem ∧
    (s.request k q).path.anchorBase = s.path.anchorBase ∧
    (s.request k q).path.runState = s.path.runState ∧
    (s.request k q).path.map = s.path.map ∧
    (s.request k q).path.internal = s.path.internal ∧
    (s.request k q).cmd = s.cmd ∧
    (s.request k q).writer = s.writer := by
  unfold State.request
  try dsimp only
  (repeat' split) <;> simp []

/-- What makeEligible leaves as it was. -/
@[simp] theorem makeEligible_frame (g : GroupId) (b : List Byte) (s : State) :
    (makeEligible g b s).pending = s.pending ∧
    (makeEligible g b s).epoch = s.epoch ∧
    (makeEligible g b s).inReset = s.inReset ∧
    (makeEligible g b s).travel = s.travel ∧
    (makeEligible g b s).lanes = s.lanes ∧
    (makeEligible g b s).engine = s.engine ∧
    (makeEligible g b s).asm = s.asm ∧
    (makeEligible g b s).planner = s.planner ∧
    (makeEligible g b s).strike = s.strike ∧
    (makeEligible g b s).grading = s.grading ∧
    (makeEligible g b s).shift.calendar = s.shift.calendar ∧
    (makeEligible g b s).shift.sub = s.shift.sub ∧
    (makeEligible g b s).shift.valid = s.shift.valid ∧
    (makeEligible g b s).shift.number = s.shift.number ∧
    (makeEligible g b s).shift.run = s.shift.run ∧
    (makeEligible g b s).shift.runState = s.shift.runState ∧
    (makeEligible g b s).mem = s.mem ∧
    (makeEligible g b s).path = s.path ∧
    (makeEligible g b s).cmd.runState = s.cmd.runState ∧
    (makeEligible g b s).cmd.lastReason = s.cmd.lastReason ∧
    (makeEligible g b s).cmd.shadow = s.cmd.shadow ∧
    (makeEligible g b s).cmd.post = s.cmd.post ∧
    (makeEligible g b s).cmd.seen = s.cmd.seen ∧
    (makeEligible g b s).cmd.taken = s.cmd.taken ∧
    (makeEligible g b s).cmd.completion = s.cmd.completion ∧
    (makeEligible g b s).cmd.execution = s.cmd.execution ∧
    (makeEligible g b s).cmd.run = s.cmd.run ∧
    (makeEligible g b s).writer = s.writer ∧
    (makeEligible g b s).wires = s.wires := by
  unfold makeEligible
  try dsimp only
  (repeat' split) <;> simp []

/-- What groupVerdict leaves as it was. -/
@[simp] theorem groupVerdict_frame (s : State) (g : GroupId) (q : Request) :
    ((groupVerdict s g q).2).pending = s.pending ∧
    ((groupVerdict s g q).2).epoch = s.epoch ∧
    ((groupVerdict s g q).2).inReset = s.inReset ∧
    ((groupVerdict s g q).2).travel = s.travel ∧
    ((groupVerdict s g q).2).lanes = s.lanes ∧
    ((groupVerdict s g q).2).engine = s.engine ∧
    ((groupVerdict s g q).2).asm = s.asm ∧
    ((groupVerdict s g q).2).planner = s.planner ∧
    ((groupVerdict s g q).2).strike = s.strike ∧
    ((groupVerdict s g q).2).grading = s.grading ∧
    ((groupVerdict s g q).2).shift.calendar = s.shift.calendar ∧
    ((groupVerdict s g q).2).shift.sub = s.shift.sub ∧
    ((groupVerdict s g q).2).shift.valid = s.shift.valid ∧
    ((groupVerdict s g q).2).shift.number = s.shift.number ∧
    ((groupVerdict s g q).2).shift.run = s.shift.run ∧
    ((groupVerdict s g q).2).shift.runState = s.shift.runState ∧
    ((groupVerdict s g q).2).mem = s.mem ∧
    ((groupVerdict s g q).2).path = s.path ∧
    ((groupVerdict s g q).2).cmd.runState = s.cmd.runState ∧
    ((groupVerdict s g q).2).cmd.lastReason = s.cmd.lastReason ∧
    ((groupVerdict s g q).2).cmd.shadow = s.cmd.shadow ∧
    ((groupVerdict s g q).2).cmd.post = s.cmd.post ∧
    ((groupVerdict s g q).2).cmd.seen = s.cmd.seen ∧
    ((groupVerdict s g q).2).cmd.taken = s.cmd.taken ∧
    ((groupVerdict s g q).2).cmd.completion = s.cmd.completion ∧
    ((groupVerdict s g q).2).cmd.execution = s.cmd.execution ∧
    ((groupVerdict s g q).2).cmd.run = s.cmd.run ∧
    ((groupVerdict s g q).2).writer = s.writer ∧
    ((groupVerdict s g q).2).wires = s.wires := by
  unfold groupVerdict
  try dsimp only
  (repeat' split) <;> simp []

/-- What takeVerdictRequest leaves as it was. -/
@[simp] theorem takeVerdictRequest_frame (m : VerdictRequest) (s : State) :
    (takeVerdictRequest m s).pending = s.pending ∧
    (takeVerdictRequest m s).epoch = s.epoch ∧
    (takeVerdictRequest m s).inReset = s.inReset ∧
    (takeVerdictRequest m s).travel = s.travel ∧
    (takeVerdictRequest m s).lanes = s.lanes ∧
    (takeVerdictRequest m s).engine = s.engine ∧
    (takeVerdictRequest m s).asm = s.asm ∧
    (takeVerdictRequest m s).planner = s.planner ∧
    (takeVerdictRequest m s).strike = s.strike ∧
    (takeVerdictRequest m s).grading = s.grading ∧
    (takeVerdictRequest m s).shift.calendar = s.shift.calendar ∧
    (takeVerdictRequest m s).shift.sub = s.shift.sub ∧
    (takeVerdictRequest m s).shift.valid = s.shift.valid ∧
    (takeVerdictRequest m s).shift.number = s.shift.number ∧
    (takeVerdictRequest m s).shift.run = s.shift.run ∧
    (takeVerdictRequest m s).shift.runState = s.shift.runState ∧
    (takeVerdictRequest m s).mem = s.mem ∧
    (takeVerdictRequest m s).path = s.path ∧
    (takeVerdictRequest m s).cmd.runState = s.cmd.runState ∧
    (takeVerdictRequest m s).cmd.lastReason = s.cmd.lastReason ∧
    (takeVerdictRequest m s).cmd.shadow = s.cmd.shadow ∧
    (takeVerdictRequest m s).cmd.post = s.cmd.post ∧
    (takeVerdictRequest m s).cmd.seen = s.cmd.seen ∧
    (takeVerdictRequest m s).cmd.taken = s.cmd.taken ∧
    (takeVerdictRequest m s).cmd.completion = s.cmd.completion ∧
    (takeVerdictRequest m s).cmd.execution = s.cmd.execution ∧
    (takeVerdictRequest m s).cmd.run = s.cmd.run ∧
    (takeVerdictRequest m s).writer = s.writer := by
  unfold takeVerdictRequest
  try dsimp only
  (repeat' split) <;> simp []

/-- What takeSeenWrite leaves as it was. -/
@[simp] theorem takeSeenWrite_frame (m : SeenWrite) (s : State) :
    (takeSeenWrite m s).pending = s.pending ∧
    (takeSeenWrite m s).epoch = s.epoch ∧
    (takeSeenWrite m s).inReset = s.inReset ∧
    (takeSeenWrite m s).travel = s.travel ∧
    (takeSeenWrite m s).lanes = s.lanes ∧
    (takeSeenWrite m s).engine = s.engine ∧
    (takeSeenWrite m s).asm = s.asm ∧
    (takeSeenWrite m s).planner = s.planner ∧
    (takeSeenWrite m s).strike = s.strike ∧
    (takeSeenWrite m s).grading = s.grading ∧
    (takeSeenWrite m s).shift = s.shift ∧
    (takeSeenWrite m s).mem = s.mem ∧
    (takeSeenWrite m s).path = s.path ∧
    (takeSeenWrite m s).cmd.runState = s.cmd.runState ∧
    (takeSeenWrite m s).cmd.lastReason = s.cmd.lastReason ∧
    (takeSeenWrite m s).cmd.shadow = s.cmd.shadow ∧
    (takeSeenWrite m s).cmd.post = s.cmd.post ∧
    (takeSeenWrite m s).cmd.taken = s.cmd.taken ∧
    (takeSeenWrite m s).cmd.completion = s.cmd.completion ∧
    (takeSeenWrite m s).cmd.execution = s.cmd.execution ∧
    (takeSeenWrite m s).cmd.run = s.cmd.run ∧
    (takeSeenWrite m s).writer.logs = s.writer.logs ∧
    (takeSeenWrite m s).writer.calendar = s.writer.calendar ∧
    (takeSeenWrite m s).writer.clockValid = s.writer.clockValid ∧
    (takeSeenWrite m s).wires = s.wires := by
  unfold takeSeenWrite
  try dsimp only
  (repeat' split) <;> simp [State.evalAttn, State.setCmd]

/-- What commandTake leaves as it was. -/
@[simp] theorem commandTake_frame (s : State) :
    (commandTake s).pending = s.pending ∧
    (commandTake s).epoch = s.epoch ∧
    (commandTake s).inReset = s.inReset ∧
    (commandTake s).travel = s.travel ∧
    (commandTake s).lanes = s.lanes ∧
    (commandTake s).engine = s.engine ∧
    (commandTake s).asm = s.asm ∧
    (commandTake s).planner = s.planner ∧
    (commandTake s).strike = s.strike ∧
    (commandTake s).grading = s.grading ∧
    (commandTake s).shift = s.shift ∧
    (commandTake s).mem = s.mem ∧
    (commandTake s).path.anchorBase = s.path.anchorBase ∧
    (commandTake s).path.runState = s.path.runState ∧
    (commandTake s).path.map = s.path.map ∧
    (commandTake s).path.queue = s.path.queue ∧
    (commandTake s).path.heldOff = s.path.heldOff ∧
    (commandTake s).path.nextId = s.path.nextId ∧
    (commandTake s).cmd.runState = s.cmd.runState ∧
    (commandTake s).cmd.lastReason = s.cmd.lastReason ∧
    (commandTake s).cmd.shadow = s.cmd.shadow ∧
    (commandTake s).cmd.post = s.cmd.post ∧
    (commandTake s).cmd.seen = s.cmd.seen ∧
    (commandTake s).cmd.completion = s.cmd.completion ∧
    (commandTake s).cmd.run = s.cmd.run ∧
    (commandTake s).writer.logs = s.writer.logs ∧
    (commandTake s).writer.calendar = s.writer.calendar ∧
    (commandTake s).writer.clockValid = s.writer.clockValid ∧
    (commandTake s).writer.attn = s.writer.attn := by
  unfold commandTake
  try dsimp only
  (repeat' split) <;> simp []

/-- What commandCompletion leaves as it was. -/
@[simp] theorem commandCompletion_frame (s : State) :
    (commandCompletion s).pending = s.pending ∧
    (commandCompletion s).epoch = s.epoch ∧
    (commandCompletion s).inReset = s.inReset ∧
    (commandCompletion s).travel = s.travel ∧
    (commandCompletion s).lanes = s.lanes ∧
    (commandCompletion s).engine = s.engine ∧
    (commandCompletion s).asm = s.asm ∧
    (commandCompletion s).planner = s.planner ∧
    (commandCompletion s).strike = s.strike ∧
    (commandCompletion s).grading = s.grading ∧
    (commandCompletion s).shift = s.shift ∧
    (commandCompletion s).mem = s.mem ∧
    (commandCompletion s).path.anchorBase = s.path.anchorBase ∧
    (commandCompletion s).path.runState = s.path.runState ∧
    (commandCompletion s).path.map = s.path.map ∧
    (commandCompletion s).path.queue = s.path.queue ∧
    (commandCompletion s).path.heldOff = s.path.heldOff ∧
    (commandCompletion s).path.nextId = s.path.nextId ∧
    (commandCompletion s).cmd.runState = s.cmd.runState ∧
    (commandCompletion s).cmd.lastReason = s.cmd.lastReason ∧
    (commandCompletion s).cmd.shadow = s.cmd.shadow ∧
    (commandCompletion s).cmd.post = s.cmd.post ∧
    (commandCompletion s).cmd.seen = s.cmd.seen ∧
    (commandCompletion s).cmd.taken = s.cmd.taken ∧
    (commandCompletion s).cmd.run = s.cmd.run ∧
    (commandCompletion s).writer.logs = s.writer.logs ∧
    (commandCompletion s).writer.calendar = s.writer.calendar ∧
    (commandCompletion s).writer.clockValid = s.writer.clockValid ∧
    (commandCompletion s).writer.attn = s.writer.attn := by
  unfold commandCompletion
  try dsimp only
  (repeat' split) <;> simp []

/-- What slotData leaves as it was. -/
@[simp] theorem slotData_frame (b : List Byte) (s : State) :
    (slotData b s).pending = s.pending ∧
    (slotData b s).epoch = s.epoch ∧
    (slotData b s).inReset = s.inReset ∧
    (slotData b s).travel = s.travel ∧
    (slotData b s).lanes = s.lanes ∧
    (slotData b s).engine = s.engine ∧
    (slotData b s).asm = s.asm ∧
    (slotData b s).planner = s.planner ∧
    (slotData b s).strike = s.strike ∧
    (slotData b s).grading = s.grading ∧
    (slotData b s).shift = s.shift ∧
    (slotData b s).mem = s.mem ∧
    (slotData b s).path = s.path ∧
    (slotData b s).cmd.runState = s.cmd.runState ∧
    (slotData b s).cmd.lastReason = s.cmd.lastReason ∧
    (slotData b s).cmd.shadow = s.cmd.shadow ∧
    (slotData b s).cmd.post = s.cmd.post ∧
    (slotData b s).cmd.seen = s.cmd.seen ∧
    (slotData b s).cmd.taken = s.cmd.taken ∧
    (slotData b s).cmd.completion = s.cmd.completion ∧
    (slotData b s).cmd.run = s.cmd.run ∧
    (slotData b s).writer = s.writer ∧
    (slotData b s).wires = s.wires := by
  unfold slotData
  try dsimp only
  (repeat' split) <;> simp []

/-- What areaData leaves as it was. -/
@[simp] theorem areaData_frame (b : List Byte) (s : State) :
    (areaData b s).pending = s.pending ∧
    (areaData b s).epoch = s.epoch ∧
    (areaData b s).inReset = s.inReset ∧
    (areaData b s).travel = s.travel ∧
    (areaData b s).lanes = s.lanes ∧
    (areaData b s).engine = s.engine ∧
    (areaData b s).asm = s.asm ∧
    (areaData b s).planner = s.planner ∧
    (areaData b s).strike = s.strike ∧
    (areaData b s).grading = s.grading ∧
    (areaData b s).shift = s.shift ∧
    (areaData b s).mem = s.mem ∧
    (areaData b s).path = s.path ∧
    (areaData b s).cmd.runState = s.cmd.runState ∧
    (areaData b s).cmd.lastReason = s.cmd.lastReason ∧
    (areaData b s).cmd.shadow = s.cmd.shadow ∧
    (areaData b s).cmd.post = s.cmd.post ∧
    (areaData b s).cmd.seen = s.cmd.seen ∧
    (areaData b s).cmd.taken = s.cmd.taken ∧
    (areaData b s).cmd.completion = s.cmd.completion ∧
    (areaData b s).cmd.run = s.cmd.run ∧
    (areaData b s).writer = s.writer ∧
    (areaData b s).wires = s.wires := by
  unfold areaData
  try dsimp only
  (repeat' split) <;> simp []

/-- What memoryAnswer leaves as it was. -/
@[simp] theorem memoryAnswer_frame (s : State) :
    (memoryAnswer s).pending = s.pending ∧
    (memoryAnswer s).epoch = s.epoch ∧
    (memoryAnswer s).inReset = s.inReset ∧
    (memoryAnswer s).travel = s.travel ∧
    (memoryAnswer s).lanes = s.lanes ∧
    (memoryAnswer s).engine = s.engine ∧
    (memoryAnswer s).asm = s.asm ∧
    (memoryAnswer s).planner = s.planner ∧
    (memoryAnswer s).strike = s.strike ∧
    (memoryAnswer s).grading = s.grading ∧
    (memoryAnswer s).shift = s.shift ∧
    (memoryAnswer s).mem = s.mem ∧
    (memoryAnswer s).path.anchorBase = s.path.anchorBase ∧
    (memoryAnswer s).path.runState = s.path.runState ∧
    (memoryAnswer s).path.map = s.path.map ∧
    (memoryAnswer s).path.queue = s.path.queue ∧
    (memoryAnswer s).path.heldOff = s.path.heldOff ∧
    (memoryAnswer s).path.internal = s.path.internal ∧
    (memoryAnswer s).path.nextId = s.path.nextId ∧
    (memoryAnswer s).cmd.runState = s.cmd.runState ∧
    (memoryAnswer s).cmd.lastReason = s.cmd.lastReason ∧
    (memoryAnswer s).cmd.shadow = s.cmd.shadow ∧
    (memoryAnswer s).cmd.post = s.cmd.post ∧
    (memoryAnswer s).cmd.seen = s.cmd.seen ∧
    (memoryAnswer s).cmd.taken = s.cmd.taken ∧
    (memoryAnswer s).cmd.completion = s.cmd.completion ∧
    (memoryAnswer s).cmd.run = s.cmd.run ∧
    (memoryAnswer s).writer = s.writer ∧
    (memoryAnswer s).wires = s.wires := by
  unfold memoryAnswer
  try dsimp only
  (repeat' split) <;> simp []

/-- What entryWritten leaves as it was. -/
@[simp] theorem entryWritten_frame (l : LogId) (n : Nat) (s : State) :
    (entryWritten l n s).pending = s.pending ∧
    (entryWritten l n s).epoch = s.epoch ∧
    (entryWritten l n s).inReset = s.inReset ∧
    (entryWritten l n s).travel = s.travel ∧
    (entryWritten l n s).lanes = s.lanes ∧
    (entryWritten l n s).engine = s.engine ∧
    (entryWritten l n s).asm = s.asm ∧
    (entryWritten l n s).planner = s.planner ∧
    (entryWritten l n s).strike = s.strike ∧
    (entryWritten l n s).grading = s.grading ∧
    (entryWritten l n s).shift = s.shift ∧
    (entryWritten l n s).mem = s.mem ∧
    (entryWritten l n s).path = s.path ∧
    (entryWritten l n s).cmd = s.cmd ∧
    (entryWritten l n s).writer.calendar = s.writer.calendar ∧
    (entryWritten l n s).writer.clockValid = s.writer.clockValid ∧
    (entryWritten l n s).wires = s.wires := by
  unfold entryWritten
  try dsimp only
  (repeat' split) <;> simp []

/-- What txnEffect leaves as it was. -/
@[simp] theorem txnEffect_frame (t : Txn) (s : State) :
    (txnEffect t s).pending = s.pending ∧
    (txnEffect t s).epoch = s.epoch ∧
    (txnEffect t s).inReset = s.inReset ∧
    (txnEffect t s).travel = s.travel ∧
    (txnEffect t s).lanes = s.lanes ∧
    (txnEffect t s).engine = s.engine ∧
    (txnEffect t s).asm = s.asm ∧
    (txnEffect t s).planner = s.planner ∧
    (txnEffect t s).strike = s.strike ∧
    (txnEffect t s).grading = s.grading ∧
    (txnEffect t s).shift = s.shift ∧
    (txnEffect t s).mem = s.mem ∧
    (txnEffect t s).path.anchorBase = s.path.anchorBase ∧
    (txnEffect t s).path.runState = s.path.runState ∧
    (txnEffect t s).path.map = s.path.map ∧
    (txnEffect t s).path.heldOff = s.path.heldOff ∧
    (txnEffect t s).path.internal = s.path.internal ∧
    (txnEffect t s).path.nextId = s.path.nextId ∧
    (txnEffect t s).cmd = s.cmd ∧
    (txnEffect t s).writer.calendar = s.writer.calendar ∧
    (txnEffect t s).writer.clockValid = s.writer.clockValid ∧
    (txnEffect t s).wires = s.wires := by
  unfold txnEffect
  try dsimp only
  (repeat' split) <;> simp [rewriteLeft]

/-- What txnMemory leaves as it was. -/
@[simp] theorem txnMemory_frame (t : Txn) (s : State) :
    (txnMemory t s).pending = s.pending ∧
    (txnMemory t s).epoch = s.epoch ∧
    (txnMemory t s).inReset = s.inReset ∧
    (txnMemory t s).travel = s.travel ∧
    (txnMemory t s).lanes = s.lanes ∧
    (txnMemory t s).engine = s.engine ∧
    (txnMemory t s).asm = s.asm ∧
    (txnMemory t s).planner = s.planner ∧
    (txnMemory t s).strike = s.strike ∧
    (txnMemory t s).grading = s.grading ∧
    (txnMemory t s).shift = s.shift ∧
    (txnMemory t s).path.anchorBase = s.path.anchorBase ∧
    (txnMemory t s).path.runState = s.path.runState ∧
    (txnMemory t s).path.map = s.path.map ∧
    (txnMemory t s).path.queue = s.path.queue ∧
    (txnMemory t s).path.heldOff = s.path.heldOff ∧
    (txnMemory t s).path.internal = s.path.internal ∧
    (txnMemory t s).path.nextId = s.path.nextId ∧
    (txnMemory t s).cmd = s.cmd ∧
    (txnMemory t s).writer = s.writer ∧
    (txnMemory t s).wires = s.wires := by
  unfold txnMemory
  try dsimp only
  (repeat' split) <;> simp []

/-- What sendInternal leaves as it was. -/
@[simp] theorem sendInternal_frame (t : Txn) (r : List Txn) (s : State) :
    (sendInternal t r s).pending = s.pending ∧
    (sendInternal t r s).epoch = s.epoch ∧
    (sendInternal t r s).inReset = s.inReset ∧
    (sendInternal t r s).travel = s.travel ∧
    (sendInternal t r s).lanes = s.lanes ∧
    (sendInternal t r s).engine = s.engine ∧
    (sendInternal t r s).asm = s.asm ∧
    (sendInternal t r s).planner = s.planner ∧
    (sendInternal t r s).strike = s.strike ∧
    (sendInternal t r s).grading = s.grading ∧
    (sendInternal t r s).shift = s.shift ∧
    (sendInternal t r s).path.anchorBase = s.path.anchorBase ∧
    (sendInternal t r s).path.runState = s.path.runState ∧
    (sendInternal t r s).path.map = s.path.map ∧
    (sendInternal t r s).path.heldOff = s.path.heldOff ∧
    (sendInternal t r s).path.nextId = s.path.nextId ∧
    (sendInternal t r s).cmd.runState = s.cmd.runState ∧
    (sendInternal t r s).cmd.lastReason = s.cmd.lastReason ∧
    (sendInternal t r s).cmd.shadow = s.cmd.shadow ∧
    (sendInternal t r s).cmd.post = s.cmd.post ∧
    (sendInternal t r s).cmd.seen = s.cmd.seen ∧
    (sendInternal t r s).cmd.taken = s.cmd.taken ∧
    (sendInternal t r s).cmd.completion = s.cmd.completion ∧
    (sendInternal t r s).cmd.execution = s.cmd.execution ∧
    (sendInternal t r s).cmd.run = s.cmd.run ∧
    (sendInternal t r s).writer.calendar = s.writer.calendar ∧
    (sendInternal t r s).writer.clockValid = s.writer.clockValid := by
  unfold sendInternal
  try dsimp only
  (repeat' split) <;> simp []

/-- What takeHeldOff leaves as it was. -/
@[simp] theorem takeHeldOff_frame (hs : List HeldOff) (s : State) :
    (takeHeldOff hs s).pending = s.pending ∧
    (takeHeldOff hs s).epoch = s.epoch ∧
    (takeHeldOff hs s).inReset = s.inReset ∧
    (takeHeldOff hs s).travel = s.travel ∧
    (takeHeldOff hs s).lanes = s.lanes ∧
    (takeHeldOff hs s).engine = s.engine ∧
    (takeHeldOff hs s).asm = s.asm ∧
    (takeHeldOff hs s).planner = s.planner ∧
    (takeHeldOff hs s).strike = s.strike ∧
    (takeHeldOff hs s).grading = s.grading ∧
    (takeHeldOff hs s).shift = s.shift ∧
    (takeHeldOff hs s).mem = s.mem ∧
    (takeHeldOff hs s).path.anchorBase = s.path.anchorBase ∧
    (takeHeldOff hs s).path.runState = s.path.runState ∧
    (takeHeldOff hs s).path.map = s.path.map ∧
    (takeHeldOff hs s).path.internal = s.path.internal ∧
    (takeHeldOff hs s).cmd = s.cmd ∧
    (takeHeldOff hs s).writer = s.writer := by
  induction hs generalizing s with
  | nil => simp [takeHeldOff]
  | cons h hs ih =>
    unfold takeHeldOff
    split <;> simp [ih]

/-- What State.takeHeld leaves as it was. -/
@[simp] theorem State.takeHeld_frame (s : State) :
    (s.takeHeld).pending = s.pending ∧
    (s.takeHeld).epoch = s.epoch ∧
    (s.takeHeld).inReset = s.inReset ∧
    (s.takeHeld).travel = s.travel ∧
    (s.takeHeld).lanes = s.lanes ∧
    (s.takeHeld).engine = s.engine ∧
    (s.takeHeld).asm = s.asm ∧
    (s.takeHeld).planner = s.planner ∧
    (s.takeHeld).strike = s.strike ∧
    (s.takeHeld).grading = s.grading ∧
    (s.takeHeld).shift = s.shift ∧
    (s.takeHeld).mem = s.mem ∧
    (s.takeHeld).path.anchorBase = s.path.anchorBase ∧
    (s.takeHeld).path.runState = s.path.runState ∧
    (s.takeHeld).path.map = s.path.map ∧
    (s.takeHeld).path.internal = s.path.internal ∧
    (s.takeHeld).cmd = s.cmd ∧
    (s.takeHeld).writer = s.writer := by
  unfold State.takeHeld
  try dsimp only
  (repeat' split) <;> simp []

/-- What readRequest leaves as it was. -/
@[simp] theorem readRequest_frame (q : Request) (s : State) :
    (readRequest q s).pending = s.pending ∧
    (readRequest q s).epoch = s.epoch ∧
    (readRequest q s).inReset = s.inReset ∧
    (readRequest q s).travel = s.travel ∧
    (readRequest q s).lanes = s.lanes ∧
    (readRequest q s).engine = s.engine ∧
    (readRequest q s).asm = s.asm ∧
    (readRequest q s).planner = s.planner ∧
    (readRequest q s).strike = s.strike ∧
    (readRequest q s).grading = s.grading ∧
    (readRequest q s).shift = s.shift ∧
    (readRequest q s).mem = s.mem ∧
    (readRequest q s).path.anchorBase = s.path.anchorBase ∧
    (readRequest q s).path.runState = s.path.runState ∧
    (readRequest q s).path.map = s.path.map ∧
    (readRequest q s).path.internal = s.path.internal ∧
    (readRequest q s).cmd = s.cmd ∧
    (readRequest q s).writer = s.writer := by
  unfold readRequest
  try dsimp only
  (repeat' split) <;> simp []

/-- What writeRequest leaves as it was. -/
@[simp] theorem writeRequest_frame (q : Request) (s : State) :
    (writeRequest q s).pending = s.pending ∧
    (writeRequest q s).epoch = s.epoch ∧
    (writeRequest q s).inReset = s.inReset ∧
    (writeRequest q s).travel = s.travel ∧
    (writeRequest q s).lanes = s.lanes ∧
    (writeRequest q s).engine = s.engine ∧
    (writeRequest q s).asm = s.asm ∧
    (writeRequest q s).planner = s.planner ∧
    (writeRequest q s).strike = s.strike ∧
    (writeRequest q s).grading = s.grading ∧
    (writeRequest q s).shift = s.shift ∧
    (writeRequest q s).mem = s.mem ∧
    (writeRequest q s).path.anchorBase = s.path.anchorBase ∧
    (writeRequest q s).path.runState = s.path.runState ∧
    (writeRequest q s).path.map = s.path.map ∧
    (writeRequest q s).path.internal = s.path.internal ∧
    (writeRequest q s).cmd = s.cmd ∧
    (writeRequest q s).writer = s.writer := by
  unfold writeRequest
  try dsimp only
  (repeat' split) <;> simp []

/-- What takeVerdict leaves as it was. -/
@[simp] theorem takeVerdict_frame (m : VerdictMsg) (s : State) :
    (takeVerdict m s).pending = s.pending ∧
    (takeVerdict m s).epoch = s.epoch ∧
    (takeVerdict m s).inReset = s.inReset ∧
    (takeVerdict m s).travel = s.travel ∧
    (takeVerdict m s).lanes = s.lanes ∧
    (takeVerdict m s).engine = s.engine ∧
    (takeVerdict m s).asm = s.asm ∧
    (takeVerdict m s).planner = s.planner ∧
    (takeVerdict m s).strike = s.strike ∧
    (takeVerdict m s).grading = s.grading ∧
    (takeVerdict m s).shift = s.shift ∧
    (takeVerdict m s).mem = s.mem ∧
    (takeVerdict m s).path.anchorBase = s.path.anchorBase ∧
    (takeVerdict m s).path.runState = s.path.runState ∧
    (takeVerdict m s).path.map = s.path.map ∧
    (takeVerdict m s).path.internal = s.path.internal ∧
    (takeVerdict m s).cmd = s.cmd ∧
    (takeVerdict m s).writer = s.writer := by
  unfold takeVerdict
  try dsimp only
  (repeat' split) <;> simp []

/-- What takeAnnouncement leaves as it was. -/
@[simp] theorem takeAnnouncement_frame (m : PendingRewrite) (s : State) :
    (takeAnnouncement m s).pending = s.pending ∧
    (takeAnnouncement m s).epoch = s.epoch ∧
    (takeAnnouncement m s).inReset = s.inReset ∧
    (takeAnnouncement m s).travel = s.travel ∧
    (takeAnnouncement m s).lanes = s.lanes ∧
    (takeAnnouncement m s).engine = s.engine ∧
    (takeAnnouncement m s).asm = s.asm ∧
    (takeAnnouncement m s).planner = s.planner ∧
    (takeAnnouncement m s).strike = s.strike ∧
    (takeAnnouncement m s).grading = s.grading ∧
    (takeAnnouncement m s).shift = s.shift ∧
    (takeAnnouncement m s).mem = s.mem ∧
    (takeAnnouncement m s).path.anchorBase = s.path.anchorBase ∧
    (takeAnnouncement m s).path.runState = s.path.runState ∧
    (takeAnnouncement m s).path.map = s.path.map ∧
    (takeAnnouncement m s).path.heldOff = s.path.heldOff ∧
    (takeAnnouncement m s).path.internal = s.path.internal ∧
    (takeAnnouncement m s).path.nextId = s.path.nextId ∧
    (takeAnnouncement m s).cmd = s.cmd ∧
    (takeAnnouncement m s).writer = s.writer ∧
    (takeAnnouncement m s).wires = s.wires := by
  unfold takeAnnouncement
  try dsimp only
  (repeat' split) <;> simp []

/-- What copyConfig leaves as it was. -/
@[simp] theorem copyConfig_frame (q : Request) (s : State) :
    (copyConfig q s).pending = s.pending ∧
    (copyConfig q s).epoch = s.epoch ∧
    (copyConfig q s).inReset = s.inReset ∧
    (copyConfig q s).travel = s.travel ∧
    (copyConfig q s).lanes = s.lanes ∧
    (copyConfig q s).engine = s.engine ∧
    (copyConfig q s).asm = s.asm ∧
    (copyConfig q s).planner = s.planner ∧
    (copyConfig q s).strike = s.strike ∧
    (copyConfig q s).grading = s.grading ∧
    (copyConfig q s).shift = s.shift ∧
    (copyConfig q s).mem = s.mem ∧
    (copyConfig q s).path = s.path ∧
    (copyConfig q s).cmd.runState = s.cmd.runState ∧
    (copyConfig q s).cmd.lastReason = s.cmd.lastReason ∧
    (copyConfig q s).cmd.shadow = s.cmd.shadow ∧
    (copyConfig q s).cmd.post = s.cmd.post ∧
    (copyConfig q s).cmd.seen = s.cmd.seen ∧
    (copyConfig q s).cmd.taken = s.cmd.taken ∧
    (copyConfig q s).cmd.completion = s.cmd.completion ∧
    (copyConfig q s).cmd.execution = s.cmd.execution ∧
    (copyConfig q s).cmd.run = s.cmd.run ∧
    (copyConfig q s).writer = s.writer ∧
    (copyConfig q s).wires = s.wires := by
  unfold copyConfig
  try dsimp only
  (repeat' split) <;> simp []

/-- What copyCommand leaves as it was. -/
@[simp] theorem copyCommand_frame (q : Request) (s : State) :
    (copyCommand q s).pending = s.pending ∧
    (copyCommand q s).epoch = s.epoch ∧
    (copyCommand q s).inReset = s.inReset ∧
    (copyCommand q s).travel = s.travel ∧
    (copyCommand q s).lanes = s.lanes ∧
    (copyCommand q s).engine = s.engine ∧
    (copyCommand q s).asm = s.asm ∧
    (copyCommand q s).planner = s.planner ∧
    (copyCommand q s).strike = s.strike ∧
    (copyCommand q s).grading = s.grading ∧
    (copyCommand q s).shift = s.shift ∧
    (copyCommand q s).mem = s.mem ∧
    (copyCommand q s).path = s.path ∧
    (copyCommand q s).cmd.runState = s.cmd.runState ∧
    (copyCommand q s).cmd.lastReason = s.cmd.lastReason ∧
    (copyCommand q s).cmd.shadow = s.cmd.shadow ∧
    (copyCommand q s).cmd.seen = s.cmd.seen ∧
    (copyCommand q s).cmd.taken = s.cmd.taken ∧
    (copyCommand q s).cmd.completion = s.cmd.completion ∧
    (copyCommand q s).cmd.execution = s.cmd.execution ∧
    (copyCommand q s).cmd.run = s.cmd.run ∧
    (copyCommand q s).writer = s.writer := by
  unfold copyCommand
  try dsimp only
  (repeat' split) <;> simp []

/-- What copyOn leaves as it was. -/
@[simp] theorem copyOn_frame (e : PassEntry) (s : State) :
    (copyOn e s).pending = s.pending ∧
    (copyOn e s).epoch = s.epoch ∧
    (copyOn e s).inReset = s.inReset ∧
    (copyOn e s).travel = s.travel ∧
    (copyOn e s).lanes = s.lanes ∧
    (copyOn e s).engine = s.engine ∧
    (copyOn e s).asm = s.asm ∧
    (copyOn e s).planner = s.planner ∧
    (copyOn e s).strike = s.strike ∧
    (copyOn e s).grading = s.grading ∧
    (copyOn e s).shift = s.shift ∧
    (copyOn e s).mem = s.mem ∧
    (copyOn e s).path = s.path ∧
    (copyOn e s).cmd.runState = s.cmd.runState ∧
    (copyOn e s).cmd.lastReason = s.cmd.lastReason ∧
    (copyOn e s).cmd.shadow = s.cmd.shadow ∧
    (copyOn e s).cmd.seen = s.cmd.seen ∧
    (copyOn e s).cmd.taken = s.cmd.taken ∧
    (copyOn e s).cmd.completion = s.cmd.completion ∧
    (copyOn e s).cmd.execution = s.cmd.execution ∧
    (copyOn e s).cmd.run = s.cmd.run ∧
    (copyOn e s).writer = s.writer := by
  unfold copyOn
  try dsimp only
  (repeat' split) <;> simp []

/-- What passEffect leaves as it was. -/
@[simp] theorem passEffect_frame (e : PassEntry) (s : State) :
    (passEffect e s).pending = s.pending ∧
    (passEffect e s).epoch = s.epoch ∧
    (passEffect e s).inReset = s.inReset ∧
    (passEffect e s).travel = s.travel ∧
    (passEffect e s).lanes = s.lanes ∧
    (passEffect e s).engine = s.engine ∧
    (passEffect e s).asm = s.asm ∧
    (passEffect e s).planner = s.planner ∧
    (passEffect e s).strike = s.strike ∧
    (passEffect e s).grading = s.grading ∧
    (passEffect e s).shift = s.shift ∧
    (passEffect e s).path.anchorBase = s.path.anchorBase ∧
    (passEffect e s).path.runState = s.path.runState ∧
    (passEffect e s).path.map = s.path.map ∧
    (passEffect e s).path.queue = s.path.queue ∧
    (passEffect e s).path.heldOff = s.path.heldOff ∧
    (passEffect e s).path.internal = s.path.internal ∧
    (passEffect e s).path.nextId = s.path.nextId ∧
    (passEffect e s).cmd.runState = s.cmd.runState ∧
    (passEffect e s).cmd.lastReason = s.cmd.lastReason ∧
    (passEffect e s).cmd.shadow = s.cmd.shadow ∧
    (passEffect e s).cmd.seen = s.cmd.seen ∧
    (passEffect e s).cmd.taken = s.cmd.taken ∧
    (passEffect e s).cmd.completion = s.cmd.completion ∧
    (passEffect e s).cmd.execution = s.cmd.execution ∧
    (passEffect e s).cmd.run = s.cmd.run ∧
    (passEffect e s).writer = s.writer := by
  unfold passEffect
  try dsimp only
  (repeat' split) <;> simp []

/-- What sendPass leaves as it was. -/
@[simp] theorem sendPass_frame (e : PassEntry) (r : List PassEntry) (s : State) :
    (sendPass e r s).pending = s.pending ∧
    (sendPass e r s).epoch = s.epoch ∧
    (sendPass e r s).inReset = s.inReset ∧
    (sendPass e r s).travel = s.travel ∧
    (sendPass e r s).lanes = s.lanes ∧
    (sendPass e r s).engine = s.engine ∧
    (sendPass e r s).asm = s.asm ∧
    (sendPass e r s).planner = s.planner ∧
    (sendPass e r s).strike = s.strike ∧
    (sendPass e r s).grading = s.grading ∧
    (sendPass e r s).shift = s.shift ∧
    (sendPass e r s).path.anchorBase = s.path.anchorBase ∧
    (sendPass e r s).path.runState = s.path.runState ∧
    (sendPass e r s).path.map = s.path.map ∧
    (sendPass e r s).path.internal = s.path.internal ∧
    (sendPass e r s).cmd.runState = s.cmd.runState ∧
    (sendPass e r s).cmd.lastReason = s.cmd.lastReason ∧
    (sendPass e r s).cmd.shadow = s.cmd.shadow ∧
    (sendPass e r s).cmd.seen = s.cmd.seen ∧
    (sendPass e r s).cmd.taken = s.cmd.taken ∧
    (sendPass e r s).cmd.completion = s.cmd.completion ∧
    (sendPass e r s).cmd.execution = s.cmd.execution ∧
    (sendPass e r s).cmd.run = s.cmd.run ∧
    (sendPass e r s).writer = s.writer := by
  unfold sendPass
  try dsimp only
  (repeat' split) <;> simp []

/-- What mPortSend leaves as it was. -/
@[simp] theorem mPortSend_frame (s : State) :
    (mPortSend s).pending = s.pending ∧
    (mPortSend s).epoch = s.epoch ∧
    (mPortSend s).inReset = s.inReset ∧
    (mPortSend s).travel = s.travel ∧
    (mPortSend s).lanes = s.lanes ∧
    (mPortSend s).engine = s.engine ∧
    (mPortSend s).asm = s.asm ∧
    (mPortSend s).planner = s.planner ∧
    (mPortSend s).strike = s.strike ∧
    (mPortSend s).grading = s.grading ∧
    (mPortSend s).shift = s.shift ∧
    (mPortSend s).path.anchorBase = s.path.anchorBase ∧
    (mPortSend s).path.runState = s.path.runState ∧
    (mPortSend s).path.map = s.path.map ∧
    (mPortSend s).cmd.runState = s.cmd.runState ∧
    (mPortSend s).cmd.lastReason = s.cmd.lastReason ∧
    (mPortSend s).cmd.shadow = s.cmd.shadow ∧
    (mPortSend s).cmd.seen = s.cmd.seen ∧
    (mPortSend s).cmd.taken = s.cmd.taken ∧
    (mPortSend s).cmd.completion = s.cmd.completion ∧
    (mPortSend s).cmd.execution = s.cmd.execution ∧
    (mPortSend s).cmd.run = s.cmd.run ∧
    (mPortSend s).writer.calendar = s.writer.calendar ∧
    (mPortSend s).writer.clockValid = s.writer.clockValid := by
  unfold mPortSend
  try dsimp only
  (repeat' split) <;> simp []

/-- What setClock leaves as it was. -/
@[simp] theorem setClock_frame (b : List Byte) (s : State) :
    ((setClock b s).2).pending = s.pending ∧
    ((setClock b s).2).epoch = s.epoch ∧
    ((setClock b s).2).inReset = s.inReset ∧
    ((setClock b s).2).travel = s.travel ∧
    ((setClock b s).2).lanes = s.lanes ∧
    ((setClock b s).2).engine = s.engine ∧
    ((setClock b s).2).asm = s.asm ∧
    ((setClock b s).2).planner = s.planner ∧
    ((setClock b s).2).strike = s.strike ∧
    ((setClock b s).2).grading = s.grading ∧
    ((setClock b s).2).shift.trim = s.shift.trim ∧
    ((setClock b s).2).shift.number = s.shift.number ∧
    ((setClock b s).2).shift.run = s.shift.run ∧
    ((setClock b s).2).shift.runState = s.shift.runState ∧
    ((setClock b s).2).mem = s.mem ∧
    ((setClock b s).2).path = s.path ∧
    ((setClock b s).2).cmd = s.cmd ∧
    ((setClock b s).2).writer = s.writer ∧
    ((setClock b s).2).wires = s.wires := by
  unfold setClock Shift.setClock
  dsimp only
  split <;> simp

/-- What onLanes_fold leaves as it was. -/
@[simp] theorem onLanes_fold_frame (f : Lane → LaneStep) (ks : List LaneId) (s : State) :
    (ks.foldl (fun s k => s.finishLane k (f s.lanes[k]) none) s).pending = s.pending ∧
    (ks.foldl (fun s k => s.finishLane k (f s.lanes[k]) none) s).epoch = s.epoch ∧
    (ks.foldl (fun s k => s.finishLane k (f s.lanes[k]) none) s).inReset = s.inReset ∧
    (ks.foldl (fun s k => s.finishLane k (f s.lanes[k]) none) s).travel = s.travel ∧
    (ks.foldl (fun s k => s.finishLane k (f s.lanes[k]) none) s).asm = s.asm ∧
    (ks.foldl (fun s k => s.finishLane k (f s.lanes[k]) none) s).planner = s.planner ∧
    (ks.foldl (fun s k => s.finishLane k (f s.lanes[k]) none) s).strike = s.strike ∧
    (ks.foldl (fun s k => s.finishLane k (f s.lanes[k]) none) s).grading = s.grading ∧
    (ks.foldl (fun s k => s.finishLane k (f s.lanes[k]) none) s).shift = s.shift ∧
    (ks.foldl (fun s k => s.finishLane k (f s.lanes[k]) none) s).mem = s.mem ∧
    (ks.foldl (fun s k => s.finishLane k (f s.lanes[k]) none) s).path.anchorBase = s.path.anchorBase ∧
    (ks.foldl (fun s k => s.finishLane k (f s.lanes[k]) none) s).path.runState = s.path.runState ∧
    (ks.foldl (fun s k => s.finishLane k (f s.lanes[k]) none) s).path.map = s.path.map ∧
    (ks.foldl (fun s k => s.finishLane k (f s.lanes[k]) none) s).path.queue = s.path.queue ∧
    (ks.foldl (fun s k => s.finishLane k (f s.lanes[k]) none) s).path.heldOff = s.path.heldOff ∧
    (ks.foldl (fun s k => s.finishLane k (f s.lanes[k]) none) s).path.nextId = s.path.nextId ∧
    (ks.foldl (fun s k => s.finishLane k (f s.lanes[k]) none) s).cmd.runState = s.cmd.runState ∧
    (ks.foldl (fun s k => s.finishLane k (f s.lanes[k]) none) s).cmd.lastReason = s.cmd.lastReason ∧
    (ks.foldl (fun s k => s.finishLane k (f s.lanes[k]) none) s).cmd.shadow = s.cmd.shadow ∧
    (ks.foldl (fun s k => s.finishLane k (f s.lanes[k]) none) s).cmd.post = s.cmd.post ∧
    (ks.foldl (fun s k => s.finishLane k (f s.lanes[k]) none) s).cmd.seen = s.cmd.seen ∧
    (ks.foldl (fun s k => s.finishLane k (f s.lanes[k]) none) s).cmd.taken = s.cmd.taken ∧
    (ks.foldl (fun s k => s.finishLane k (f s.lanes[k]) none) s).cmd.completion = s.cmd.completion ∧
    (ks.foldl (fun s k => s.finishLane k (f s.lanes[k]) none) s).cmd.execution = s.cmd.execution ∧
    (ks.foldl (fun s k => s.finishLane k (f s.lanes[k]) none) s).cmd.run = s.cmd.run ∧
    (ks.foldl (fun s k => s.finishLane k (f s.lanes[k]) none) s).writer.logs = s.writer.logs ∧
    (ks.foldl (fun s k => s.finishLane k (f s.lanes[k]) none) s).writer.calendar = s.writer.calendar ∧
    (ks.foldl (fun s k => s.finishLane k (f s.lanes[k]) none) s).writer.clockValid = s.writer.clockValid ∧
    (ks.foldl (fun s k => s.finishLane k (f s.lanes[k]) none) s).writer.attn = s.writer.attn := by
  exact ⟨foldl_keeps _ (fun s => s.pending) (fun _ _ => by simp) _ _, foldl_keeps _ (fun s => s.epoch) (fun _ _ => by simp) _ _, foldl_keeps _ (fun s => s.inReset) (fun _ _ => by simp) _ _, foldl_keeps _ (fun s => s.travel) (fun _ _ => by simp) _ _, foldl_keeps _ (fun s => s.asm) (fun _ _ => by simp) _ _, foldl_keeps _ (fun s => s.planner) (fun _ _ => by simp) _ _, foldl_keeps _ (fun s => s.strike) (fun _ _ => by simp) _ _, foldl_keeps _ (fun s => s.grading) (fun _ _ => by simp) _ _, foldl_keeps _ (fun s => s.shift) (fun _ _ => by simp) _ _, foldl_keeps _ (fun s => s.mem) (fun _ _ => by simp) _ _, foldl_keeps _ (fun s => s.path.anchorBase) (fun _ _ => by simp) _ _, foldl_keeps _ (fun s => s.path.runState) (fun _ _ => by simp) _ _, foldl_keeps _ (fun s => s.path.map) (fun _ _ => by simp) _ _, foldl_keeps _ (fun s => s.path.queue) (fun _ _ => by simp) _ _, foldl_keeps _ (fun s => s.path.heldOff) (fun _ _ => by simp) _ _, foldl_keeps _ (fun s => s.path.nextId) (fun _ _ => by simp) _ _, foldl_keeps _ (fun s => s.cmd.runState) (fun _ _ => by simp) _ _, foldl_keeps _ (fun s => s.cmd.lastReason) (fun _ _ => by simp) _ _, foldl_keeps _ (fun s => s.cmd.shadow) (fun _ _ => by simp) _ _, foldl_keeps _ (fun s => s.cmd.post) (fun _ _ => by simp) _ _, foldl_keeps _ (fun s => s.cmd.seen) (fun _ _ => by simp) _ _, foldl_keeps _ (fun s => s.cmd.taken) (fun _ _ => by simp) _ _, foldl_keeps _ (fun s => s.cmd.completion) (fun _ _ => by simp) _ _, foldl_keeps _ (fun s => s.cmd.execution) (fun _ _ => by simp) _ _, foldl_keeps _ (fun s => s.cmd.run) (fun _ _ => by simp) _ _, foldl_keeps _ (fun s => s.writer.logs) (fun _ _ => by simp) _ _, foldl_keeps _ (fun s => s.writer.calendar) (fun _ _ => by simp) _ _, foldl_keeps _ (fun s => s.writer.clockValid) (fun _ _ => by simp) _ _, foldl_keeps _ (fun s => s.writer.attn) (fun _ _ => by simp) _ _⟩

/-- What onLanes leaves as it was. -/
@[simp] theorem onLanes_frame (f : Lane → LaneStep) (b : List Byte) (s : State) :
    ((onLanes f b s).2).pending = s.pending ∧
    ((onLanes f b s).2).epoch = s.epoch ∧
    ((onLanes f b s).2).inReset = s.inReset ∧
    ((onLanes f b s).2).travel = s.travel ∧
    ((onLanes f b s).2).asm = s.asm ∧
    ((onLanes f b s).2).planner = s.planner ∧
    ((onLanes f b s).2).strike = s.strike ∧
    ((onLanes f b s).2).grading = s.grading ∧
    ((onLanes f b s).2).shift = s.shift ∧
    ((onLanes f b s).2).mem = s.mem ∧
    ((onLanes f b s).2).path.anchorBase = s.path.anchorBase ∧
    ((onLanes f b s).2).path.runState = s.path.runState ∧
    ((onLanes f b s).2).path.map = s.path.map ∧
    ((onLanes f b s).2).path.queue = s.path.queue ∧
    ((onLanes f b s).2).path.heldOff = s.path.heldOff ∧
    ((onLanes f b s).2).path.nextId = s.path.nextId ∧
    ((onLanes f b s).2).cmd.runState = s.cmd.runState ∧
    ((onLanes f b s).2).cmd.lastReason = s.cmd.lastReason ∧
    ((onLanes f b s).2).cmd.shadow = s.cmd.shadow ∧
    ((onLanes f b s).2).cmd.post = s.cmd.post ∧
    ((onLanes f b s).2).cmd.seen = s.cmd.seen ∧
    ((onLanes f b s).2).cmd.taken = s.cmd.taken ∧
    ((onLanes f b s).2).cmd.completion = s.cmd.completion ∧
    ((onLanes f b s).2).cmd.execution = s.cmd.execution ∧
    ((onLanes f b s).2).cmd.run = s.cmd.run ∧
    ((onLanes f b s).2).writer.logs = s.writer.logs ∧
    ((onLanes f b s).2).writer.calendar = s.writer.calendar ∧
    ((onLanes f b s).2).writer.clockValid = s.writer.clockValid ∧
    ((onLanes f b s).2).writer.attn = s.writer.attn := by
  unfold onLanes
  try dsimp only
  (repeat' split) <;> simp [-Fin.getElem_fin]

/-- What manualCut leaves as it was. -/
@[simp] theorem manualCut_frame (b : List Byte) (s : State) :
    ((manualCut b s).2).pending = s.pending ∧
    ((manualCut b s).2).epoch = s.epoch ∧
    ((manualCut b s).2).inReset = s.inReset ∧
    ((manualCut b s).2).travel = s.travel ∧
    ((manualCut b s).2).lanes = s.lanes ∧
    ((manualCut b s).2).engine = s.engine ∧
    ((manualCut b s).2).asm = s.asm ∧
    ((manualCut b s).2).strike = s.strike ∧
    ((manualCut b s).2).grading = s.grading ∧
    ((manualCut b s).2).shift = s.shift ∧
    ((manualCut b s).2).mem = s.mem ∧
    ((manualCut b s).2).path = s.path ∧
    ((manualCut b s).2).cmd.runState = s.cmd.runState ∧
    ((manualCut b s).2).cmd.lastReason = s.cmd.lastReason ∧
    ((manualCut b s).2).cmd.shadow = s.cmd.shadow ∧
    ((manualCut b s).2).cmd.post = s.cmd.post ∧
    ((manualCut b s).2).cmd.seen = s.cmd.seen ∧
    ((manualCut b s).2).cmd.taken = s.cmd.taken ∧
    ((manualCut b s).2).cmd.completion = s.cmd.completion ∧
    ((manualCut b s).2).cmd.execution = s.cmd.execution ∧
    ((manualCut b s).2).cmd.run = s.cmd.run ∧
    ((manualCut b s).2).writer = s.writer := by
  unfold manualCut
  try dsimp only
  (repeat' split) <;> simp [State.finishPlan]

/-- What State.runReset leaves as it was. -/
@[simp] theorem State.runReset_frame (s : State) :
    (s.runReset).pending = s.pending ∧
    (s.runReset).inReset = s.inReset ∧
    (s.runReset).shift = s.shift ∧
    (s.runReset).mem = s.mem ∧
    (s.runReset).path = s.path ∧
    (s.runReset).cmd = s.cmd ∧
    (s.runReset).writer.calendar = s.writer.calendar ∧
    (s.runReset).writer.clockValid = s.writer.clockValid ∧
    (s.runReset).writer.attn = s.writer.attn := by
  unfold State.runReset
  try dsimp only
  (repeat' split) <;> simp [State.plannerRunReset, State.gradingRunReset, State.writerRunReset, State.setRefused, State.setLog]

/-- What State.enterRunning leaves as it was. -/
@[simp] theorem State.enterRunning_frame (s : State) (c : Shadow) :
    (s.enterRunning c).pending = s.pending ∧
    (s.enterRunning c).epoch = s.epoch ∧
    (s.enterRunning c).inReset = s.inReset ∧
    (s.enterRunning c).engine = s.engine ∧
    (s.enterRunning c).asm = s.asm ∧
    (s.enterRunning c).strike = s.strike ∧
    (s.enterRunning c).grading = s.grading ∧
    (s.enterRunning c).shift.calendar = s.shift.calendar ∧
    (s.enterRunning c).shift.sub = s.shift.sub ∧
    (s.enterRunning c).shift.trim = s.shift.trim ∧
    (s.enterRunning c).shift.valid = s.shift.valid ∧
    (s.enterRunning c).shift.number = s.shift.number ∧
    (s.enterRunning c).shift.run = s.shift.run ∧
    (s.enterRunning c).mem = s.mem ∧
    (s.enterRunning c).path.anchorBase = s.path.anchorBase ∧
    (s.enterRunning c).path.map = s.path.map ∧
    (s.enterRunning c).path.queue = s.path.queue ∧
    (s.enterRunning c).path.heldOff = s.path.heldOff ∧
    (s.enterRunning c).path.nextId = s.path.nextId ∧
    (s.enterRunning c).cmd.lastReason = s.cmd.lastReason ∧
    (s.enterRunning c).cmd.shadow = s.cmd.shadow ∧
    (s.enterRunning c).cmd.post = s.cmd.post ∧
    (s.enterRunning c).cmd.seen = s.cmd.seen ∧
    (s.enterRunning c).cmd.taken = s.cmd.taken ∧
    (s.enterRunning c).cmd.completion = s.cmd.completion ∧
    (s.enterRunning c).cmd.execution = s.cmd.execution ∧
    (s.enterRunning c).cmd.run = s.cmd.run ∧
    (s.enterRunning c).writer.logs = s.writer.logs ∧
    (s.enterRunning c).writer.calendar = s.writer.calendar ∧
    (s.enterRunning c).writer.clockValid = s.writer.clockValid ∧
    (s.enterRunning c).writer.attn = s.writer.attn := by
  unfold State.enterRunning
  try dsimp only
  (repeat' split) <;> simp [State.handRunState, State.stepLanes, State.finishPlan]

/-- What startRun leaves as it was. -/
@[simp] theorem startRun_frame (s : State) :
    ((startRun s).2).pending = s.pending ∧
    ((startRun s).2).inReset = s.inReset ∧
    ((startRun s).2).shift.calendar = s.shift.calendar ∧
    ((startRun s).2).shift.sub = s.shift.sub ∧
    ((startRun s).2).shift.trim = s.shift.trim ∧
    ((startRun s).2).shift.valid = s.shift.valid ∧
    ((startRun s).2).shift.number = s.shift.number ∧
    ((startRun s).2).mem = s.mem ∧
    ((startRun s).2).path.anchorBase = s.path.anchorBase ∧
    ((startRun s).2).path.map = s.path.map ∧
    ((startRun s).2).path.queue = s.path.queue ∧
    ((startRun s).2).path.heldOff = s.path.heldOff ∧
    ((startRun s).2).path.nextId = s.path.nextId ∧
    ((startRun s).2).cmd.lastReason = s.cmd.lastReason ∧
    ((startRun s).2).cmd.shadow = s.cmd.shadow ∧
    ((startRun s).2).cmd.post = s.cmd.post ∧
    ((startRun s).2).cmd.seen = s.cmd.seen ∧
    ((startRun s).2).cmd.taken = s.cmd.taken ∧
    ((startRun s).2).cmd.completion = s.cmd.completion ∧
    ((startRun s).2).cmd.execution = s.cmd.execution ∧
    ((startRun s).2).writer.calendar = s.writer.calendar ∧
    ((startRun s).2).writer.clockValid = s.writer.clockValid ∧
    ((startRun s).2).writer.attn = s.writer.attn := by
  unfold startRun
  try dsimp only
  (repeat' split) <;> simp [Command.activateAll]

/-- What State.freeAll leaves as it was. -/
@[simp] theorem State.freeAll_frame (es : List ReadyEntry) (s : State) :
    (es.foldl (fun s e => s.setLane e.lane (s.lanes[e.lane].freed e.buffer)) s).pending = s.pending ∧
    (es.foldl (fun s e => s.setLane e.lane (s.lanes[e.lane].freed e.buffer)) s).epoch = s.epoch ∧
    (es.foldl (fun s e => s.setLane e.lane (s.lanes[e.lane].freed e.buffer)) s).inReset = s.inReset ∧
    (es.foldl (fun s e => s.setLane e.lane (s.lanes[e.lane].freed e.buffer)) s).travel = s.travel ∧
    (es.foldl (fun s e => s.setLane e.lane (s.lanes[e.lane].freed e.buffer)) s).engine = s.engine ∧
    (es.foldl (fun s e => s.setLane e.lane (s.lanes[e.lane].freed e.buffer)) s).asm = s.asm ∧
    (es.foldl (fun s e => s.setLane e.lane (s.lanes[e.lane].freed e.buffer)) s).planner = s.planner ∧
    (es.foldl (fun s e => s.setLane e.lane (s.lanes[e.lane].freed e.buffer)) s).strike = s.strike ∧
    (es.foldl (fun s e => s.setLane e.lane (s.lanes[e.lane].freed e.buffer)) s).grading = s.grading ∧
    (es.foldl (fun s e => s.setLane e.lane (s.lanes[e.lane].freed e.buffer)) s).shift = s.shift ∧
    (es.foldl (fun s e => s.setLane e.lane (s.lanes[e.lane].freed e.buffer)) s).mem = s.mem ∧
    (es.foldl (fun s e => s.setLane e.lane (s.lanes[e.lane].freed e.buffer)) s).path = s.path ∧
    (es.foldl (fun s e => s.setLane e.lane (s.lanes[e.lane].freed e.buffer)) s).cmd = s.cmd ∧
    (es.foldl (fun s e => s.setLane e.lane (s.lanes[e.lane].freed e.buffer)) s).writer = s.writer ∧
    (es.foldl (fun s e => s.setLane e.lane (s.lanes[e.lane].freed e.buffer)) s).wires = s.wires := by
  exact ⟨foldl_keeps _ (fun s => s.pending) (fun _ _ => by simp) _ _, foldl_keeps _ (fun s => s.epoch) (fun _ _ => by simp) _ _, foldl_keeps _ (fun s => s.inReset) (fun _ _ => by simp) _ _, foldl_keeps _ (fun s => s.travel) (fun _ _ => by simp) _ _, foldl_keeps _ (fun s => s.engine) (fun _ _ => by simp) _ _, foldl_keeps _ (fun s => s.asm) (fun _ _ => by simp) _ _, foldl_keeps _ (fun s => s.planner) (fun _ _ => by simp) _ _, foldl_keeps _ (fun s => s.strike) (fun _ _ => by simp) _ _, foldl_keeps _ (fun s => s.grading) (fun _ _ => by simp) _ _, foldl_keeps _ (fun s => s.shift) (fun _ _ => by simp) _ _, foldl_keeps _ (fun s => s.mem) (fun _ _ => by simp) _ _, foldl_keeps _ (fun s => s.path) (fun _ _ => by simp) _ _, foldl_keeps _ (fun s => s.cmd) (fun _ _ => by simp) _ _, foldl_keeps _ (fun s => s.writer) (fun _ _ => by simp) _ _, foldl_keeps _ (fun s => s.wires) (fun _ _ => by simp) _ _⟩

/-- What State.freeOutstanding leaves as it was. -/
@[simp] theorem State.freeOutstanding_frame (s : State) :
    (s.freeOutstanding).pending = s.pending ∧
    (s.freeOutstanding).epoch = s.epoch ∧
    (s.freeOutstanding).inReset = s.inReset ∧
    (s.freeOutstanding).travel = s.travel ∧
    (s.freeOutstanding).engine = s.engine ∧
    (s.freeOutstanding).asm = s.asm ∧
    (s.freeOutstanding).planner = s.planner ∧
    (s.freeOutstanding).strike = s.strike ∧
    (s.freeOutstanding).grading = s.grading ∧
    (s.freeOutstanding).shift = s.shift ∧
    (s.freeOutstanding).mem = s.mem ∧
    (s.freeOutstanding).path = s.path ∧
    (s.freeOutstanding).cmd = s.cmd ∧
    (s.freeOutstanding).writer = s.writer ∧
    (s.freeOutstanding).wires = s.wires := by
  unfold State.freeOutstanding
  try dsimp only
  (repeat' split) <;> simp [-Fin.getElem_fin]

/-- What State.leaveRunning leaves as it was. -/
@[simp] theorem State.leaveRunning_frame (s : State) :
    (s.leaveRunning).pending = s.pending ∧
    (s.leaveRunning).epoch = s.epoch ∧
    (s.leaveRunning).inReset = s.inReset ∧
    (s.leaveRunning).travel = s.travel ∧
    (s.leaveRunning).planner = s.planner ∧
    (s.leaveRunning).strike = s.strike ∧
    (s.leaveRunning).grading = s.grading ∧
    (s.leaveRunning).shift.calendar = s.shift.calendar ∧
    (s.leaveRunning).shift.sub = s.shift.sub ∧
    (s.leaveRunning).shift.trim = s.shift.trim ∧
    (s.leaveRunning).shift.valid = s.shift.valid ∧
    (s.leaveRunning).shift.number = s.shift.number ∧
    (s.leaveRunning).shift.run = s.shift.run ∧
    (s.leaveRunning).mem = s.mem ∧
    (s.leaveRunning).path.anchorBase = s.path.anchorBase ∧
    (s.leaveRunning).path.map = s.path.map ∧
    (s.leaveRunning).path.queue = s.path.queue ∧
    (s.leaveRunning).path.heldOff = s.path.heldOff ∧
    (s.leaveRunning).path.nextId = s.path.nextId ∧
    (s.leaveRunning).cmd.lastReason = s.cmd.lastReason ∧
    (s.leaveRunning).cmd.shadow = s.cmd.shadow ∧
    (s.leaveRunning).cmd.post = s.cmd.post ∧
    (s.leaveRunning).cmd.seen = s.cmd.seen ∧
    (s.leaveRunning).cmd.taken = s.cmd.taken ∧
    (s.leaveRunning).cmd.completion = s.cmd.completion ∧
    (s.leaveRunning).cmd.execution = s.cmd.execution ∧
    (s.leaveRunning).cmd.run = s.cmd.run ∧
    (s.leaveRunning).writer.logs = s.writer.logs ∧
    (s.leaveRunning).writer.calendar = s.writer.calendar ∧
    (s.leaveRunning).writer.clockValid = s.writer.clockValid ∧
    (s.leaveRunning).writer.attn = s.writer.attn := by
  unfold State.leaveRunning
  try dsimp only
  (repeat' split) <;> simp [State.handRunState, State.stepLanes]

/-- What stopRun leaves as it was. -/
@[simp] theorem stopRun_frame (s : State) :
    ((stopRun s).2).pending = s.pending ∧
    ((stopRun s).2).epoch = s.epoch ∧
    ((stopRun s).2).inReset = s.inReset ∧
    ((stopRun s).2).travel = s.travel ∧
    ((stopRun s).2).planner = s.planner ∧
    ((stopRun s).2).strike = s.strike ∧
    ((stopRun s).2).grading = s.grading ∧
    ((stopRun s).2).shift.calendar = s.shift.calendar ∧
    ((stopRun s).2).shift.sub = s.shift.sub ∧
    ((stopRun s).2).shift.trim = s.shift.trim ∧
    ((stopRun s).2).shift.valid = s.shift.valid ∧
    ((stopRun s).2).shift.number = s.shift.number ∧
    ((stopRun s).2).shift.run = s.shift.run ∧
    ((stopRun s).2).mem = s.mem ∧
    ((stopRun s).2).path.anchorBase = s.path.anchorBase ∧
    ((stopRun s).2).path.map = s.path.map ∧
    ((stopRun s).2).path.queue = s.path.queue ∧
    ((stopRun s).2).path.heldOff = s.path.heldOff ∧
    ((stopRun s).2).path.nextId = s.path.nextId ∧
    ((stopRun s).2).cmd.lastReason = s.cmd.lastReason ∧
    ((stopRun s).2).cmd.shadow = s.cmd.shadow ∧
    ((stopRun s).2).cmd.post = s.cmd.post ∧
    ((stopRun s).2).cmd.seen = s.cmd.seen ∧
    ((stopRun s).2).cmd.taken = s.cmd.taken ∧
    ((stopRun s).2).cmd.completion = s.cmd.completion ∧
    ((stopRun s).2).cmd.execution = s.cmd.execution ∧
    ((stopRun s).2).cmd.run = s.cmd.run ∧
    ((stopRun s).2).writer.logs = s.writer.logs ∧
    ((stopRun s).2).writer.calendar = s.writer.calendar ∧
    ((stopRun s).2).writer.clockValid = s.writer.clockValid ∧
    ((stopRun s).2).writer.attn = s.writer.attn := by
  unfold stopRun
  try dsimp only
  (repeat' split) <;> simp []

/-- What resetRun leaves as it was. -/
@[simp] theorem resetRun_frame (s : State) :
    ((resetRun s).2).pending = s.pending ∧
    ((resetRun s).2).inReset = s.inReset ∧
    ((resetRun s).2).shift.calendar = s.shift.calendar ∧
    ((resetRun s).2).shift.sub = s.shift.sub ∧
    ((resetRun s).2).shift.trim = s.shift.trim ∧
    ((resetRun s).2).shift.valid = s.shift.valid ∧
    ((resetRun s).2).shift.number = s.shift.number ∧
    ((resetRun s).2).shift.run = s.shift.run ∧
    ((resetRun s).2).mem = s.mem ∧
    ((resetRun s).2).path.anchorBase = s.path.anchorBase ∧
    ((resetRun s).2).path.map = s.path.map ∧
    ((resetRun s).2).path.queue = s.path.queue ∧
    ((resetRun s).2).path.heldOff = s.path.heldOff ∧
    ((resetRun s).2).path.nextId = s.path.nextId ∧
    ((resetRun s).2).cmd.lastReason = s.cmd.lastReason ∧
    ((resetRun s).2).cmd.shadow = s.cmd.shadow ∧
    ((resetRun s).2).cmd.post = s.cmd.post ∧
    ((resetRun s).2).cmd.seen = s.cmd.seen ∧
    ((resetRun s).2).cmd.taken = s.cmd.taken ∧
    ((resetRun s).2).cmd.completion = s.cmd.completion ∧
    ((resetRun s).2).cmd.execution = s.cmd.execution ∧
    ((resetRun s).2).cmd.run = s.cmd.run ∧
    ((resetRun s).2).writer.calendar = s.writer.calendar ∧
    ((resetRun s).2).writer.clockValid = s.writer.clockValid ∧
    ((resetRun s).2).writer.attn = s.writer.attn := by
  unfold resetRun
  try dsimp only
  (repeat' split) <;> simp [State.handRunState]

/-- What takeRunEnd leaves as it was. -/
@[simp] theorem takeRunEnd_frame (s : State) :
    (takeRunEnd s).pending = s.pending ∧
    (takeRunEnd s).epoch = s.epoch ∧
    (takeRunEnd s).inReset = s.inReset ∧
    (takeRunEnd s).travel = s.travel ∧
    (takeRunEnd s).engine = s.engine ∧
    (takeRunEnd s).asm = s.asm ∧
    (takeRunEnd s).grading = s.grading ∧
    (takeRunEnd s).shift.calendar = s.shift.calendar ∧
    (takeRunEnd s).shift.sub = s.shift.sub ∧
    (takeRunEnd s).shift.trim = s.shift.trim ∧
    (takeRunEnd s).shift.valid = s.shift.valid ∧
    (takeRunEnd s).shift.number = s.shift.number ∧
    (takeRunEnd s).shift.run = s.shift.run ∧
    (takeRunEnd s).mem = s.mem ∧
    (takeRunEnd s).path.anchorBase = s.path.anchorBase ∧
    (takeRunEnd s).path.map = s.path.map ∧
    (takeRunEnd s).path.queue = s.path.queue ∧
    (takeRunEnd s).path.heldOff = s.path.heldOff ∧
    (takeRunEnd s).path.nextId = s.path.nextId ∧
    (takeRunEnd s).cmd.lastReason = s.cmd.lastReason ∧
    (takeRunEnd s).cmd.shadow = s.cmd.shadow ∧
    (takeRunEnd s).cmd.post = s.cmd.post ∧
    (takeRunEnd s).cmd.seen = s.cmd.seen ∧
    (takeRunEnd s).cmd.taken = s.cmd.taken ∧
    (takeRunEnd s).cmd.completion = s.cmd.completion ∧
    (takeRunEnd s).cmd.execution = s.cmd.execution ∧
    (takeRunEnd s).cmd.run = s.cmd.run ∧
    (takeRunEnd s).writer.logs = s.writer.logs ∧
    (takeRunEnd s).writer.calendar = s.writer.calendar ∧
    (takeRunEnd s).writer.clockValid = s.writer.clockValid ∧
    (takeRunEnd s).writer.attn = s.writer.attn := by
  unfold takeRunEnd
  try dsimp only
  (repeat' split) <;> simp [State.handRunState]

/-- What State.takeLogs_fold leaves as it was. -/
@[simp] theorem State.takeLogs_fold_frame (v : Vector LogFields 4) (ls : List LogId) (s : State) :
    (ls.foldl (fun s l => s.takeLogFields l v[l.idx]) s).pending = s.pending ∧
    (ls.foldl (fun s l => s.takeLogFields l v[l.idx]) s).epoch = s.epoch ∧
    (ls.foldl (fun s l => s.takeLogFields l v[l.idx]) s).inReset = s.inReset ∧
    (ls.foldl (fun s l => s.takeLogFields l v[l.idx]) s).travel = s.travel ∧
    (ls.foldl (fun s l => s.takeLogFields l v[l.idx]) s).lanes = s.lanes ∧
    (ls.foldl (fun s l => s.takeLogFields l v[l.idx]) s).engine = s.engine ∧
    (ls.foldl (fun s l => s.takeLogFields l v[l.idx]) s).asm = s.asm ∧
    (ls.foldl (fun s l => s.takeLogFields l v[l.idx]) s).planner = s.planner ∧
    (ls.foldl (fun s l => s.takeLogFields l v[l.idx]) s).strike = s.strike ∧
    (ls.foldl (fun s l => s.takeLogFields l v[l.idx]) s).grading = s.grading ∧
    (ls.foldl (fun s l => s.takeLogFields l v[l.idx]) s).shift = s.shift ∧
    (ls.foldl (fun s l => s.takeLogFields l v[l.idx]) s).mem = s.mem ∧
    (ls.foldl (fun s l => s.takeLogFields l v[l.idx]) s).path = s.path ∧
    (ls.foldl (fun s l => s.takeLogFields l v[l.idx]) s).cmd = s.cmd ∧
    (ls.foldl (fun s l => s.takeLogFields l v[l.idx]) s).writer.calendar = s.writer.calendar ∧
    (ls.foldl (fun s l => s.takeLogFields l v[l.idx]) s).writer.clockValid = s.writer.clockValid := by
  exact ⟨foldl_keeps _ (fun s => s.pending) (fun _ _ => by simp) _ _, foldl_keeps _ (fun s => s.epoch) (fun _ _ => by simp) _ _, foldl_keeps _ (fun s => s.inReset) (fun _ _ => by simp) _ _, foldl_keeps _ (fun s => s.travel) (fun _ _ => by simp) _ _, foldl_keeps _ (fun s => s.lanes) (fun _ _ => by simp) _ _, foldl_keeps _ (fun s => s.engine) (fun _ _ => by simp) _ _, foldl_keeps _ (fun s => s.asm) (fun _ _ => by simp) _ _, foldl_keeps _ (fun s => s.planner) (fun _ _ => by simp) _ _, foldl_keeps _ (fun s => s.strike) (fun _ _ => by simp) _ _, foldl_keeps _ (fun s => s.grading) (fun _ _ => by simp) _ _, foldl_keeps _ (fun s => s.shift) (fun _ _ => by simp) _ _, foldl_keeps _ (fun s => s.mem) (fun _ _ => by simp) _ _, foldl_keeps _ (fun s => s.path) (fun _ _ => by simp) _ _, foldl_keeps _ (fun s => s.cmd) (fun _ _ => by simp) _ _, foldl_keeps _ (fun s => s.writer.calendar) (fun _ _ => by simp) _ _, foldl_keeps _ (fun s => s.writer.clockValid) (fun _ _ => by simp) _ _⟩

/-- What State.takeLogs leaves as it was. -/
@[simp] theorem State.takeLogs_frame (s : State) (v : Vector LogFields 4) :
    (s.takeLogs v).pending = s.pending ∧
    (s.takeLogs v).epoch = s.epoch ∧
    (s.takeLogs v).inReset = s.inReset ∧
    (s.takeLogs v).travel = s.travel ∧
    (s.takeLogs v).lanes = s.lanes ∧
    (s.takeLogs v).engine = s.engine ∧
    (s.takeLogs v).asm = s.asm ∧
    (s.takeLogs v).planner = s.planner ∧
    (s.takeLogs v).strike = s.strike ∧
    (s.takeLogs v).grading = s.grading ∧
    (s.takeLogs v).shift = s.shift ∧
    (s.takeLogs v).mem = s.mem ∧
    (s.takeLogs v).path = s.path ∧
    (s.takeLogs v).cmd = s.cmd ∧
    (s.takeLogs v).writer.calendar = s.writer.calendar ∧
    (s.takeLogs v).writer.clockValid = s.writer.clockValid := by
  unfold State.takeLogs
  try dsimp only
  (repeat' split) <;> simp [-Fin.getElem_fin]

/-- What State.applyConfiguration leaves as it was. -/
@[simp] theorem State.applyConfiguration_frame (s : State) (a : Area) :
    (s.applyConfiguration a).pending = s.pending ∧
    (s.applyConfiguration a).epoch = s.epoch ∧
    (s.applyConfiguration a).inReset = s.inReset ∧
    (s.applyConfiguration a).travel = s.travel ∧
    (s.applyConfiguration a).engine = s.engine ∧
    (s.applyConfiguration a).asm = s.asm ∧
    (s.applyConfiguration a).planner = s.planner ∧
    (s.applyConfiguration a).strike = s.strike ∧
    (s.applyConfiguration a).grading = s.grading ∧
    (s.applyConfiguration a).shift.calendar = s.shift.calendar ∧
    (s.applyConfiguration a).shift.sub = s.shift.sub ∧
    (s.applyConfiguration a).shift.valid = s.shift.valid ∧
    (s.applyConfiguration a).shift.number = s.shift.number ∧
    (s.applyConfiguration a).shift.run = s.shift.run ∧
    (s.applyConfiguration a).mem = s.mem ∧
    (s.applyConfiguration a).path.anchorBase = s.path.anchorBase ∧
    (s.applyConfiguration a).path.queue = s.path.queue ∧
    (s.applyConfiguration a).path.heldOff = s.path.heldOff ∧
    (s.applyConfiguration a).path.nextId = s.path.nextId ∧
    (s.applyConfiguration a).cmd.post = s.cmd.post ∧
    (s.applyConfiguration a).cmd.seen = s.cmd.seen ∧
    (s.applyConfiguration a).cmd.taken = s.cmd.taken ∧
    (s.applyConfiguration a).cmd.completion = s.cmd.completion ∧
    (s.applyConfiguration a).cmd.execution = s.cmd.execution ∧
    (s.applyConfiguration a).cmd.run = s.cmd.run ∧
    (s.applyConfiguration a).writer.calendar = s.writer.calendar ∧
    (s.applyConfiguration a).writer.clockValid = s.writer.clockValid := by
  unfold State.applyConfiguration
  try dsimp only
  (repeat' split) <;> simp [State.handRunState, Command.configured, State.setShift, State.setCmd]

/-- What State.configureRefused leaves as it was. -/
@[simp] theorem State.configureRefused_frame (s : State) (r : Reason) :
    ((s.configureRefused r).2).pending = s.pending ∧
    ((s.configureRefused r).2).epoch = s.epoch ∧
    ((s.configureRefused r).2).inReset = s.inReset ∧
    ((s.configureRefused r).2).travel = s.travel ∧
    ((s.configureRefused r).2).lanes = s.lanes ∧
    ((s.configureRefused r).2).engine = s.engine ∧
    ((s.configureRefused r).2).asm = s.asm ∧
    ((s.configureRefused r).2).planner = s.planner ∧
    ((s.configureRefused r).2).strike = s.strike ∧
    ((s.configureRefused r).2).grading = s.grading ∧
    ((s.configureRefused r).2).shift = s.shift ∧
    ((s.configureRefused r).2).mem = s.mem ∧
    ((s.configureRefused r).2).path = s.path ∧
    ((s.configureRefused r).2).cmd.runState = s.cmd.runState ∧
    ((s.configureRefused r).2).cmd.shadow = s.cmd.shadow ∧
    ((s.configureRefused r).2).cmd.post = s.cmd.post ∧
    ((s.configureRefused r).2).cmd.seen = s.cmd.seen ∧
    ((s.configureRefused r).2).cmd.taken = s.cmd.taken ∧
    ((s.configureRefused r).2).cmd.completion = s.cmd.completion ∧
    ((s.configureRefused r).2).cmd.execution = s.cmd.execution ∧
    ((s.configureRefused r).2).cmd.run = s.cmd.run ∧
    ((s.configureRefused r).2).writer = s.writer ∧
    ((s.configureRefused r).2).wires = s.wires := by
  simp [State.configureRefused]

/-- What configureRead leaves as it was. -/
@[simp] theorem configureRead_frame (b : List Byte) (s : State) :
    ((configureRead b s).2).pending = s.pending ∧
    ((configureRead b s).2).epoch = s.epoch ∧
    ((configureRead b s).2).inReset = s.inReset ∧
    ((configureRead b s).2).travel = s.travel ∧
    ((configureRead b s).2).engine = s.engine ∧
    ((configureRead b s).2).asm = s.asm ∧
    ((configureRead b s).2).planner = s.planner ∧
    ((configureRead b s).2).strike = s.strike ∧
    ((configureRead b s).2).grading = s.grading ∧
    ((configureRead b s).2).shift.calendar = s.shift.calendar ∧
    ((configureRead b s).2).shift.sub = s.shift.sub ∧
    ((configureRead b s).2).shift.valid = s.shift.valid ∧
    ((configureRead b s).2).shift.number = s.shift.number ∧
    ((configureRead b s).2).shift.run = s.shift.run ∧
    ((configureRead b s).2).mem = s.mem ∧
    ((configureRead b s).2).path.anchorBase = s.path.anchorBase ∧
    ((configureRead b s).2).path.queue = s.path.queue ∧
    ((configureRead b s).2).path.heldOff = s.path.heldOff ∧
    ((configureRead b s).2).path.nextId = s.path.nextId ∧
    ((configureRead b s).2).cmd.post = s.cmd.post ∧
    ((configureRead b s).2).cmd.seen = s.cmd.seen ∧
    ((configureRead b s).2).cmd.taken = s.cmd.taken ∧
    ((configureRead b s).2).cmd.completion = s.cmd.completion ∧
    ((configureRead b s).2).cmd.execution = s.cmd.execution ∧
    ((configureRead b s).2).cmd.run = s.cmd.run ∧
    ((configureRead b s).2).writer.calendar = s.writer.calendar ∧
    ((configureRead b s).2).writer.clockValid = s.writer.clockValid := by
  unfold configureRead
  try dsimp only
  (repeat' split) <;> simp []

/-- What configureBegin leaves as it was. -/
@[simp] theorem configureBegin_frame (n : Nat) (s : State) :
    (configureBegin n s).pending = s.pending ∧
    (configureBegin n s).epoch = s.epoch ∧
    (configureBegin n s).inReset = s.inReset ∧
    (configureBegin n s).travel = s.travel ∧
    (configureBegin n s).lanes = s.lanes ∧
    (configureBegin n s).engine = s.engine ∧
    (configureBegin n s).asm = s.asm ∧
    (configureBegin n s).planner = s.planner ∧
    (configureBegin n s).strike = s.strike ∧
    (configureBegin n s).grading = s.grading ∧
    (configureBegin n s).shift = s.shift ∧
    (configureBegin n s).mem = s.mem ∧
    (configureBegin n s).path.anchorBase = s.path.anchorBase ∧
    (configureBegin n s).path.runState = s.path.runState ∧
    (configureBegin n s).path.map = s.path.map ∧
    (configureBegin n s).path.queue = s.path.queue ∧
    (configureBegin n s).path.heldOff = s.path.heldOff ∧
    (configureBegin n s).path.nextId = s.path.nextId ∧
    (configureBegin n s).cmd.runState = s.cmd.runState ∧
    (configureBegin n s).cmd.shadow = s.cmd.shadow ∧
    (configureBegin n s).cmd.post = s.cmd.post ∧
    (configureBegin n s).cmd.seen = s.cmd.seen ∧
    (configureBegin n s).cmd.taken = s.cmd.taken ∧
    (configureBegin n s).cmd.completion = s.cmd.completion ∧
    (configureBegin n s).cmd.run = s.cmd.run ∧
    (configureBegin n s).writer.logs = s.writer.logs ∧
    (configureBegin n s).writer.calendar = s.writer.calendar ∧
    (configureBegin n s).writer.clockValid = s.writer.clockValid ∧
    (configureBegin n s).writer.attn = s.writer.attn := by
  unfold configureBegin
  try dsimp only
  (repeat' split) <;> simp [State.finishCommand]

/-- What configure leaves as it was. -/
@[simp] theorem configure_frame (s : State) :
    (configure s).pending = s.pending ∧
    (configure s).epoch = s.epoch ∧
    (configure s).inReset = s.inReset ∧
    (configure s).travel = s.travel ∧
    (configure s).engine = s.engine ∧
    (configure s).asm = s.asm ∧
    (configure s).planner = s.planner ∧
    (configure s).strike = s.strike ∧
    (configure s).grading = s.grading ∧
    (configure s).shift.calendar = s.shift.calendar ∧
    (configure s).shift.sub = s.shift.sub ∧
    (configure s).shift.valid = s.shift.valid ∧
    (configure s).shift.number = s.shift.number ∧
    (configure s).shift.run = s.shift.run ∧
    (configure s).mem = s.mem ∧
    (configure s).path.anchorBase = s.path.anchorBase ∧
    (configure s).path.queue = s.path.queue ∧
    (configure s).path.heldOff = s.path.heldOff ∧
    (configure s).path.nextId = s.path.nextId ∧
    (configure s).cmd.post = s.cmd.post ∧
    (configure s).cmd.seen = s.cmd.seen ∧
    (configure s).cmd.taken = s.cmd.taken ∧
    (configure s).cmd.completion = s.cmd.completion ∧
    (configure s).cmd.run = s.cmd.run ∧
    (configure s).writer.calendar = s.writer.calendar ∧
    (configure s).writer.clockValid = s.writer.clockValid := by
  unfold configure
  try dsimp only
  (repeat' split) <;> simp [State.finishCommand]

/-- What resetEnd leaves as it was. -/
@[simp] theorem resetEnd_frame (c : Fin 16) (a b : Bool) (s : State) :
    (resetEnd c a b s).pending = s.pending ∧
    (resetEnd c a b s).epoch = s.epoch ∧
    (resetEnd c a b s).lanes = s.lanes ∧
    (resetEnd c a b s).engine = s.engine ∧
    (resetEnd c a b s).asm = s.asm ∧
    (resetEnd c a b s).planner = s.planner ∧
    (resetEnd c a b s).strike = s.strike ∧
    (resetEnd c a b s).grading = s.grading ∧
    (resetEnd c a b s).shift.calendar = s.shift.calendar ∧
    (resetEnd c a b s).shift.sub = s.shift.sub ∧
    (resetEnd c a b s).shift.trim = s.shift.trim ∧
    (resetEnd c a b s).shift.valid = s.shift.valid ∧
    (resetEnd c a b s).shift.number = s.shift.number ∧
    (resetEnd c a b s).shift.run = s.shift.run ∧
    (resetEnd c a b s).shift.runState = s.shift.runState ∧
    (resetEnd c a b s).mem = s.mem ∧
    (resetEnd c a b s).path.runState = s.path.runState ∧
    (resetEnd c a b s).path.map = s.path.map ∧
    (resetEnd c a b s).cmd.runState = s.cmd.runState ∧
    (resetEnd c a b s).cmd.lastReason = s.cmd.lastReason ∧
    (resetEnd c a b s).cmd.shadow = s.cmd.shadow ∧
    (resetEnd c a b s).cmd.post = s.cmd.post ∧
    (resetEnd c a b s).cmd.seen = s.cmd.seen ∧
    (resetEnd c a b s).cmd.taken = s.cmd.taken ∧
    (resetEnd c a b s).cmd.completion = s.cmd.completion ∧
    (resetEnd c a b s).cmd.execution = s.cmd.execution ∧
    (resetEnd c a b s).cmd.run = s.cmd.run ∧
    (resetEnd c a b s).writer.logs = s.writer.logs ∧
    (resetEnd c a b s).writer.attn = s.writer.attn := by
  unfold resetEnd
  try dsimp only
  (repeat' split) <;> simp []

end Sys2Proof.Machine
end

