-- ==== Sys2Proof/Laws/Copies.lean ====
section
/-! SUPPORT. The frames of the operations, continued: the five groups' copies with the mirror and the invalid marks, and the
pending rewrites, the turn marker and the counters of the memory path, where an operation reaches their block at all. -/

namespace Sys2Proof.Machine

/-- What the answers of a settling leave of the marker and the counters. -/
theorem Path.answers_copies (es : List PassEntry) (p : Path) :
    let r := es.foldl (fun p e => p.answer e.id (decide (e.mark = .localZeros)) e.zeroData) p
    r.marker = p.marker ∧ r.forwarded = p.forwarded ∧ r.refused = p.refused ∧ r.heldReads = p.heldReads ∧
      r.rewrites = p.rewrites := by
  induction es generalizing p with
  | nil => simp
  | cons e es ih => exact ih _

/-- What a settling leaves of the marker and the counters. -/
@[simp] theorem Path.settle_copies (p : Path) :
    p.settle.marker = p.marker ∧ p.settle.forwarded = p.forwarded ∧ p.settle.refused = p.refused ∧
      p.settle.heldReads = p.heldReads :=
  have h := Path.answers_copies (localLeavers [] p.queue).1 { p with queue := (localLeavers [] p.queue).2 }
  ⟨h.1, h.2.1, h.2.2.1, h.2.2.2.1⟩

/-- What a new hold leaves of the pending rewrites, the marker and the counters. -/
@[simp] theorem Path.hold_copies (p : Path) :
    p.hold.rewrites = p.rewrites ∧ p.hold.marker = p.marker ∧ p.hold.forwarded = p.forwarded ∧
      p.hold.refused = p.refused := ⟨rfl, rfl, rfl, rfl⟩

/-- What a placing in the pass-through queue leaves of the pending rewrites, the marker and the counters. -/
@[simp] theorem Path.enqueue_copies (p : Path) (k : ReqKind) (q : Request) (m : Mark) :
    (p.enqueue k q m).marker = p.marker ∧ (p.enqueue k q m).forwarded = p.forwarded ∧
      (p.enqueue k q m).refused = p.refused := ⟨rfl, rfl, rfl⟩

/-- What a new mark leaves of the marker and the counters. -/
@[simp] theorem Path.remark_copies (p : Path) (i : Nat) (m : Mark) :
    (p.remark i m).rewrites = p.rewrites ∧ (p.remark i m).marker = p.marker ∧ (p.remark i m).forwarded = p.forwarded ∧
      (p.remark i m).refused = p.refused ∧ (p.remark i m).heldReads = p.heldReads := ⟨rfl, rfl, rfl, rfl, rfl⟩

/-- What a return of responses leaves of the marker and the counters. -/
@[simp] theorem Path.respond_copies (p : Path) :
    p.respond.marker = p.marker ∧ p.respond.forwarded = p.forwarded ∧ p.respond.refused = p.refused ∧
      p.respond.heldReads = p.heldReads := ⟨rfl, rfl, rfl, rfl⟩

/-- What an answer leaves of the marker and the counters. -/
@[simp] theorem Path.answer_copies (p : Path) (i : Nat) (d : Bool) (b : List Byte) :
    (p.answer i d b).marker = p.marker ∧ (p.answer i d b).forwarded = p.forwarded ∧
      (p.answer i d b).refused = p.refused ∧ (p.answer i d b).heldReads = p.heldReads := ⟨rfl, rfl, rfl, rfl⟩

/-- What a refusal leaves of the memory path. -/
@[simp] theorem State.refuse_copies (s : State) (f : FaultKind) (k : ReqKind) (q : Request) :
    (s.refuse f k q).path.rewrites = s.path.rewrites ∧ (s.refuse f k q).path.marker = s.path.marker ∧
      (s.refuse f k q).path.forwarded = s.path.forwarded ∧ (s.refuse f k q).path.heldReads = s.path.heldReads :=
  ⟨rfl, rfl, rfl, rfl⟩

/-- What the taking of one request leaves of the memory path. -/
@[simp] theorem State.takeOne_copies (s : State) (k : ReqKind) (q : Request) :
    (s.takeOne k q).path.rewrites = s.path.rewrites ∧ (s.takeOne k q).path.marker = s.path.marker ∧
      (s.takeOne k q).path.forwarded = s.path.forwarded := by
  unfold State.takeOne
  split <;> simp

/-- What a request at the C-port leaves of the memory path. -/
@[simp] theorem State.request_copies (s : State) (k : ReqKind) (q : Request) :
    (s.request k q).path.rewrites = s.path.rewrites ∧ (s.request k q).path.marker = s.path.marker ∧
      (s.request k q).path.forwarded = s.path.forwarded := by
  unfold State.request
  split <;> simp

/-- What the verdict on a group leaves of the mirror. -/
@[simp] theorem groupVerdict_mirror (s : State) (g : GroupId) (q : Request) :
    (groupVerdict s g q).2.cmd.mirror = s.cmd.mirror := by
  unfold groupVerdict makeEligible
  dsimp only
  (repeat' split) <;> simp [State.setCmd, State.setShift]

/-- What State.placeWrite leaves of the copies and of the memory path. -/
@[simp] theorem State.placeWrite_copies (s : State) (t : Txn) :
    (s.placeWrite t).cmd.detect = s.cmd.detect ∧
    (s.placeWrite t).cmd.plan = s.cmd.plan ∧
    (s.placeWrite t).cmd.grade = s.cmd.grade ∧
    (s.placeWrite t).cmd.strike = s.cmd.strike ∧
    (s.placeWrite t).cmd.clock = s.cmd.clock ∧
    (s.placeWrite t).cmd.mirror = s.cmd.mirror ∧
    (s.placeWrite t).cmd.invalid = s.cmd.invalid ∧
    (s.placeWrite t).path.rewrites = s.path.rewrites ∧
    (s.placeWrite t).path.marker = s.path.marker ∧
    (s.placeWrite t).path.forwarded = s.path.forwarded ∧
    (s.placeWrite t).path.refused = s.path.refused ∧
    (s.placeWrite t).path.heldReads = s.path.heldReads := by
  obtain ⟨q, w, c, a, n, h⟩ := s.placeWrite_requeued t
  rw [h]
  exact ⟨rfl, rfl, rfl, rfl, rfl, rfl, rfl, rfl, rfl, rfl, rfl, rfl⟩

/-- What State.placeRead leaves of the copies and of the memory path. -/
@[simp] theorem State.placeRead_copies (s : State) (t : Txn) :
    (s.placeRead t).cmd.detect = s.cmd.detect ∧
    (s.placeRead t).cmd.plan = s.cmd.plan ∧
    (s.placeRead t).cmd.grade = s.cmd.grade ∧
    (s.placeRead t).cmd.strike = s.cmd.strike ∧
    (s.placeRead t).cmd.clock = s.cmd.clock ∧
    (s.placeRead t).cmd.mirror = s.cmd.mirror ∧
    (s.placeRead t).cmd.invalid = s.cmd.invalid ∧
    (s.placeRead t).path.rewrites = s.path.rewrites ∧
    (s.placeRead t).path.marker = s.path.marker ∧
    (s.placeRead t).path.forwarded = s.path.forwarded ∧
    (s.placeRead t).path.refused = s.path.refused ∧
    (s.placeRead t).path.heldReads = s.path.heldReads := by
  obtain ⟨q, w, c, a, n, h⟩ := s.placeRead_requeued t
  rw [h]
  exact ⟨rfl, rfl, rfl, rfl, rfl, rfl, rfl, rfl, rfl, rfl, rfl, rfl⟩

/-- What State.placeWrites leaves of the copies and of the memory path. -/
@[simp] theorem State.placeWrites_copies (s : State) (ts : List Txn) :
    (s.placeWrites ts).cmd.detect = s.cmd.detect ∧
    (s.placeWrites ts).cmd.plan = s.cmd.plan ∧
    (s.placeWrites ts).cmd.grade = s.cmd.grade ∧
    (s.placeWrites ts).cmd.strike = s.cmd.strike ∧
    (s.placeWrites ts).cmd.clock = s.cmd.clock ∧
    (s.placeWrites ts).cmd.mirror = s.cmd.mirror ∧
    (s.placeWrites ts).cmd.invalid = s.cmd.invalid ∧
    (s.placeWrites ts).path.rewrites = s.path.rewrites ∧
    (s.placeWrites ts).path.marker = s.path.marker ∧
    (s.placeWrites ts).path.forwarded = s.path.forwarded ∧
    (s.placeWrites ts).path.refused = s.path.refused ∧
    (s.placeWrites ts).path.heldReads = s.path.heldReads := by
  obtain ⟨q, w, c, a, n, h⟩ := State.placeWrites_requeued ts s
  rw [h]
  exact ⟨rfl, rfl, rfl, rfl, rfl, rfl, rfl, rfl, rfl, rfl, rfl, rfl⟩

/-- What State.placeReads leaves of the copies and of the memory path. -/
@[simp] theorem State.placeReads_copies (s : State) (ts : List Txn) :
    (s.placeReads ts).cmd.detect = s.cmd.detect ∧
    (s.placeReads ts).cmd.plan = s.cmd.plan ∧
    (s.placeReads ts).cmd.grade = s.cmd.grade ∧
    (s.placeReads ts).cmd.strike = s.cmd.strike ∧
    (s.placeReads ts).cmd.clock = s.cmd.clock ∧
    (s.placeReads ts).cmd.mirror = s.cmd.mirror ∧
    (s.placeReads ts).cmd.invalid = s.cmd.invalid ∧
    (s.placeReads ts).path.rewrites = s.path.rewrites ∧
    (s.placeReads ts).path.marker = s.path.marker ∧
    (s.placeReads ts).path.forwarded = s.path.forwarded ∧
    (s.placeReads ts).path.refused = s.path.refused ∧
    (s.placeReads ts).path.heldReads = s.path.heldReads := by
  obtain ⟨q, w, c, a, n, h⟩ := State.placeReads_requeued ts s
  rw [h]
  exact ⟨rfl, rfl, rfl, rfl, rfl, rfl, rfl, rfl, rfl, rfl, rfl, rfl⟩

/-- What State.writePage leaves of the copies and of the memory path. -/
@[simp] theorem State.writePage_copies (s : State) :
    (s.writePage).cmd.detect = s.cmd.detect ∧
    (s.writePage).cmd.plan = s.cmd.plan ∧
    (s.writePage).cmd.grade = s.cmd.grade ∧
    (s.writePage).cmd.strike = s.cmd.strike ∧
    (s.writePage).cmd.clock = s.cmd.clock ∧
    (s.writePage).cmd.mirror = s.cmd.mirror ∧
    (s.writePage).cmd.invalid = s.cmd.invalid ∧
    (s.writePage).path.rewrites = s.path.rewrites ∧
    (s.writePage).path.marker = s.path.marker ∧
    (s.writePage).path.forwarded = s.path.forwarded ∧
    (s.writePage).path.refused = s.path.refused ∧
    (s.writePage).path.heldReads = s.path.heldReads := by
  obtain ⟨q, w, c, a, n, h⟩ := s.writePage_requeued
  rw [h]
  exact ⟨rfl, rfl, rfl, rfl, rfl, rfl, rfl, rfl, rfl, rfl, rfl, rfl⟩

/-- What State.writePages leaves of the copies and of the memory path. -/
@[simp] theorem State.writePages_copies (n : Nat) (s : State) :
    (State.writePages n s).cmd.detect = s.cmd.detect ∧
    (State.writePages n s).cmd.plan = s.cmd.plan ∧
    (State.writePages n s).cmd.grade = s.cmd.grade ∧
    (State.writePages n s).cmd.strike = s.cmd.strike ∧
    (State.writePages n s).cmd.clock = s.cmd.clock ∧
    (State.writePages n s).cmd.mirror = s.cmd.mirror ∧
    (State.writePages n s).cmd.invalid = s.cmd.invalid ∧
    (State.writePages n s).path.rewrites = s.path.rewrites ∧
    (State.writePages n s).path.marker = s.path.marker ∧
    (State.writePages n s).path.forwarded = s.path.forwarded ∧
    (State.writePages n s).path.refused = s.path.refused ∧
    (State.writePages n s).path.heldReads = s.path.heldReads := by
  obtain ⟨q, w, c, a, n, h⟩ := State.writePages_requeued n s
  rw [h]
  exact ⟨rfl, rfl, rfl, rfl, rfl, rfl, rfl, rfl, rfl, rfl, rfl, rfl⟩

/-- What State.refill leaves of the copies and of the memory path. -/
@[simp] theorem State.refill_copies (s : State) :
    (s.refill).cmd.detect = s.cmd.detect ∧
    (s.refill).cmd.plan = s.cmd.plan ∧
    (s.refill).cmd.grade = s.cmd.grade ∧
    (s.refill).cmd.strike = s.cmd.strike ∧
    (s.refill).cmd.clock = s.cmd.clock ∧
    (s.refill).cmd.mirror = s.cmd.mirror ∧
    (s.refill).cmd.invalid = s.cmd.invalid ∧
    (s.refill).path.rewrites = s.path.rewrites ∧
    (s.refill).path.marker = s.path.marker ∧
    (s.refill).path.forwarded = s.path.forwarded ∧
    (s.refill).path.refused = s.path.refused ∧
    (s.refill).path.heldReads = s.path.heldReads := by
  obtain ⟨q, w, c, a, n, h⟩ := s.refill_requeued
  rw [h]
  exact ⟨rfl, rfl, rfl, rfl, rfl, rfl, rfl, rfl, rfl, rfl, rfl, rfl⟩

/-- What State.writePageOf leaves of the copies and of the memory path. -/
@[simp] theorem State.writePageOf_copies (s : State) (shown : State → State) :
    (s.writePageOf shown).cmd.detect = s.cmd.detect ∧
    (s.writePageOf shown).cmd.plan = s.cmd.plan ∧
    (s.writePageOf shown).cmd.grade = s.cmd.grade ∧
    (s.writePageOf shown).cmd.strike = s.cmd.strike ∧
    (s.writePageOf shown).cmd.clock = s.cmd.clock ∧
    (s.writePageOf shown).cmd.mirror = s.cmd.mirror ∧
    (s.writePageOf shown).cmd.invalid = s.cmd.invalid ∧
    (s.writePageOf shown).path.rewrites = s.path.rewrites ∧
    (s.writePageOf shown).path.marker = s.path.marker ∧
    (s.writePageOf shown).path.forwarded = s.path.forwarded ∧
    (s.writePageOf shown).path.refused = s.path.refused ∧
    (s.writePageOf shown).path.heldReads = s.path.heldReads := by
  unfold State.writePageOf
  simp

/-- What State.placeEntry leaves of the copies and of the memory path. -/
@[simp] theorem State.placeEntry_copies (s : State) (l : LogId) (b : List Byte) :
    (s.placeEntry l b).cmd.detect = s.cmd.detect ∧
    (s.placeEntry l b).cmd.plan = s.cmd.plan ∧
    (s.placeEntry l b).cmd.grade = s.cmd.grade ∧
    (s.placeEntry l b).cmd.strike = s.cmd.strike ∧
    (s.placeEntry l b).cmd.clock = s.cmd.clock ∧
    (s.placeEntry l b).cmd.mirror = s.cmd.mirror ∧
    (s.placeEntry l b).cmd.invalid = s.cmd.invalid ∧
    (s.placeEntry l b).path.rewrites = s.path.rewrites ∧
    (s.placeEntry l b).path.marker = s.path.marker ∧
    (s.placeEntry l b).path.forwarded = s.path.forwarded ∧
    (s.placeEntry l b).path.refused = s.path.refused ∧
    (s.placeEntry l b).path.heldReads = s.path.heldReads := by
  unfold State.placeEntry
  try dsimp only
  (repeat' split) <;> simp [State.setLog]

/-- What State.finishLane leaves of the copies and of the memory path. -/
@[simp] theorem State.finishLane_copies (s : State) (k : LaneId) (r : LaneStep) (x : Option (Nat × Option GapCause)) :
    (s.finishLane k r x).cmd.detect = s.cmd.detect ∧
    (s.finishLane k r x).cmd.plan = s.cmd.plan ∧
    (s.finishLane k r x).cmd.grade = s.cmd.grade ∧
    (s.finishLane k r x).cmd.strike = s.cmd.strike ∧
    (s.finishLane k r x).cmd.clock = s.cmd.clock ∧
    (s.finishLane k r x).cmd.mirror = s.cmd.mirror ∧
    (s.finishLane k r x).cmd.invalid = s.cmd.invalid ∧
    (s.finishLane k r x).path.rewrites = s.path.rewrites ∧
    (s.finishLane k r x).path.marker = s.path.marker ∧
    (s.finishLane k r x).path.forwarded = s.path.forwarded ∧
    (s.finishLane k r x).path.refused = s.path.refused ∧
    (s.finishLane k r x).path.heldReads = s.path.heldReads := by
  unfold State.finishLane
  try dsimp only
  (repeat' split) <;> simp

/-- What takeLanding leaves of the copies and of the memory path. -/
@[simp] theorem takeLanding_copies (k : LaneId) (w : LandingCopy) (s : State) :
    (takeLanding k w s).cmd.detect = s.cmd.detect ∧
    (takeLanding k w s).cmd.plan = s.cmd.plan ∧
    (takeLanding k w s).cmd.grade = s.cmd.grade ∧
    (takeLanding k w s).cmd.strike = s.cmd.strike ∧
    (takeLanding k w s).cmd.clock = s.cmd.clock ∧
    (takeLanding k w s).cmd.mirror = s.cmd.mirror ∧
    (takeLanding k w s).cmd.invalid = s.cmd.invalid ∧
    (takeLanding k w s).path.rewrites = s.path.rewrites ∧
    (takeLanding k w s).path.marker = s.path.marker ∧
    (takeLanding k w s).path.forwarded = s.path.forwarded ∧
    (takeLanding k w s).path.refused = s.path.refused ∧
    (takeLanding k w s).path.heldReads = s.path.heldReads := by
  unfold takeLanding
  try dsimp only
  (repeat' split) <;> simp

/-- What takeLineTrigger leaves of the copies and of the memory path. -/
@[simp] theorem takeLineTrigger_copies (k : LaneId) (n : Nat) (s : State) :
    (takeLineTrigger k n s).cmd.detect = s.cmd.detect ∧
    (takeLineTrigger k n s).cmd.plan = s.cmd.plan ∧
    (takeLineTrigger k n s).cmd.grade = s.cmd.grade ∧
    (takeLineTrigger k n s).cmd.strike = s.cmd.strike ∧
    (takeLineTrigger k n s).cmd.clock = s.cmd.clock ∧
    (takeLineTrigger k n s).cmd.mirror = s.cmd.mirror ∧
    (takeLineTrigger k n s).cmd.invalid = s.cmd.invalid ∧
    (takeLineTrigger k n s).path.rewrites = s.path.rewrites ∧
    (takeLineTrigger k n s).path.marker = s.path.marker ∧
    (takeLineTrigger k n s).path.forwarded = s.path.forwarded ∧
    (takeLineTrigger k n s).path.refused = s.path.refused ∧
    (takeLineTrigger k n s).path.heldReads = s.path.heldReads := by
  unfold takeLineTrigger
  try dsimp only
  (repeat' split) <;> simp

/-- What completeAnalysis leaves of the copies and of the memory path. -/
@[simp] theorem completeAnalysis_copies (a : Analysis) (c : Shadow) (s : State) :
    (completeAnalysis a c s).cmd.detect = s.cmd.detect ∧
    (completeAnalysis a c s).cmd.plan = s.cmd.plan ∧
    (completeAnalysis a c s).cmd.grade = s.cmd.grade ∧
    (completeAnalysis a c s).cmd.strike = s.cmd.strike ∧
    (completeAnalysis a c s).cmd.clock = s.cmd.clock ∧
    (completeAnalysis a c s).cmd.mirror = s.cmd.mirror ∧
    (completeAnalysis a c s).cmd.invalid = s.cmd.invalid ∧
    (completeAnalysis a c s).path.rewrites = s.path.rewrites ∧
    (completeAnalysis a c s).path.marker = s.path.marker ∧
    (completeAnalysis a c s).path.forwarded = s.path.forwarded ∧
    (completeAnalysis a c s).path.refused = s.path.refused ∧
    (completeAnalysis a c s).path.heldReads = s.path.heldReads := by
  unfold completeAnalysis
  try dsimp only
  (repeat' split) <;> simp

/-- What analysisBegin leaves of the copies and of the memory path. -/
@[simp] theorem analysisBegin_copies (s : State) :
    (analysisBegin s).cmd.plan = s.cmd.plan ∧
    (analysisBegin s).cmd.grade = s.cmd.grade ∧
    (analysisBegin s).cmd.strike = s.cmd.strike ∧
    (analysisBegin s).cmd.clock = s.cmd.clock ∧
    (analysisBegin s).cmd.mirror = s.cmd.mirror ∧
    (analysisBegin s).cmd.invalid = s.cmd.invalid := by
  unfold analysisBegin
  try dsimp only
  (repeat' split) <;> simp [State.takeDetect]

/-- What joinNext leaves of the copies and of the memory path. -/
@[simp] theorem joinNext_copies (s : State) :
    (joinNext s).cmd.plan = s.cmd.plan ∧
    (joinNext s).cmd.grade = s.cmd.grade ∧
    (joinNext s).cmd.strike = s.cmd.strike ∧
    (joinNext s).cmd.clock = s.cmd.clock ∧
    (joinNext s).cmd.mirror = s.cmd.mirror ∧
    (joinNext s).cmd.invalid = s.cmd.invalid := by
  unfold joinNext
  try dsimp only
  (repeat' split) <;> simp [State.takeDetect]

/-- What takeAsmMsg leaves of the copies and of the memory path. -/
@[simp] theorem takeAsmMsg_copies (m : AsmMsg) (s : State) :
    (takeAsmMsg m s).cmd.detect = s.cmd.detect ∧
    (takeAsmMsg m s).cmd.grade = s.cmd.grade ∧
    (takeAsmMsg m s).cmd.strike = s.cmd.strike ∧
    (takeAsmMsg m s).cmd.clock = s.cmd.clock ∧
    (takeAsmMsg m s).cmd.mirror = s.cmd.mirror ∧
    (takeAsmMsg m s).cmd.invalid = s.cmd.invalid := by
  unfold takeAsmMsg
  try dsimp only
  (repeat' split) <;> simp [State.finishPlan]

/-- What takePlannerRise leaves of the copies and of the memory path. -/
@[simp] theorem takePlannerRise_copies (m : Rise) (s : State) :
    (takePlannerRise m s).cmd.detect = s.cmd.detect ∧
    (takePlannerRise m s).cmd.grade = s.cmd.grade ∧
    (takePlannerRise m s).cmd.strike = s.cmd.strike ∧
    (takePlannerRise m s).cmd.clock = s.cmd.clock ∧
    (takePlannerRise m s).cmd.mirror = s.cmd.mirror ∧
    (takePlannerRise m s).cmd.invalid = s.cmd.invalid := by
  unfold takePlannerRise
  try dsimp only
  (repeat' split) <;> simp [State.finishPlan]

/-- What takeClaim leaves of the copies and of the memory path. -/
@[simp] theorem takeClaim_copies (n : Nat) (s : State) :
    (takeClaim n s).cmd.detect = s.cmd.detect ∧
    (takeClaim n s).cmd.grade = s.cmd.grade ∧
    (takeClaim n s).cmd.strike = s.cmd.strike ∧
    (takeClaim n s).cmd.clock = s.cmd.clock ∧
    (takeClaim n s).cmd.mirror = s.cmd.mirror ∧
    (takeClaim n s).cmd.invalid = s.cmd.invalid := by
  unfold takeClaim
  try dsimp only
  (repeat' split) <;> simp [State.finishPlan]

/-- What takePieceReq leaves of the copies and of the memory path. -/
@[simp] theorem takePieceReq_copies (m : PieceReq) (s : State) :
    (takePieceReq m s).cmd.detect = s.cmd.detect ∧
    (takePieceReq m s).cmd.grade = s.cmd.grade ∧
    (takePieceReq m s).cmd.strike = s.cmd.strike ∧
    (takePieceReq m s).cmd.clock = s.cmd.clock ∧
    (takePieceReq m s).cmd.mirror = s.cmd.mirror ∧
    (takePieceReq m s).cmd.invalid = s.cmd.invalid := by
  unfold takePieceReq
  try dsimp only
  (repeat' split) <;> simp [State.finishPlan, State.runEndDone_frame]

/-- What takeGrant leaves of the copies and of the memory path. -/
@[simp] theorem takeGrant_copies (n : Nat) (q : PieceKind) (h : Option Nat) (z : Nat) (c : Shadow) (s : State) :
    (takeGrant n q h z c s).cmd.detect = s.cmd.detect ∧
    (takeGrant n q h z c s).cmd.plan = s.cmd.plan ∧
    (takeGrant n q h z c s).cmd.grade = s.cmd.grade ∧
    (takeGrant n q h z c s).cmd.clock = s.cmd.clock ∧
    (takeGrant n q h z c s).cmd.mirror = s.cmd.mirror ∧
    (takeGrant n q h z c s).cmd.invalid = s.cmd.invalid := by
  unfold takeGrant
  try dsimp only
  (repeat' split) <;> simp

/-- What takeStrikeMsg leaves of the copies and of the memory path. -/
@[simp] theorem takeStrikeMsg_copies (m : StrikeMsg) (s : State) :
    (takeStrikeMsg m s).cmd.detect = s.cmd.detect ∧
    (takeStrikeMsg m s).cmd.plan = s.cmd.plan ∧
    (takeStrikeMsg m s).cmd.grade = s.cmd.grade ∧
    (takeStrikeMsg m s).cmd.clock = s.cmd.clock ∧
    (takeStrikeMsg m s).cmd.mirror = s.cmd.mirror ∧
    (takeStrikeMsg m s).cmd.invalid = s.cmd.invalid := by
  unfold takeStrikeMsg
  try dsimp only
  (repeat' split) <;> simp

/-- What gradingBegin leaves of the copies and of the memory path. -/
@[simp] theorem gradingBegin_copies (s : State) :
    (gradingBegin s).cmd.detect = s.cmd.detect ∧
    (gradingBegin s).cmd.plan = s.cmd.plan ∧
    (gradingBegin s).cmd.strike = s.cmd.strike ∧
    (gradingBegin s).cmd.clock = s.cmd.clock ∧
    (gradingBegin s).cmd.mirror = s.cmd.mirror ∧
    (gradingBegin s).cmd.invalid = s.cmd.invalid := by
  unfold gradingBegin
  try dsimp only
  (repeat' split) <;> simp

/-- What takeFlawRecord leaves of the copies and of the memory path. -/
@[simp] theorem takeFlawRecord_copies (m : FlawRecord) (s : State) :
    (takeFlawRecord m s).cmd.detect = s.cmd.detect ∧
    (takeFlawRecord m s).cmd.plan = s.cmd.plan ∧
    (takeFlawRecord m s).cmd.grade = s.cmd.grade ∧
    (takeFlawRecord m s).cmd.strike = s.cmd.strike ∧
    (takeFlawRecord m s).cmd.clock = s.cmd.clock ∧
    (takeFlawRecord m s).cmd.mirror = s.cmd.mirror ∧
    (takeFlawRecord m s).cmd.invalid = s.cmd.invalid ∧
    (takeFlawRecord m s).path.rewrites = s.path.rewrites ∧
    (takeFlawRecord m s).path.marker = s.path.marker ∧
    (takeFlawRecord m s).path.forwarded = s.path.forwarded ∧
    (takeFlawRecord m s).path.refused = s.path.refused ∧
    (takeFlawRecord m s).path.heldReads = s.path.heldReads := by
  unfold takeFlawRecord
  try dsimp only
  (repeat' split) <;> simp

/-- What takePlateOffer leaves of the copies and of the memory path. -/
@[simp] theorem takePlateOffer_copies (m : PlateRecord) (s : State) :
    (takePlateOffer m s).cmd.detect = s.cmd.detect ∧
    (takePlateOffer m s).cmd.plan = s.cmd.plan ∧
    (takePlateOffer m s).cmd.grade = s.cmd.grade ∧
    (takePlateOffer m s).cmd.strike = s.cmd.strike ∧
    (takePlateOffer m s).cmd.clock = s.cmd.clock ∧
    (takePlateOffer m s).cmd.mirror = s.cmd.mirror ∧
    (takePlateOffer m s).cmd.invalid = s.cmd.invalid ∧
    (takePlateOffer m s).path.rewrites = s.path.rewrites ∧
    (takePlateOffer m s).path.marker = s.path.marker ∧
    (takePlateOffer m s).path.forwarded = s.path.forwarded ∧
    (takePlateOffer m s).path.refused = s.path.refused ∧
    (takePlateOffer m s).path.heldReads = s.path.heldReads := by
  unfold takePlateOffer
  try dsimp only
  (repeat' split) <;> simp [State.setRefused, State.setLog]

/-- What takeShiftOffer leaves of the copies and of the memory path. -/
@[simp] theorem takeShiftOffer_copies (m : ShiftReport) (s : State) :
    (takeShiftOffer m s).cmd.detect = s.cmd.detect ∧
    (takeShiftOffer m s).cmd.plan = s.cmd.plan ∧
    (takeShiftOffer m s).cmd.grade = s.cmd.grade ∧
    (takeShiftOffer m s).cmd.strike = s.cmd.strike ∧
    (takeShiftOffer m s).cmd.clock = s.cmd.clock ∧
    (takeShiftOffer m s).cmd.mirror = s.cmd.mirror ∧
    (takeShiftOffer m s).cmd.invalid = s.cmd.invalid ∧
    (takeShiftOffer m s).path.rewrites = s.path.rewrites ∧
    (takeShiftOffer m s).path.marker = s.path.marker ∧
    (takeShiftOffer m s).path.forwarded = s.path.forwarded ∧
    (takeShiftOffer m s).path.refused = s.path.refused ∧
    (takeShiftOffer m s).path.heldReads = s.path.heldReads := by
  unfold takeShiftOffer
  try dsimp only
  (repeat' split) <;> simp [State.setRefused, State.setLog]

/-- What State.rewriteFault leaves of the copies and of the memory path. -/
@[simp] theorem State.rewriteFault_copies (s : State) (f : LogFields) (o : OpenFault) :
    (s.rewriteFault f o).cmd.detect = s.cmd.detect ∧
    (s.rewriteFault f o).cmd.plan = s.cmd.plan ∧
    (s.rewriteFault f o).cmd.grade = s.cmd.grade ∧
    (s.rewriteFault f o).cmd.strike = s.cmd.strike ∧
    (s.rewriteFault f o).cmd.clock = s.cmd.clock ∧
    (s.rewriteFault f o).cmd.mirror = s.cmd.mirror ∧
    (s.rewriteFault f o).cmd.invalid = s.cmd.invalid ∧
    (s.rewriteFault f o).path.rewrites = s.path.rewrites ∧
    (s.rewriteFault f o).path.marker = s.path.marker ∧
    (s.rewriteFault f o).path.forwarded = s.path.forwarded ∧
    (s.rewriteFault f o).path.refused = s.path.refused ∧
    (s.rewriteFault f o).path.heldReads = s.path.heldReads := by
  unfold State.rewriteFault
  try dsimp only
  (repeat' split) <;> simp

/-- What takeFault leaves of the copies and of the memory path. -/
@[simp] theorem takeFault_copies (m : FaultMsg) (s : State) :
    (takeFault m s).cmd.detect = s.cmd.detect ∧
    (takeFault m s).cmd.plan = s.cmd.plan ∧
    (takeFault m s).cmd.grade = s.cmd.grade ∧
    (takeFault m s).cmd.strike = s.cmd.strike ∧
    (takeFault m s).cmd.clock = s.cmd.clock ∧
    (takeFault m s).cmd.mirror = s.cmd.mirror ∧
    (takeFault m s).cmd.invalid = s.cmd.invalid ∧
    (takeFault m s).path.rewrites = s.path.rewrites ∧
    (takeFault m s).path.marker = s.path.marker ∧
    (takeFault m s).path.forwarded = s.path.forwarded ∧
    (takeFault m s).path.refused = s.path.refused ∧
    (takeFault m s).path.heldReads = s.path.heldReads := by
  unfold takeFault
  try dsimp only
  (repeat' split) <;> simp [State.setOpenFault]

/-- What writerSecond leaves of the copies and of the memory path. -/
@[simp] theorem writerSecond_copies (s : State) :
    (writerSecond s).cmd.detect = s.cmd.detect ∧
    (writerSecond s).cmd.plan = s.cmd.plan ∧
    (writerSecond s).cmd.grade = s.cmd.grade ∧
    (writerSecond s).cmd.strike = s.cmd.strike ∧
    (writerSecond s).cmd.clock = s.cmd.clock ∧
    (writerSecond s).cmd.mirror = s.cmd.mirror ∧
    (writerSecond s).cmd.invalid = s.cmd.invalid ∧
    (writerSecond s).path.rewrites = s.path.rewrites ∧
    (writerSecond s).path.marker = s.path.marker ∧
    (writerSecond s).path.forwarded = s.path.forwarded ∧
    (writerSecond s).path.refused = s.path.refused ∧
    (writerSecond s).path.heldReads = s.path.heldReads := by
  unfold writerSecond
  try dsimp only
  (repeat' split) <;> simp

/-- What makeEligible leaves of the copies and of the memory path. -/
@[simp] theorem makeEligible_copies (g : GroupId) (b : List Byte) (s : State) :
    (makeEligible g b s).cmd.mirror = s.cmd.mirror ∧
    (makeEligible g b s).path.rewrites = s.path.rewrites ∧
    (makeEligible g b s).path.marker = s.path.marker ∧
    (makeEligible g b s).path.forwarded = s.path.forwarded ∧
    (makeEligible g b s).path.refused = s.path.refused ∧
    (makeEligible g b s).path.heldReads = s.path.heldReads := by
  unfold makeEligible
  try dsimp only
  (repeat' split) <;> simp

/-- What takeVerdictRequest leaves of the copies and of the memory path. -/
@[simp] theorem takeVerdictRequest_copies (m : VerdictRequest) (s : State) :
    (takeVerdictRequest m s).cmd.mirror = s.cmd.mirror ∧
    (takeVerdictRequest m s).path.rewrites = s.path.rewrites ∧
    (takeVerdictRequest m s).path.marker = s.path.marker ∧
    (takeVerdictRequest m s).path.forwarded = s.path.forwarded ∧
    (takeVerdictRequest m s).path.refused = s.path.refused ∧
    (takeVerdictRequest m s).path.heldReads = s.path.heldReads := by
  unfold takeVerdictRequest
  try dsimp only
  (repeat' split) <;> simp

/-- What takeSeenWrite leaves of the copies and of the memory path. -/
@[simp] theorem takeSeenWrite_copies (m : SeenWrite) (s : State) :
    (takeSeenWrite m s).cmd.detect = s.cmd.detect ∧
    (takeSeenWrite m s).cmd.plan = s.cmd.plan ∧
    (takeSeenWrite m s).cmd.grade = s.cmd.grade ∧
    (takeSeenWrite m s).cmd.strike = s.cmd.strike ∧
    (takeSeenWrite m s).cmd.clock = s.cmd.clock ∧
    (takeSeenWrite m s).cmd.mirror = s.cmd.mirror ∧
    (takeSeenWrite m s).cmd.invalid = s.cmd.invalid := by
  unfold takeSeenWrite
  try dsimp only
  (repeat' split) <;> simp [State.evalAttn, State.setCmd]

/-- What commandTake leaves of the copies and of the memory path. -/
@[simp] theorem commandTake_copies (s : State) :
    (commandTake s).cmd.detect = s.cmd.detect ∧
    (commandTake s).cmd.plan = s.cmd.plan ∧
    (commandTake s).cmd.grade = s.cmd.grade ∧
    (commandTake s).cmd.strike = s.cmd.strike ∧
    (commandTake s).cmd.clock = s.cmd.clock ∧
    (commandTake s).cmd.mirror = s.cmd.mirror ∧
    (commandTake s).cmd.invalid = s.cmd.invalid ∧
    (commandTake s).path.rewrites = s.path.rewrites ∧
    (commandTake s).path.marker = s.path.marker ∧
    (commandTake s).path.forwarded = s.path.forwarded ∧
    (commandTake s).path.refused = s.path.refused ∧
    (commandTake s).path.heldReads = s.path.heldReads := by
  unfold commandTake
  try dsimp only
  (repeat' split) <;> simp

/-- What commandCompletion leaves of the copies and of the memory path. -/
@[simp] theorem commandCompletion_copies (s : State) :
    (commandCompletion s).cmd.detect = s.cmd.detect ∧
    (commandCompletion s).cmd.plan = s.cmd.plan ∧
    (commandCompletion s).cmd.grade = s.cmd.grade ∧
    (commandCompletion s).cmd.strike = s.cmd.strike ∧
    (commandCompletion s).cmd.clock = s.cmd.clock ∧
    (commandCompletion s).cmd.mirror = s.cmd.mirror ∧
    (commandCompletion s).cmd.invalid = s.cmd.invalid ∧
    (commandCompletion s).path.rewrites = s.path.rewrites ∧
    (commandCompletion s).path.marker = s.path.marker ∧
    (commandCompletion s).path.forwarded = s.path.forwarded ∧
    (commandCompletion s).path.refused = s.path.refused ∧
    (commandCompletion s).path.heldReads = s.path.heldReads := by
  unfold commandCompletion
  try dsimp only
  (repeat' split) <;> simp

/-- What slotData leaves of the copies and of the memory path. -/
@[simp] theorem slotData_copies (b : List Byte) (s : State) :
    (slotData b s).cmd.detect = s.cmd.detect ∧
    (slotData b s).cmd.plan = s.cmd.plan ∧
    (slotData b s).cmd.grade = s.cmd.grade ∧
    (slotData b s).cmd.strike = s.cmd.strike ∧
    (slotData b s).cmd.clock = s.cmd.clock ∧
    (slotData b s).cmd.mirror = s.cmd.mirror ∧
    (slotData b s).cmd.invalid = s.cmd.invalid := by
  unfold slotData
  try dsimp only
  (repeat' split) <;> simp

/-- What areaData leaves of the copies and of the memory path. -/
@[simp] theorem areaData_copies (b : List Byte) (s : State) :
    (areaData b s).cmd.detect = s.cmd.detect ∧
    (areaData b s).cmd.plan = s.cmd.plan ∧
    (areaData b s).cmd.grade = s.cmd.grade ∧
    (areaData b s).cmd.strike = s.cmd.strike ∧
    (areaData b s).cmd.clock = s.cmd.clock ∧
    (areaData b s).cmd.mirror = s.cmd.mirror ∧
    (areaData b s).cmd.invalid = s.cmd.invalid := by
  unfold areaData
  try dsimp only
  (repeat' split) <;> simp

/-- What memoryAnswer leaves of the copies and of the memory path. -/
@[simp] theorem memoryAnswer_copies (s : State) :
    (memoryAnswer s).cmd.detect = s.cmd.detect ∧
    (memoryAnswer s).cmd.plan = s.cmd.plan ∧
    (memoryAnswer s).cmd.grade = s.cmd.grade ∧
    (memoryAnswer s).cmd.strike = s.cmd.strike ∧
    (memoryAnswer s).cmd.clock = s.cmd.clock ∧
    (memoryAnswer s).cmd.mirror = s.cmd.mirror ∧
    (memoryAnswer s).cmd.invalid = s.cmd.invalid := by
  unfold memoryAnswer
  try dsimp only
  (repeat' split) <;> simp

/-- What sendInternal leaves of the copies and of the memory path. -/
@[simp] theorem sendInternal_copies (t : Txn) (r : List Txn) (s : State) :
    (sendInternal t r s).cmd.detect = s.cmd.detect ∧
    (sendInternal t r s).cmd.plan = s.cmd.plan ∧
    (sendInternal t r s).cmd.grade = s.cmd.grade ∧
    (sendInternal t r s).cmd.strike = s.cmd.strike ∧
    (sendInternal t r s).cmd.clock = s.cmd.clock ∧
    (sendInternal t r s).cmd.mirror = s.cmd.mirror ∧
    (sendInternal t r s).cmd.invalid = s.cmd.invalid := by
  unfold sendInternal
  try dsimp only
  (repeat' split) <;> simp

/-- What takeHeldOff leaves of the copies and of the memory path. -/
@[simp] theorem takeHeldOff_copies (hs : List HeldOff) (s : State) :
    (takeHeldOff hs s).cmd.detect = s.cmd.detect ∧
    (takeHeldOff hs s).cmd.plan = s.cmd.plan ∧
    (takeHeldOff hs s).cmd.grade = s.cmd.grade ∧
    (takeHeldOff hs s).cmd.strike = s.cmd.strike ∧
    (takeHeldOff hs s).cmd.clock = s.cmd.clock ∧
    (takeHeldOff hs s).cmd.mirror = s.cmd.mirror ∧
    (takeHeldOff hs s).cmd.invalid = s.cmd.invalid ∧
    (takeHeldOff hs s).path.rewrites = s.path.rewrites ∧
    (takeHeldOff hs s).path.marker = s.path.marker ∧
    (takeHeldOff hs s).path.forwarded = s.path.forwarded := by
  induction hs generalizing s with
  | nil => simp [takeHeldOff]
  | cons h hs ih =>
    unfold takeHeldOff
    split <;> simp [ih]

/-- What State.takeHeld leaves of the copies and of the memory path. -/
@[simp] theorem State.takeHeld_copies (s : State) :
    (s.takeHeld).cmd.detect = s.cmd.detect ∧
    (s.takeHeld).cmd.plan = s.cmd.plan ∧
    (s.takeHeld).cmd.grade = s.cmd.grade ∧
    (s.takeHeld).cmd.strike = s.cmd.strike ∧
    (s.takeHeld).cmd.clock = s.cmd.clock ∧
    (s.takeHeld).cmd.mirror = s.cmd.mirror ∧
    (s.takeHeld).cmd.invalid = s.cmd.invalid ∧
    (s.takeHeld).path.rewrites = s.path.rewrites ∧
    (s.takeHeld).path.marker = s.path.marker ∧
    (s.takeHeld).path.forwarded = s.path.forwarded := by
  unfold State.takeHeld
  try dsimp only
  (repeat' split) <;> simp

/-- What readRequest leaves of the copies and of the memory path. -/
@[simp] theorem readRequest_copies (q : Request) (s : State) :
    (readRequest q s).cmd.detect = s.cmd.detect ∧
    (readRequest q s).cmd.plan = s.cmd.plan ∧
    (readRequest q s).cmd.grade = s.cmd.grade ∧
    (readRequest q s).cmd.strike = s.cmd.strike ∧
    (readRequest q s).cmd.clock = s.cmd.clock ∧
    (readRequest q s).cmd.mirror = s.cmd.mirror ∧
    (readRequest q s).cmd.invalid = s.cmd.invalid ∧
    (readRequest q s).path.rewrites = s.path.rewrites ∧
    (readRequest q s).path.marker = s.path.marker ∧
    (readRequest q s).path.forwarded = s.path.forwarded := by
  unfold readRequest
  try dsimp only
  (repeat' split) <;> simp

/-- What writeRequest leaves of the copies and of the memory path. -/
@[simp] theorem writeRequest_copies (q : Request) (s : State) :
    (writeRequest q s).cmd.detect = s.cmd.detect ∧
    (writeRequest q s).cmd.plan = s.cmd.plan ∧
    (writeRequest q s).cmd.grade = s.cmd.grade ∧
    (writeRequest q s).cmd.strike = s.cmd.strike ∧
    (writeRequest q s).cmd.clock = s.cmd.clock ∧
    (writeRequest q s).cmd.mirror = s.cmd.mirror ∧
    (writeRequest q s).cmd.invalid = s.cmd.invalid ∧
    (writeRequest q s).path.rewrites = s.path.rewrites ∧
    (writeRequest q s).path.marker = s.path.marker ∧
    (writeRequest q s).path.forwarded = s.path.forwarded := by
  unfold writeRequest
  try dsimp only
  (repeat' split) <;> simp

/-- What takeVerdict leaves of the copies and of the memory path. -/
@[simp] theorem takeVerdict_copies (m : VerdictMsg) (s : State) :
    (takeVerdict m s).cmd.detect = s.cmd.detect ∧
    (takeVerdict m s).cmd.plan = s.cmd.plan ∧
    (takeVerdict m s).cmd.grade = s.cmd.grade ∧
    (takeVerdict m s).cmd.strike = s.cmd.strike ∧
    (takeVerdict m s).cmd.clock = s.cmd.clock ∧
    (takeVerdict m s).cmd.mirror = s.cmd.mirror ∧
    (takeVerdict m s).cmd.invalid = s.cmd.invalid ∧
    (takeVerdict m s).path.rewrites = s.path.rewrites ∧
    (takeVerdict m s).path.marker = s.path.marker ∧
    (takeVerdict m s).path.forwarded = s.path.forwarded := by
  unfold takeVerdict
  try dsimp only
  (repeat' split) <;> simp

/-- What takeAnnouncement leaves of the copies and of the memory path. -/
@[simp] theorem takeAnnouncement_copies (m : PendingRewrite) (s : State) :
    (takeAnnouncement m s).cmd.detect = s.cmd.detect ∧
    (takeAnnouncement m s).cmd.plan = s.cmd.plan ∧
    (takeAnnouncement m s).cmd.grade = s.cmd.grade ∧
    (takeAnnouncement m s).cmd.strike = s.cmd.strike ∧
    (takeAnnouncement m s).cmd.clock = s.cmd.clock ∧
    (takeAnnouncement m s).cmd.mirror = s.cmd.mirror ∧
    (takeAnnouncement m s).cmd.invalid = s.cmd.invalid ∧
    (takeAnnouncement m s).path.marker = s.path.marker ∧
    (takeAnnouncement m s).path.forwarded = s.path.forwarded ∧
    (takeAnnouncement m s).path.refused = s.path.refused := by
  unfold takeAnnouncement
  try dsimp only
  (repeat' split) <;> simp

/-- What copyConfig leaves of the copies and of the memory path. -/
@[simp] theorem copyConfig_copies (q : Request) (s : State) :
    (copyConfig q s).cmd.detect = s.cmd.detect ∧
    (copyConfig q s).cmd.plan = s.cmd.plan ∧
    (copyConfig q s).cmd.grade = s.cmd.grade ∧
    (copyConfig q s).cmd.strike = s.cmd.strike ∧
    (copyConfig q s).cmd.clock = s.cmd.clock ∧
    (copyConfig q s).cmd.invalid = s.cmd.invalid ∧
    (copyConfig q s).path.rewrites = s.path.rewrites ∧
    (copyConfig q s).path.marker = s.path.marker ∧
    (copyConfig q s).path.forwarded = s.path.forwarded ∧
    (copyConfig q s).path.refused = s.path.refused ∧
    (copyConfig q s).path.heldReads = s.path.heldReads := by
  unfold copyConfig
  try dsimp only
  (repeat' split) <;> simp

/-- What copyCommand leaves of the copies and of the memory path. -/
@[simp] theorem copyCommand_copies (q : Request) (s : State) :
    (copyCommand q s).cmd.detect = s.cmd.detect ∧
    (copyCommand q s).cmd.plan = s.cmd.plan ∧
    (copyCommand q s).cmd.grade = s.cmd.grade ∧
    (copyCommand q s).cmd.strike = s.cmd.strike ∧
    (copyCommand q s).cmd.clock = s.cmd.clock ∧
    (copyCommand q s).cmd.mirror = s.cmd.mirror ∧
    (copyCommand q s).cmd.invalid = s.cmd.invalid ∧
    (copyCommand q s).path.rewrites = s.path.rewrites ∧
    (copyCommand q s).path.marker = s.path.marker ∧
    (copyCommand q s).path.forwarded = s.path.forwarded ∧
    (copyCommand q s).path.refused = s.path.refused ∧
    (copyCommand q s).path.heldReads = s.path.heldReads := by
  unfold copyCommand
  try dsimp only
  (repeat' split) <;> simp

/-- What copyOn leaves of the copies and of the memory path. -/
@[simp] theorem copyOn_copies (e : PassEntry) (s : State) :
    (copyOn e s).cmd.detect = s.cmd.detect ∧
    (copyOn e s).cmd.plan = s.cmd.plan ∧
    (copyOn e s).cmd.grade = s.cmd.grade ∧
    (copyOn e s).cmd.strike = s.cmd.strike ∧
    (copyOn e s).cmd.clock = s.cmd.clock ∧
    (copyOn e s).cmd.invalid = s.cmd.invalid ∧
    (copyOn e s).path.rewrites = s.path.rewrites ∧
    (copyOn e s).path.marker = s.path.marker ∧
    (copyOn e s).path.forwarded = s.path.forwarded ∧
    (copyOn e s).path.refused = s.path.refused ∧
    (copyOn e s).path.heldReads = s.path.heldReads := by
  unfold copyOn
  try dsimp only
  (repeat' split) <;> simp

/-- What passEffect leaves of the copies and of the memory path. -/
@[simp] theorem passEffect_copies (e : PassEntry) (s : State) :
    (passEffect e s).cmd.detect = s.cmd.detect ∧
    (passEffect e s).cmd.plan = s.cmd.plan ∧
    (passEffect e s).cmd.grade = s.cmd.grade ∧
    (passEffect e s).cmd.strike = s.cmd.strike ∧
    (passEffect e s).cmd.clock = s.cmd.clock ∧
    (passEffect e s).cmd.invalid = s.cmd.invalid ∧
    (passEffect e s).path.rewrites = s.path.rewrites ∧
    (passEffect e s).path.marker = s.path.marker ∧
    (passEffect e s).path.forwarded = s.path.forwarded ∧
    (passEffect e s).path.refused = s.path.refused ∧
    (passEffect e s).path.heldReads = s.path.heldReads := by
  unfold passEffect
  try dsimp only
  (repeat' split) <;> simp

/-- What sendPass leaves of the copies and of the memory path. -/
@[simp] theorem sendPass_copies (e : PassEntry) (r : List PassEntry) (s : State) :
    (sendPass e r s).cmd.detect = s.cmd.detect ∧
    (sendPass e r s).cmd.plan = s.cmd.plan ∧
    (sendPass e r s).cmd.grade = s.cmd.grade ∧
    (sendPass e r s).cmd.strike = s.cmd.strike ∧
    (sendPass e r s).cmd.clock = s.cmd.clock ∧
    (sendPass e r s).cmd.invalid = s.cmd.invalid ∧
    (sendPass e r s).path.rewrites = s.path.rewrites := by
  unfold sendPass
  try dsimp only
  (repeat' split) <;> simp

/-- What mPortSend leaves of the copies and of the memory path. -/
@[simp] theorem mPortSend_copies (s : State) :
    (mPortSend s).cmd.detect = s.cmd.detect ∧
    (mPortSend s).cmd.plan = s.cmd.plan ∧
    (mPortSend s).cmd.grade = s.cmd.grade ∧
    (mPortSend s).cmd.strike = s.cmd.strike ∧
    (mPortSend s).cmd.clock = s.cmd.clock ∧
    (mPortSend s).cmd.invalid = s.cmd.invalid := by
  unfold mPortSend
  try dsimp only
  (repeat' split) <;> simp

/-- What onLanes_fold leaves of the copies and of the memory path. -/
@[simp] theorem onLanes_fold_copies (f : Lane → LaneStep) (ks : List LaneId) (s : State) :
    (ks.foldl (fun s k => s.finishLane k (f s.lanes[k]) none) s).cmd.detect = s.cmd.detect ∧
    (ks.foldl (fun s k => s.finishLane k (f s.lanes[k]) none) s).cmd.plan = s.cmd.plan ∧
    (ks.foldl (fun s k => s.finishLane k (f s.lanes[k]) none) s).cmd.grade = s.cmd.grade ∧
    (ks.foldl (fun s k => s.finishLane k (f s.lanes[k]) none) s).cmd.strike = s.cmd.strike ∧
    (ks.foldl (fun s k => s.finishLane k (f s.lanes[k]) none) s).cmd.clock = s.cmd.clock ∧
    (ks.foldl (fun s k => s.finishLane k (f s.lanes[k]) none) s).cmd.mirror = s.cmd.mirror ∧
    (ks.foldl (fun s k => s.finishLane k (f s.lanes[k]) none) s).cmd.invalid = s.cmd.invalid ∧
    (ks.foldl (fun s k => s.finishLane k (f s.lanes[k]) none) s).path.rewrites = s.path.rewrites ∧
    (ks.foldl (fun s k => s.finishLane k (f s.lanes[k]) none) s).path.marker = s.path.marker ∧
    (ks.foldl (fun s k => s.finishLane k (f s.lanes[k]) none) s).path.forwarded = s.path.forwarded ∧
    (ks.foldl (fun s k => s.finishLane k (f s.lanes[k]) none) s).path.refused = s.path.refused ∧
    (ks.foldl (fun s k => s.finishLane k (f s.lanes[k]) none) s).path.heldReads = s.path.heldReads := by
  exact ⟨foldl_keeps _ (fun s => s.cmd.detect) (fun _ _ => by simp) _ _, foldl_keeps _ (fun s => s.cmd.plan) (fun _ _ => by simp) _ _, foldl_keeps _ (fun s => s.cmd.grade) (fun _ _ => by simp) _ _, foldl_keeps _ (fun s => s.cmd.strike) (fun _ _ => by simp) _ _, foldl_keeps _ (fun s => s.cmd.clock) (fun _ _ => by simp) _ _, foldl_keeps _ (fun s => s.cmd.mirror) (fun _ _ => by simp) _ _, foldl_keeps _ (fun s => s.cmd.invalid) (fun _ _ => by simp) _ _, foldl_keeps _ (fun s => s.path.rewrites) (fun _ _ => by simp) _ _, foldl_keeps _ (fun s => s.path.marker) (fun _ _ => by simp) _ _, foldl_keeps _ (fun s => s.path.forwarded) (fun _ _ => by simp) _ _, foldl_keeps _ (fun s => s.path.refused) (fun _ _ => by simp) _ _, foldl_keeps _ (fun s => s.path.heldReads) (fun _ _ => by simp) _ _⟩

/-- What onLanes leaves of the copies and of the memory path. -/
@[simp] theorem onLanes_copies (f : Lane → LaneStep) (b : List Byte) (s : State) :
    ((onLanes f b s).2).cmd.detect = s.cmd.detect ∧
    ((onLanes f b s).2).cmd.plan = s.cmd.plan ∧
    ((onLanes f b s).2).cmd.grade = s.cmd.grade ∧
    ((onLanes f b s).2).cmd.strike = s.cmd.strike ∧
    ((onLanes f b s).2).cmd.clock = s.cmd.clock ∧
    ((onLanes f b s).2).cmd.mirror = s.cmd.mirror ∧
    ((onLanes f b s).2).cmd.invalid = s.cmd.invalid ∧
    ((onLanes f b s).2).path.rewrites = s.path.rewrites ∧
    ((onLanes f b s).2).path.marker = s.path.marker ∧
    ((onLanes f b s).2).path.forwarded = s.path.forwarded ∧
    ((onLanes f b s).2).path.refused = s.path.refused ∧
    ((onLanes f b s).2).path.heldReads = s.path.heldReads := by
  unfold onLanes
  try dsimp only
  (repeat' split) <;> simp [-Fin.getElem_fin]

/-- What manualCut leaves of the copies and of the memory path. -/
@[simp] theorem manualCut_copies (b : List Byte) (s : State) :
    ((manualCut b s).2).cmd.detect = s.cmd.detect ∧
    ((manualCut b s).2).cmd.grade = s.cmd.grade ∧
    ((manualCut b s).2).cmd.strike = s.cmd.strike ∧
    ((manualCut b s).2).cmd.clock = s.cmd.clock ∧
    ((manualCut b s).2).cmd.mirror = s.cmd.mirror ∧
    ((manualCut b s).2).cmd.invalid = s.cmd.invalid := by
  unfold manualCut
  try dsimp only
  (repeat' split) <;> simp [State.finishPlan]

/-- What State.enterRunning leaves of the copies and of the memory path. -/
@[simp] theorem State.enterRunning_copies (s : State) (c : Shadow) :
    (s.enterRunning c).cmd.detect = s.cmd.detect ∧
    (s.enterRunning c).cmd.grade = s.cmd.grade ∧
    (s.enterRunning c).cmd.strike = s.cmd.strike ∧
    (s.enterRunning c).cmd.clock = s.cmd.clock ∧
    (s.enterRunning c).cmd.mirror = s.cmd.mirror ∧
    (s.enterRunning c).cmd.invalid = s.cmd.invalid ∧
    (s.enterRunning c).path.rewrites = s.path.rewrites ∧
    (s.enterRunning c).path.marker = s.path.marker ∧
    (s.enterRunning c).path.forwarded = s.path.forwarded ∧
    (s.enterRunning c).path.refused = s.path.refused ∧
    (s.enterRunning c).path.heldReads = s.path.heldReads := by
  unfold State.enterRunning
  try dsimp only
  (repeat' split) <;> simp [State.handRunState, State.stepLanes, State.finishPlan]

/-- What startRun leaves of the copies and of the memory path. -/
@[simp] theorem startRun_copies (s : State) :
    ((startRun s).2).cmd.mirror = s.cmd.mirror ∧
    ((startRun s).2).cmd.invalid = s.cmd.invalid ∧
    ((startRun s).2).path.rewrites = s.path.rewrites ∧
    ((startRun s).2).path.marker = s.path.marker ∧
    ((startRun s).2).path.forwarded = s.path.forwarded ∧
    ((startRun s).2).path.refused = s.path.refused ∧
    ((startRun s).2).path.heldReads = s.path.heldReads := by
  unfold startRun
  try dsimp only
  (repeat' split) <;> simp [Command.activateAll]

/-- What State.leaveRunning leaves of the copies and of the memory path. -/
@[simp] theorem State.leaveRunning_copies (s : State) :
    (s.leaveRunning).cmd.detect = s.cmd.detect ∧
    (s.leaveRunning).cmd.plan = s.cmd.plan ∧
    (s.leaveRunning).cmd.grade = s.cmd.grade ∧
    (s.leaveRunning).cmd.strike = s.cmd.strike ∧
    (s.leaveRunning).cmd.clock = s.cmd.clock ∧
    (s.leaveRunning).cmd.mirror = s.cmd.mirror ∧
    (s.leaveRunning).cmd.invalid = s.cmd.invalid ∧
    (s.leaveRunning).path.rewrites = s.path.rewrites ∧
    (s.leaveRunning).path.marker = s.path.marker ∧
    (s.leaveRunning).path.forwarded = s.path.forwarded ∧
    (s.leaveRunning).path.refused = s.path.refused ∧
    (s.leaveRunning).path.heldReads = s.path.heldReads := by
  unfold State.leaveRunning
  try dsimp only
  (repeat' split) <;> simp [State.handRunState, State.stepLanes]

/-- What stopRun leaves of the copies and of the memory path. -/
@[simp] theorem stopRun_copies (s : State) :
    ((stopRun s).2).cmd.detect = s.cmd.detect ∧
    ((stopRun s).2).cmd.plan = s.cmd.plan ∧
    ((stopRun s).2).cmd.grade = s.cmd.grade ∧
    ((stopRun s).2).cmd.strike = s.cmd.strike ∧
    ((stopRun s).2).cmd.clock = s.cmd.clock ∧
    ((stopRun s).2).cmd.mirror = s.cmd.mirror ∧
    ((stopRun s).2).cmd.invalid = s.cmd.invalid ∧
    ((stopRun s).2).path.rewrites = s.path.rewrites ∧
    ((stopRun s).2).path.marker = s.path.marker ∧
    ((stopRun s).2).path.forwarded = s.path.forwarded ∧
    ((stopRun s).2).path.refused = s.path.refused ∧
    ((stopRun s).2).path.heldReads = s.path.heldReads := by
  unfold stopRun
  try dsimp only
  (repeat' split) <;> simp

/-- What resetRun leaves of the copies and of the memory path. -/
@[simp] theorem resetRun_copies (s : State) :
    ((resetRun s).2).cmd.detect = s.cmd.detect ∧
    ((resetRun s).2).cmd.plan = s.cmd.plan ∧
    ((resetRun s).2).cmd.grade = s.cmd.grade ∧
    ((resetRun s).2).cmd.strike = s.cmd.strike ∧
    ((resetRun s).2).cmd.clock = s.cmd.clock ∧
    ((resetRun s).2).cmd.mirror = s.cmd.mirror ∧
    ((resetRun s).2).cmd.invalid = s.cmd.invalid ∧
    ((resetRun s).2).path.rewrites = s.path.rewrites ∧
    ((resetRun s).2).path.marker = s.path.marker ∧
    ((resetRun s).2).path.forwarded = s.path.forwarded ∧
    ((resetRun s).2).path.refused = s.path.refused ∧
    ((resetRun s).2).path.heldReads = s.path.heldReads := by
  unfold resetRun
  try dsimp only
  (repeat' split) <;> simp [State.handRunState]

/-- What takeRunEnd leaves of the copies and of the memory path. -/
@[simp] theorem takeRunEnd_copies (s : State) :
    (takeRunEnd s).cmd.detect = s.cmd.detect ∧
    (takeRunEnd s).cmd.plan = s.cmd.plan ∧
    (takeRunEnd s).cmd.grade = s.cmd.grade ∧
    (takeRunEnd s).cmd.strike = s.cmd.strike ∧
    (takeRunEnd s).cmd.clock = s.cmd.clock ∧
    (takeRunEnd s).cmd.mirror = s.cmd.mirror ∧
    (takeRunEnd s).cmd.invalid = s.cmd.invalid ∧
    (takeRunEnd s).path.rewrites = s.path.rewrites ∧
    (takeRunEnd s).path.marker = s.path.marker ∧
    (takeRunEnd s).path.forwarded = s.path.forwarded ∧
    (takeRunEnd s).path.refused = s.path.refused ∧
    (takeRunEnd s).path.heldReads = s.path.heldReads := by
  unfold takeRunEnd
  try dsimp only
  (repeat' split) <;> simp [State.handRunState]

/-- What State.applyConfiguration leaves of the copies and of the memory path. -/
@[simp] theorem State.applyConfiguration_copies (s : State) (a : Area) :
    (s.applyConfiguration a).path.rewrites = s.path.rewrites ∧
    (s.applyConfiguration a).path.marker = s.path.marker ∧
    (s.applyConfiguration a).path.forwarded = s.path.forwarded ∧
    (s.applyConfiguration a).path.refused = s.path.refused ∧
    (s.applyConfiguration a).path.heldReads = s.path.heldReads := by
  unfold State.applyConfiguration
  try dsimp only
  (repeat' split) <;> simp [State.handRunState, Command.configured, State.setShift, State.setCmd]

/-- What State.configureRefused leaves of the copies and of the memory path. -/
@[simp] theorem State.configureRefused_copies (s : State) (r : Reason) :
    ((s.configureRefused r).2).cmd.detect = s.cmd.detect ∧
    ((s.configureRefused r).2).cmd.plan = s.cmd.plan ∧
    ((s.configureRefused r).2).cmd.grade = s.cmd.grade ∧
    ((s.configureRefused r).2).cmd.strike = s.cmd.strike ∧
    ((s.configureRefused r).2).cmd.clock = s.cmd.clock ∧
    ((s.configureRefused r).2).cmd.mirror = s.cmd.mirror ∧
    ((s.configureRefused r).2).cmd.invalid = s.cmd.invalid := by
  simp [State.configureRefused]

/-- What configureRead leaves of the copies and of the memory path. -/
@[simp] theorem configureRead_copies (b : List Byte) (s : State) :
    ((configureRead b s).2).path.rewrites = s.path.rewrites ∧
    ((configureRead b s).2).path.marker = s.path.marker ∧
    ((configureRead b s).2).path.forwarded = s.path.forwarded ∧
    ((configureRead b s).2).path.refused = s.path.refused ∧
    ((configureRead b s).2).path.heldReads = s.path.heldReads := by
  unfold configureRead
  try dsimp only
  (repeat' split) <;> simp

/-- What configureBegin leaves of the copies and of the memory path. -/
@[simp] theorem configureBegin_copies (n : Nat) (s : State) :
    (configureBegin n s).cmd.detect = s.cmd.detect ∧
    (configureBegin n s).cmd.plan = s.cmd.plan ∧
    (configureBegin n s).cmd.grade = s.cmd.grade ∧
    (configureBegin n s).cmd.strike = s.cmd.strike ∧
    (configureBegin n s).cmd.clock = s.cmd.clock ∧
    (configureBegin n s).cmd.mirror = s.cmd.mirror ∧
    (configureBegin n s).cmd.invalid = s.cmd.invalid ∧
    (configureBegin n s).path.rewrites = s.path.rewrites ∧
    (configureBegin n s).path.marker = s.path.marker ∧
    (configureBegin n s).path.forwarded = s.path.forwarded ∧
    (configureBegin n s).path.refused = s.path.refused ∧
    (configureBegin n s).path.heldReads = s.path.heldReads := by
  unfold configureBegin
  try dsimp only
  (repeat' split) <;> simp [State.finishCommand]

/-- What configure leaves of the copies and of the memory path. -/
@[simp] theorem configure_copies (s : State) :
    (configure s).path.rewrites = s.path.rewrites ∧
    (configure s).path.marker = s.path.marker ∧
    (configure s).path.forwarded = s.path.forwarded ∧
    (configure s).path.refused = s.path.refused ∧
    (configure s).path.heldReads = s.path.heldReads := by
  unfold configure
  try dsimp only
  (repeat' split) <;> simp [State.finishCommand]

/-- What resetEnd leaves of the copies and of the memory path. -/
@[simp] theorem resetEnd_copies (c : Fin 16) (a b : Bool) (s : State) :
    (resetEnd c a b s).cmd.detect = s.cmd.detect ∧
    (resetEnd c a b s).cmd.plan = s.cmd.plan ∧
    (resetEnd c a b s).cmd.grade = s.cmd.grade ∧
    (resetEnd c a b s).cmd.strike = s.cmd.strike ∧
    (resetEnd c a b s).cmd.clock = s.cmd.clock ∧
    (resetEnd c a b s).cmd.mirror = s.cmd.mirror ∧
    (resetEnd c a b s).cmd.invalid = s.cmd.invalid ∧
    (resetEnd c a b s).path.rewrites = s.path.rewrites ∧
    (resetEnd c a b s).path.marker = s.path.marker ∧
    (resetEnd c a b s).path.forwarded = s.path.forwarded := by
  unfold resetEnd
  try dsimp only
  (repeat' split) <;> simp

end Sys2Proof.Machine
end

