-- ==== Sys2Proof/Laws/Images.lean ====
section
/-! SUPPORT. The laws of an image laid out from its fields: what a byte of it is, so that a reader of an image need not
walk it. -/

namespace Sys2Proof.Machine

/-- The fields of a layout stand in rising order and apart, the first at pos or above. -/
def inLayoutOrder : Nat → List (Nat × List Byte) → Bool
  | _, [] => true
  | pos, (o, bytes) :: rest => decide (pos ≤ o) && inLayoutOrder (o + bytes.length) rest

/-- The byte at offset i of an image with the fields given, 0 between them (R174). -/
def layoutByte : List (Nat × List Byte) → Nat → Byte
  | [], _ => 0
  | (o, bytes) :: rest, i => if i < o then 0 else if i < o + bytes.length then bytes.getD (i - o) 0 else layoutByte rest i

/-- A byte of zeros is zero. -/
theorem zeros_getD (n i : Nat) : (zeros n).getD i 0 = 0 := by
  simp only [zeros, List.getD_eq_getElem?_getD, List.getElem?_replicate]
  split <;> rfl

/-- A byte of a layout. -/
theorem layout_getD (size : Nat) (parts : List (Nat × List Byte)) : ∀ (pos i : Nat), pos ≤ i →
    inLayoutOrder pos parts = true → (layout size pos parts).getD (i - pos) 0 = layoutByte parts i := by
  induction parts with
  | nil => intro pos i _ _; exact zeros_getD _ _
  | cons part rest ih =>
    intro pos i hi ho
    obtain ⟨o, bytes⟩ := part
    simp only [inLayoutOrder, Bool.and_eq_true, decide_eq_true_eq] at ho
    simp only [layout, layoutByte, List.append_assoc]
    split
    · rename_i h
      rw [List.getD_append _ _ _ _ (by simp [zeros]; omega)]
      exact zeros_getD _ _
    · rename_i h
      rw [List.getD_append_right _ _ _ _ (by simp [zeros]; omega)]
      have hz : (zeros (o - pos)).length = o - pos := by simp [zeros]
      rw [hz, show i - pos - (o - pos) = i - o by omega]
      split
      · rename_i h2
        rw [List.getD_append _ _ _ _ (by omega)]
      · rename_i h2
        rw [List.getD_append_right _ _ _ _ (by omega), ← ih (o + bytes.length) i (by omega) ho.2]
        congr 1; omega

/-- The bytes of a layout from offset o on. -/
def layoutSlice (parts : List (Nat × List Byte)) : Nat → Nat → List Byte
  | _, 0 => []
  | o, n + 1 => layoutByte parts o :: layoutSlice parts (o + 1) n

/-- A byte of a laid out image, read as a number. -/
theorem layout_byteAt (size : Nat) (parts : List (Nat × List Byte)) (h : inLayoutOrder 0 parts = true) (i : Nat) :
    byteAt (layout size 0 parts) i = (layoutByte parts i).toNat := by
  rw [byteAt, ← layout_getD size parts 0 i (Nat.zero_le i) h, Nat.sub_zero]

/-- A slice of a laid out image. -/
theorem layout_slice (size : Nat) (parts : List (Nat × List Byte)) (h : inLayoutOrder 0 parts = true) (n : Nat) :
    ∀ o, slice (layout size 0 parts) o n = layoutSlice parts o n := by
  induction n with
  | zero => intro o; rfl
  | succ n ih =>
    intro o
    rw [slice, layoutSlice, ih, ← layout_getD size parts 0 o (Nat.zero_le o) h, Nat.sub_zero]

/-- A field of a laid out image. -/
theorem layout_field (size : Nat) (parts : List (Nat × List Byte)) (h : inLayoutOrder 0 parts = true) (o n : Nat) :
    field (layout size 0 parts) o n = fromLe (layoutSlice parts o n) := by
  rw [field, layout_slice size parts h]

/-! ## Fields of an image, part by part -/

/-- A field of n bytes has n of them. -/
@[simp] theorem le_length (n v : Nat) : (le n v).length = n := by
  induction n generalizing v with
  | zero => rfl
  | succ n ih => simp [le, ih]

/-- A little-endian field spells the low n bytes of its value. -/
theorem fromLe_le (n v : Nat) : fromLe (le n v) = v % 256 ^ n := by
  induction n generalizing v with
  | zero => simp [le, fromLe, Nat.mod_one]
  | succ n ih =>
    rw [le, fromLe, ih, BitVec.toNat_ofNat]
    exact (Nat.pow_succ' ▸ Nat.mod_mul (x := v) (a := 256) (b := 256 ^ n)).symm

/-- A slice that stands in the first of two images. -/
theorem slice_append_left (a b : List Byte) (n : Nat) : ∀ o, o + n ≤ a.length → slice (a ++ b) o n = slice a o n := by
  induction n with
  | zero => intro o _; rfl
  | succ n ih =>
    intro o h
    rw [slice, slice, ih (o + 1) (by omega), List.getD_append _ _ _ _ (by omega)]

/-- A slice that stands in the second of two images. -/
theorem slice_append_right (a b : List Byte) (n : Nat) : ∀ o, a.length ≤ o → slice (a ++ b) o n = slice b (o - a.length) n := by
  induction n with
  | zero => intro o _; rfl
  | succ n ih =>
    intro o h
    rw [slice, slice, ih (o + 1) (by omega), List.getD_append_right _ _ _ _ h, Nat.sub_add_comm h]

/-- The whole of an image as a slice. -/
theorem slice_whole (a : List Byte) : slice a 0 a.length = a := by
  induction a with
  | nil => rfl
  | cons x rest ih =>
    rw [List.length_cons, slice]
    exact congrArg (x :: ·) (((slice_append_right [x] rest rest.length 1 (Nat.le_refl 1)).trans ih))

/-- A field that stands in the first of two images. -/
theorem field_append_left (a b : List Byte) (o n : Nat) (h : o + n ≤ a.length) : field (a ++ b) o n = field a o n := by
  rw [field, field, slice_append_left a b n o h]

/-- A field that stands in the second of two images. -/
theorem field_append_right (a b : List Byte) (o n : Nat) (h : a.length ≤ o) :
    field (a ++ b) o n = field b (o - a.length) n := by
  rw [field, field, slice_append_right a b n o h]

/-- A field that fills an image shows its value in the image's low bytes. -/
theorem field_le (n v : Nat) : field (le n v) 0 n = v % 256 ^ n := by
  have h := slice_whole (le n v)
  rw [le_length] at h
  rw [field, h, fromLe_le]

/-- A field within one of the fields of a layout. -/
theorem layout_field_within (size : Nat) (bytes : List Byte) (o d n : Nat) (h : d + n ≤ bytes.length)
    (parts : List (Nat × List Byte)) : ∀ pos, inLayoutOrder pos parts = true → (o, bytes) ∈ parts →
      field (layout size pos parts) (o - pos + d) n = field bytes d n := by
  induction parts with
  | nil => intro pos _ hm; cases hm
  | cons part rest ih =>
    intro pos ho hm
    obtain ⟨p, bs⟩ := part
    simp only [inLayoutOrder, Bool.and_eq_true, decide_eq_true_eq] at ho
    have hz : (zeros (p - pos)).length = p - pos := by simp [zeros]
    have hle : ∀ (q : Nat) (ps : List (Nat × List Byte)), inLayoutOrder q ps = true → (o, bytes) ∈ ps → q ≤ o := by
      intro q ps
      induction ps generalizing q with
      | nil => intro _ hm; cases hm
      | cons x xs ihx =>
        intro hx hmem
        obtain ⟨y, ys⟩ := x
        simp only [inLayoutOrder, Bool.and_eq_true, decide_eq_true_eq] at hx
        rcases List.mem_cons.mp hmem with heq | hin
        · cases heq; exact hx.1
        · exact Nat.le_trans (Nat.le_trans hx.1 (Nat.le_add_right _ _)) (ihx _ hx.2 hin)
    simp only [layout, List.append_assoc]
    rcases List.mem_cons.mp hm with heq | hin
    · cases heq
      rw [field_append_right _ _ _ _ (by omega), field_append_left _ _ _ _ (by omega)]
      congr 1; omega
    · have hq := hle _ _ ho.2 hin
      rw [field_append_right _ _ _ _ (by omega), field_append_right _ _ _ _ (by omega), ← ih _ ho.2 hin]
      congr 1; omega

end Sys2Proof.Machine
end

