-- ==== Sys2Proof/Laws/Lanes.lean ====
section
/-! SUPPORT. The laws of the end of a lane's event: it changes that lane alone, and of the engine the ready list alone. -/

namespace Sys2Proof.Machine

/-- An update at one index leaves every other item. -/
theorem upd_other {α : Type} {n : Nat} (v : Vector α n) (i j : Fin n) (f : α → α) (h : j ≠ i) : (upd v i f)[j] = v[j] := by
  simp only [upd, Fin.getElem_fin]
  rw [Vector.getElem_set_ne]
  exact fun e => h (Fin.ext e.symm)

/-- An update at one index, read back. -/
theorem upd_same {α : Type} {n : Nat} (v : Vector α n) (i : Fin n) (f : α → α) : (upd v i f)[i] = f v[i] := by
  simp [upd]

/-- The lane of an event holds what its step and the settling leave. -/
theorem State.finishLane_same (s : State) (k : LaneId) (r : LaneStep) (x : Option (Nat × Option GapCause)) :
    (s.finishLane k r x).lanes[k] = (r.lane.resettle x).lane := by
  simp only [State.finishLane, State.writePages_frame, State.sendIncrements_lanes]
  exact upd_same _ _ _

/-- The event of one lane leaves every other lane. -/
theorem State.finishLane_other (s : State) (k j : LaneId) (r : LaneStep) (x : Option (Nat × Option GapCause)) (h : j ≠ k) :
    (s.finishLane k r x).lanes[j] = s.lanes[j] := by
  simp only [State.finishLane, State.writePages_frame, State.sendIncrements_lanes]
  exact upd_other _ _ _ _ h

/-- The event of a lane leaves the line in analysis and the engine's stores. -/
theorem State.finishLane_engine (s : State) (k : LaneId) (r : LaneStep) (x : Option (Nat × Option GapCause)) :
    (s.finishLane k r x).engine.analysis = s.engine.analysis ∧ (s.finishLane k r x).engine.lanes = s.engine.lanes := by
  simp only [State.finishLane, State.writePages_frame, State.sendIncrements_engine]
  exact ⟨rfl, rfl⟩

/-- A command on several lanes leaves every lane outside them. -/
theorem onLanes_fold_other (f : Lane → LaneStep) (j : LaneId) (ks : List LaneId) (h : j ∉ ks) (s : State) :
    (ks.foldl (fun s k => s.finishLane k (f s.lanes[k]) none) s).lanes[j] = s.lanes[j] := by
  induction ks generalizing s with
  | nil => rfl
  | cons k ks ih =>
    simp only [List.mem_cons, not_or] at h
    rw [List.foldl_cons, ih h.2, State.finishLane_other _ _ _ _ _ h.1]

/-- A command with a lane mask leaves every lane outside the mask. -/
theorem onLanes_other (f : Lane → LaneStep) (j : LaneId) (b : List Byte) (h : slotMask b j = false) (s : State) :
    (onLanes f b s).2.lanes[j] = s.lanes[j] := by
  have := onLanes_fold_other f j (allLanes.filter (slotMask b)) (by simp [h]) s
  unfold onLanes
  split <;> first | rfl | exact this

/-- A command with a lane mask leaves the line in analysis and the engine's stores. -/
theorem onLanes_engine (f : Lane → LaneStep) (b : List Byte) (s : State) :
    (onLanes f b s).2.engine.analysis = s.engine.analysis ∧ (onLanes f b s).2.engine.lanes = s.engine.lanes := by
  have h1 := foldl_keeps (fun (s : State) (k : LaneId) => s.finishLane k (f s.lanes[k]) none) (fun s => s.engine.analysis)
    (fun s k => (s.finishLane_engine k _ _).1) (allLanes.filter (slotMask b)) s
  have h2 := foldl_keeps (fun (s : State) (k : LaneId) => s.finishLane k (f s.lanes[k]) none) (fun s => s.engine.lanes)
    (fun s k => (s.finishLane_engine k _ _).2) (allLanes.filter (slotMask b)) s
  unfold onLanes
  split
  · exact ⟨rfl, rfl⟩
  all_goals exact ⟨h1, h2⟩

end Sys2Proof.Machine
end

