-- ==== Sys2Proof/Laws/Memory.lean ====
section
/-! SUPPORT. The laws of memory: a byte just written is read back, every other byte is as it was, and every memory
operation keeps the canonical form. -/

namespace Sys2Proof.Machine

/-- A write leaves every other address as it was. -/
theorem readByte_writeByte_other (m : List Host.Cell) (a b : Nat) (v : Byte) (h : b ≠ a) :
    readByte (writeByte m a v) b = readByte m b := by
  induction m with
  | nil => by_cases hv : v = 0#8 <;> simp [writeByte, readByte, hv, Ne.symm h]
  | cons x rest ih =>
    obtain ⟨y, c⟩ := x
    by_cases h1 : a < y
    · by_cases hv : v = 0#8 <;> simp [writeByte, readByte, h1, hv, Ne.symm h]
    · by_cases h2 : a = y
      · subst h2
        by_cases hv : v = 0#8 <;> simp [writeByte, readByte, hv, Ne.symm h]
      · simp [writeByte, readByte, h1, h2, ih]

/-- A list whose addresses lie above a reads at a as an unlisted address does. -/
theorem readByte_of_above (m : List Host.Cell) (a : Nat) (h : Memory.above a m = true) :
    readByte m a = Config.dramFill := by
  induction m with
  | nil => rfl
  | cons x rest ih =>
    obtain ⟨y, c⟩ := x
    simp only [Memory.above, Bool.and_eq_true, decide_eq_true_eq] at h
    simp [readByte, ih h.2, Nat.ne_of_gt h.1]

/-- Addresses above a are above any address below a. -/
theorem Memory.above_of_le {m : List Host.Cell} {a b : Nat} (hab : b ≤ a) (h : Memory.above a m = true) :
    Memory.above b m = true := by
  induction m with
  | nil => rfl
  | cons x rest ih =>
    obtain ⟨y, c⟩ := x
    simp only [Memory.above, Bool.and_eq_true, decide_eq_true_eq] at h ⊢
    exact ⟨by omega, ih h.2⟩

/-- A write above a keeps every address above a. -/
theorem Memory.above_writeByte (m : List Host.Cell) (a b : Nat) (v : Byte) (hab : b < a) (h : Memory.above b m = true) :
    Memory.above b (writeByte m a v) = true := by
  induction m with
  | nil => by_cases hv : v = 0#8 <;> simp [writeByte, Memory.above, hv, hab]
  | cons x rest ih =>
    obtain ⟨y, c⟩ := x
    simp only [Memory.above, Bool.and_eq_true, decide_eq_true_eq] at h
    by_cases h1 : a < y
    · by_cases hv : v = 0#8 <;> simp [writeByte, Memory.above, h1, hv, h.1, h.2, hab]
    · by_cases h2 : a = y
      · by_cases hv : v = 0#8 <;> simp [writeByte, Memory.above, h2, hv, h.1, h.2]
      · simp [writeByte, Memory.above, h1, h2, h.1, ih h.2]

/-- A write keeps the canonical form. -/
theorem Memory.wf_writeByte (m : List Host.Cell) (a : Nat) (v : Byte) (h : Memory.wf m = true) :
    Memory.wf (writeByte m a v) = true := by
  induction m with
  | nil => by_cases hv : v = 0#8 <;> simp [writeByte, Memory.wf, Memory.above, hv]
  | cons x rest ih =>
    obtain ⟨y, c⟩ := x
    simp only [Memory.wf, Bool.and_eq_true, decide_eq_true_eq] at h
    obtain ⟨⟨hc, hab⟩, hr⟩ := h; have hc : ¬ c = 0#8 := hc
    by_cases h1 : a < y
    · by_cases hv : v = 0#8
      · simp [writeByte, Memory.wf, h1, hv, hc, hab, hr]
      · simp [writeByte, Memory.wf, Memory.above, h1, hv, hc, hab, hr, Memory.above_of_le (Nat.le_of_lt h1) hab]
    · by_cases h2 : a = y
      · subst h2
        by_cases hv : v = 0#8 <;> simp [writeByte, Memory.wf, hv, hab, hr]
      · simp [writeByte, Memory.wf, h1, h2, hc, ih hr, Memory.above_writeByte rest a y v (by omega) hab]

/-- A byte written is read back, in a memory of canonical form. -/
theorem readByte_writeByte_same (m : List Host.Cell) (a : Nat) (v : Byte) (h : Memory.wf m = true) :
    readByte (writeByte m a v) a = v := by
  induction m with
  | nil => by_cases hv : v = 0#8 <;> simp [writeByte, readByte, hv]
  | cons x rest ih =>
    obtain ⟨y, c⟩ := x
    simp only [Memory.wf, Bool.and_eq_true, decide_eq_true_eq] at h
    obtain ⟨⟨_, hab⟩, hr⟩ := h
    by_cases h1 : a < y
    · by_cases hv : v = 0#8
      · simp [writeByte, readByte, h1, hv, Nat.ne_of_gt h1, readByte_of_above rest a
          (Memory.above_of_le (Nat.le_of_lt h1) hab)]
      · simp [writeByte, readByte, h1, hv]
    · by_cases h2 : a = y
      · subst h2
        by_cases hv : v = 0#8 <;> simp [writeByte, readByte, hv, readByte_of_above rest a hab]
      · simp [writeByte, readByte, h1, h2, Ne.symm h2, ih hr]

/-- A write of several bytes keeps the canonical form. -/
theorem Memory.wf_writeBytes (m : List Host.Cell) (a : Nat) (es : List Bool) (ds : List Byte)
    (h : Memory.wf m = true) : Memory.wf (writeBytes m a es ds) = true := by
  induction es generalizing m a ds with
  | nil => simpa [writeBytes] using h
  | cons e es ih =>
    cases ds with
    | nil => simpa [writeBytes] using h
    | cons d ds => cases e <;> simp [writeBytes, ih, h, Memory.wf_writeByte]

/-- A write of several bytes leaves every byte outside its span as it was. -/
theorem readByte_writeBytes_outside (m : List Host.Cell) (a b : Nat) (es : List Bool) (ds : List Byte)
    (h : b < a ∨ a + ds.length ≤ b) : readByte (writeBytes m a es ds) b = readByte m b := by
  induction es generalizing m a ds with
  | nil => simp [writeBytes]
  | cons e es ih =>
    cases ds with
    | nil => simp [writeBytes]
    | cons d ds =>
      simp only [List.length_cons] at h
      cases e
      · simp only [writeBytes, Bool.false_eq_true, if_false]; exact ih _ _ _ (by omega)
      · simp only [writeBytes, if_true]
        rw [ih _ _ _ (by omega), readByte_writeByte_other _ _ _ _ (by omega)]

/-- The memory of State.reset has the canonical form. -/
theorem State.reset_memoryWf : Memory.wf State.reset.mem = true := rfl

end Sys2Proof.Machine
end

