-- ==== Sys2Proof/Laws/Messages.lean ====
section
/-! SUPPORT. The laws of taking a message that stands between two blocks: what a taking can come to, when it acts, and
what it keeps. -/

namespace Sys2Proof.Machine

variable {α β : Type} {kind : α → Bool} {wire : Wires → List (Tagged α)} {put : Wires → List (Tagged α) → Wires}
  {act stale : α → State → State} {s : State}

/-- Everything a taking can do: nothing, or one message leaves the wire and acts, or is told to be of an ended run. -/
theorem receiveWith_cases (kind : α → Bool) (wire : Wires → List (Tagged α)) (put : Wires → List (Tagged α) → Wires)
    (act stale : α → State → State) (s : State) :
    receiveWith kind wire put act stale s = s ∨
    ∃ m rest, s.inReset = false ∧ wire s.wires = m :: rest ∧ kind m.msg = true ∧
      ((m.epoch = s.epoch ∧ receiveWith kind wire put act stale s = act m.msg { s with wires := put s.wires rest }) ∨
       (m.epoch ≠ s.epoch ∧ receiveWith kind wire put act stale s = stale m.msg { s with wires := put s.wires rest })) := by
  unfold receiveWith
  cases hr : s.inReset with
  | true => simp
  | false =>
    cases hw : wire s.wires with
    | nil => simp
    | cons m rest =>
      cases hk : kind m.msg with
      | false => simp [hk]
      | true =>
        by_cases he : m.epoch = s.epoch
        · exact .inr ⟨m, rest, by simp, rfl, hk, .inl ⟨he, by simp [hk, he]⟩⟩
        · exact .inr ⟨m, rest, by simp, rfl, hk, .inr ⟨he, by simp [hk, he]⟩⟩

/-- A message of the run, of the kind named, is taken. -/
theorem receiveWith_taken {m : α} {rest : List (Tagged α)} (hr : s.inReset = false)
    (hw : wire s.wires = { epoch := s.epoch, msg := m } :: rest) (hk : kind m = true) :
    receiveWith kind wire put act stale s = act m { s with wires := put s.wires rest } := by
  simp [receiveWith, hr, hw, hk]

/-- What the act and the discarding keep, a taking keeps. -/
theorem receiveWith_keeps (f : State → β) (hput : ∀ (s : State) w, f { s with wires := w } = f s)
    (hact : ∀ m s, f (act m s) = f s) (hstale : ∀ m s, f (stale m s) = f s) :
    f (receiveWith kind wire put act stale s) = f s := by
  rcases receiveWith_cases kind wire put act stale s with h | ⟨m, r, _, _, _, ⟨_, h⟩ | ⟨_, h⟩⟩
  · rw [h]
  · rw [h, hact, hput]
  · rw [h, hstale, hput]

/-- A message of the run, of the kind named, is taken. -/
theorem receiveIf_taken {m : α} {rest : List (Tagged α)} (hr : s.inReset = false)
    (hw : wire s.wires = { epoch := s.epoch, msg := m } :: rest) (hk : kind m = true) :
    receiveIf kind wire put act s = act m { s with wires := put s.wires rest } := receiveWith_taken hr hw hk

/-- What the act keeps, a taking keeps. -/
theorem receiveIf_keeps (f : State → β) (hput : ∀ (s : State) w, f { s with wires := w } = f s)
    (hact : ∀ m s, f (act m s) = f s) : f (receiveIf kind wire put act s) = f s :=
  receiveWith_keeps f hput hact fun _ _ => rfl

/-- A message of the run is taken. -/
theorem receive_taken {m : α} {rest : List (Tagged α)} (hr : s.inReset = false)
    (hw : wire s.wires = { epoch := s.epoch, msg := m } :: rest) :
    receive wire put act s = act m { s with wires := put s.wires rest } := by
  unfold receive
  exact receiveIf_taken hr hw rfl

/-- What the act keeps, a taking keeps. -/
theorem receive_keeps (f : State → β) (hput : ∀ (s : State) w, f { s with wires := w } = f s)
    (hact : ∀ m s, f (act m s) = f s) : f (receive wire put act s) = f s :=
  receiveIf_keeps f hput hact

variable {wireP : Wires → List α} {putP : Wires → List α → Wires}

/-- Everything a taking can do on a wire whose messages outlive their run. -/
theorem receivePlainIf_cases (kind : α → Bool) (wire : Wires → List α) (put : Wires → List α → Wires)
    (act : α → State → State) (s : State) :
    receivePlainIf kind wire put act s = s ∨
    ∃ m rest, s.inReset = false ∧ wire s.wires = m :: rest ∧ kind m = true ∧
      receivePlainIf kind wire put act s = act m { s with wires := put s.wires rest } := by
  unfold receivePlainIf
  cases hr : s.inReset with
  | true => simp
  | false =>
    cases hw : wire s.wires with
    | nil => simp
    | cons m rest =>
      cases hk : kind m with
      | false => simp [hk]
      | true => exact .inr ⟨m, rest, by simp, rfl, hk, by simp [hk]⟩

/-- A message of the kind named is taken. -/
theorem receivePlainIf_taken {m : α} {rest : List α} (hr : s.inReset = false) (hw : wireP s.wires = m :: rest)
    (hk : kind m = true) : receivePlainIf kind wireP putP act s = act m { s with wires := putP s.wires rest } := by
  simp [receivePlainIf, hr, hw, hk]

/-- What the act keeps, a taking keeps. -/
theorem receivePlainIf_keeps (f : State → β) (hput : ∀ (s : State) w, f { s with wires := w } = f s)
    (hact : ∀ m s, f (act m s) = f s) : f (receivePlainIf kind wireP putP act s) = f s := by
  rcases receivePlainIf_cases kind wireP putP act s with h | ⟨m, r, _, _, _, h⟩
  · rw [h]
  · rw [h, hact, hput]

/-- A message is taken. -/
theorem receivePlain_taken {m : α} {rest : List α} (hr : s.inReset = false) (hw : wireP s.wires = m :: rest) :
    receivePlain wireP putP act s = act m { s with wires := putP s.wires rest } := by
  unfold receivePlain
  exact receivePlainIf_taken hr hw rfl

/-- What the act keeps, a taking keeps. -/
theorem receivePlain_keeps (f : State → β) (hput : ∀ (s : State) w, f { s with wires := w } = f s)
    (hact : ∀ m s, f (act m s) = f s) : f (receivePlain wireP putP act s) = f s :=
  receivePlainIf_keeps f hput hact

/-- Outside reset an event of the part happens. -/
theorem live_out {f : State → State} (hr : s.inReset = false) : live f s = f s := by simp [live, hr]

/-- An event of the part happens or, in reset, does not. -/
theorem live_cases (f : State → State) (s : State) : live f s = s ∨ (s.inReset = false ∧ live f s = f s) := by
  unfold live; split
  · exact .inl rfl
  · rename_i h; exact .inr ⟨by simpa using h, rfl⟩

/-- Everything a command in execution can do: nothing, or it is carried out and finished. -/
theorem onCommand_cases (k : Option CommandKind) (f : List Byte → State → Option Reason × State) (s : State) :
    onCommand k f s = s ∨ ∃ n bytes, s.inReset = false ∧ s.cmd.execution = some { slot := n, phase := .ready bytes } ∧
      commandKind bytes = k ∧ onCommand k f s = (f bytes s).2.finishCommand n (f bytes s).1 := by
  unfold onCommand
  split
  · exact .inl rfl
  · rename_i h
    split
    · rename_i n b hb
      split
      · rename_i hk
        exact .inr ⟨n, b, by simpa using h, hb, hk, rfl⟩
      · exact .inl rfl
    · exact .inl rfl

/-- A command of the kind named, with its slot read, is carried out and finished. -/
theorem onCommand_taken {k : Option CommandKind} {f : List Byte → State → Option Reason × State} {n : Nat}
    {bytes : List Byte} (hr : s.inReset = false) (he : s.cmd.execution = some { slot := n, phase := .ready bytes })
    (hk : commandKind bytes = k) : onCommand k f s = (f bytes s).2.finishCommand n (f bytes s).1 := by
  simp [onCommand, hr, he, hk]

/-- What the event keeps, it keeps in and out of reset. -/
theorem live_keeps (g : State → β) {f : State → State} (hf : ∀ s, g (f s) = g s) : g (live f s) = g s := by
  unfold live; split
  · rfl
  · exact hf s

end Sys2Proof.Machine
end

