-- ==== Sys2Proof/Tests/Slice0.lean ====
section
/-! SUPPORT. Tests: a configuration that CONFIGURE accepts, a witness for the hypotheses of every statement of
Certificates/Slice0/Obligations.lean that has any, the smoke tests of well-formedness, and values worked out by hand from
the rules of spec/. -/

namespace Sys2Proof.Tests

open Sys2Proof.Machine

set_option Elab.async false
set_option maxRecDepth 4000

/-! ## A configuration that CONFIGURE accepts -/

/-- Lane k of the test configuration. -/
def testLane (k : Nat) : LaneGeometry :=
  { enabledAtStart := true, source := k, base := 0x20000000 + 0x10000 * k, slots := 16, stride := 1024, length := 1024,
    origin := 402000 * k, pitch := 100352, mirrored := false, ownLo := 402000 * k, ownHi := 402000 * k + 401999 }

/-- Source s: a camera for each lane, a controller, and others without rights. -/
def testSource (s : Nat) : SourceEntry :=
  if h : s < 8 then
    { role := .camera ⟨s, h⟩
      rights := { plainWrite := false, landingOwn := true, landingAny := false, configWrite := false, commandWrite := false,
                  viewRead := false } }
  else
    { role := if s = 8 then .controller else .other
      rights := { plainWrite := s = 8, landingOwn := false, landingAny := false, configWrite := s = 8,
                  commandWrite := s = 8, viewRead := s = 8 } }

/-- The fixed fields of the test configuration. -/
def testShadow : Shadow :=
  { travel := { pitch := 100, scale := 655360, tStop := 100, bLeads := false }
    lanes := #v[testLane 0, testLane 1, testLane 2, testLane 3, testLane 4, testLane 5, testLane 6, testLane 7]
    timing := { lag := 2, lockLines := 4, stall := 3 }
    netLo := 0, netHi := 3210000, dCut := 10000000, dCommit := 1000000, minTrim := 200000
    sources := #v[testSource 0, testSource 1, testSource 2, testSource 3, testSource 4, testSource 5, testSource 6,
      testSource 7, testSource 8, testSource 9, testSource 10, testSource 11, testSource 12, testSource 13, testSource 14,
      testSource 15]
    views := { base := 0x40000000, sizeMiB := 16, takeAt := #v[0, 8192, 16384, 24576], peekAt := #v[4096, 12288, 20480, 28672] }
    logs := #v[{ base := 0x30000000, entries := 64, notify := 1 }, { base := 0x30010000, entries := 32, notify := 1 },
      { base := 0x30020000, entries := 16, notify := 1 }, { base := 0x30030000, entries := 128, notify := 1 }] }

/-- Its DETECT group. -/
def testDetect : DetectGroup :=
  { d1 := 10, d2 := 20, d3 := 40, u1 := 10, u2 := 20, u3 := 40, shift := 3, bridge := 4, blindFloor := 1024,
    holdLimit := 64, blindLimit := 8, alongGap := 2, crossBridge := 1000, maxLength := 2000000, pointSize := 500 }

/-- Its PLAN group. -/
def testPlan : PlanGroup := { count := 2, level := 2, margin := 10000, l1 := 6000000, l2 := 3000000, l3 := 0, l4 := 0 }

/-- Its GRADE group. -/
def testGrade : GradeGroup :=
  { majorMaxA := 1, majorMaxB := 3, dA := 10, dB := 20, capPoint := 1, capStreak := 1, capBand := 2, capArea := 2 }

/-- Its STRIKE group. -/
def testStrike : StrikeGroup :=
  { wScore := 10000, dSnap := 50000, wSnap := 20000, dGate := 7000000, mask := { x := true, c := true, u := false, b := false } }

/-- A shift start on the hour, every day. -/
def testStart (h : Nat) : ShiftStart := { hour := h, minute := 0, days := Vector.replicate 7 true }

/-- A shift start entry not in use. -/
def noStart : ShiftStart := { hour := 0, minute := 0, days := Vector.replicate 7 false }

/-- Its CLOCK group. -/
def testClock : ClockGroup :=
  { trim := 0, count := 1
    entries := #v[testStart 6, noStart, noStart, noStart] }

/-- The geometry entry of lane k at its offsets (chapter 11.3). -/
def testLaneParts (k : Nat) : List (Nat × List Byte) :=
  let o := 0x400 + 64 * k
  [(o, [1, BitVec.ofNat 8 k, 0]), (o + 4, le 2 16 ++ le 2 1024 ++ le 4 1024),
   (o + 0x10, le 8 (0x20000000 + 0x10000 * k) ++ le 4 (402000 * k) ++ le 4 100352 ++ le 4 (402000 * k) ++
     le 4 (402000 * k + 401999))]

/-- The fields of the test configuration at their offsets (chapter 11.3). -/
def testParts : List (Nat × List Byte) :=
    [(0, le 4 100 ++ le 4 655360 ++ le 2 100), (0x40, [2, 4, 3]), (0x80, le 4 0 ++ le 4 3210000),
      (0xC0, le 4 10000000 ++ le 4 1000000 ++ le 4 200000),
      (0x100, (List.range 8).flatMap (fun k => [2, BitVec.ofNat 8 k, 2, 0]) ++ [1, 0, 57]),
      (0x200, le 8 0x40000000 ++ [16]),
      (0x210, (List.range 8).flatMap fun i => le 4 (4096 * i)),
      (0x280, (List.range 4).flatMap fun i => le 8 (0x30000000 + 0x10000 * i) ++ le 4 ([64, 32, 16, 128].getD i 0) ++ le 4 1)] ++
     (List.range 8).flatMap testLaneParts ++
     [(0x1000, [10, 20, 40, 10, 20, 40, 3, 4] ++ le 2 1024 ++ le 2 64 ++ le 2 8 ++ [2, 0] ++ le 2 1000 ++ le 2 0 ++
        le 4 2000000 ++ le 4 500),
      (0x1100, [2, 2, 0, 0] ++ le 4 10000 ++ le 4 6000000 ++ le 4 3000000),
      (0x1200, [1, 3] ++ le 2 10 ++ le 2 20 ++ [1, 1, 2, 2]),
      (0x1300, le 4 10000 ++ le 4 50000 ++ le 4 20000 ++ le 4 7000000 ++ [3]),
      (0x1400, [0, 1, 0, 0, 6, 0, 127])]

/-- The configuration area with those fields, zero between them. -/
def testArea : List Byte := layout 0x1500 0 testParts

theorem testParts_ordered : inLayoutOrder 0 testParts = true := by decide +kernel

theorem testArea_field (o n : Nat) : field testArea o n = fromLe (layoutSlice testParts o n) :=
  layout_field _ _ testParts_ordered o n

theorem testArea_byte (o : Nat) : byteAt testArea o = (layoutByte testParts o).toNat :=
  layout_byteAt _ _ testParts_ordered o

theorem testArea_slice (o n : Nat) : slice testArea o n = layoutSlice testParts o n :=
  layout_slice _ _ testParts_ordered n o

theorem testArea_shadow : parseShadow testArea = testShadow := by
  simp only [parseShadow, parseTravel, parseLane, parseTiming, parseSource, parseViews, parseLog, testArea_field, testArea_byte]
  decide +kernel

theorem testArea_detect : parseDetect (groupImage testArea .detect) = testDetect := by
  simp only [groupImage, testArea_slice]; decide +kernel

theorem testArea_plan : parsePlan (groupImage testArea .plan) = testPlan := by
  simp only [groupImage, testArea_slice]; decide +kernel

theorem testArea_grade : parseGrade (groupImage testArea .grade) = testGrade := by
  simp only [groupImage, testArea_slice]; decide +kernel

theorem testArea_strike : parseStrike (groupImage testArea .strike) = testStrike := by
  simp only [groupImage, testArea_slice]; decide +kernel

theorem testArea_clock : parseClock (groupImage testArea .clock) = testClock := by
  simp only [groupImage, testArea_slice]; decide +kernel

theorem testArea_length : testArea.length = 0x1500 := by decide +kernel

theorem testArea_travelOk : travelOk testArea = true := by
  simp only [travelOk, parseTravel, testArea_field, testArea_byte]; decide +kernel

theorem testArea_lanesOk : lanesOk testArea testShadow = true := by
  simp only [lanesOk, testArea_byte]; decide +kernel

theorem testArea_sourcesOk : sourcesOk testArea testShadow = true := by
  simp only [sourcesOk, testArea_byte]; decide +kernel

theorem testArea_parsed : parseArea testArea =
    { bytes := testArea, shadow := testShadow, detect := testDetect, plan := testPlan, grade := testGrade,
      strike := testStrike, clock := testClock } := by
  rw [parseArea, testArea_shadow, testArea_detect, testArea_plan, testArea_grade, testArea_strike, testArea_clock]

theorem refusal_none (b : List Byte) (sh : Shadow) (d : DetectGroup) (p : PlanGroup) (g : GradeGroup) (st : StrikeGroup) (c : ClockGroup)
  (h1 : travelOk b = true) (h1b : c.ok = true)
  (h2 : lanesOk b sh = true) (h3 : ownedOk sh = true) (h4 : ringsOk 0 sh = true)
  (h5 : sourcesOk b sh = true) (h6 : viewsOk 0 sh = true) (h7 : distancesOk sh p d = true)
  (h8 : (between 100000 sh.minTrim 2000000 && p.ok sh.minTrim) = true) (h9 : (d.ok && g.ok) = true)
  (h10 : (st.ok && gateOk st.dGate p.l1) = true) :
  (Area.mk b sh d p g st c).refusal 0 = none := by
  simp only [Area.refusal, Area.checks, h1, h1b, h2, h3, h4, h5, h6, h7, h8, h9, h10, Bool.and_self, List.find?, Bool.not_true]

theorem witness_ConfigureAccepts : (parseArea testArea).refusal 0 = none := by
  rw [testArea_parsed]
  refine refusal_none _ _ _ _ _ _ _ testArea_travelOk ?_ testArea_lanesOk ?_ ?_ testArea_sourcesOk ?_ ?_ ?_ ?_ ?_ <;> decide +kernel

theorem refusal_travel (b : List Byte) (h : travelOk b = false) : (parseArea b).refusal 0 = some .travel := by
  simp only [Area.refusal, Area.checks, parseArea, h, Bool.false_and, List.find?, Bool.not_false]

theorem witness_ConfigureRefuses : (parseArea (layout 0x1500 0 [])).refusal 0 = some .travel := by
  refine refusal_travel _ ?_
  simp only [travelOk, parseTravel, layout_field _ _ (show inLayoutOrder 0 [] = true from rfl),
    layout_byteAt _ _ (show inLayoutOrder 0 [] = true from rfl)]
  decide +kernel

theorem zeroArea_length : (layout 0x1500 0 []).length = 0x1500 := by decide +kernel

/-! ## The states the witnesses stand on -/

/-- Copies of a group with an active copy alone. -/
def activeCopy {α : Type} (fields : α) : Copies α := { active := some { fields := fields, seq := 1 }, eligible := none }

/-- A log as a first CONFIGURE leaves it. -/
def freshLog (l : Fin 4) : LogState := { LogState.powerOn with fields := some testShadow.logs[l] }

/-- A configured part outside reset in run state r, the travel fields and the blocks' run states as that state has them. -/
def configuredPart (r : RunState) : State :=
  { State.reset with
    inReset := false
    travel := { Travel.powerOn with fields := some testShadow.travel, nextPoint := some 100, motion := .moving }
    lanes := Vector.replicate 8 { Lane.powerOn with enabled := true, runState := r }
    shift := { Shift.powerOn with runState := r }
    path := { Path.powerOn with runState := r, map := some testShadow.regionMap }
    writer := { Writer.powerOn with logs := #v[freshLog 0, freshLog 1, freshLog 2, freshLog 3] }
    cmd := { Command.powerOn with
      runState := r, shadow := some testShadow, mirror := Vector.replicate 5 (some { image := zeros 256 }),
      detect := activeCopy testDetect, plan := activeCopy testPlan, grade := activeCopy testGrade,
      strike := activeCopy testStrike, clock := activeCopy testClock } }

/-- The part in RUNNING. -/
def running : State := configuredPart .running

/-- A part with the messages given between its blocks. -/
def withWires (w : Wires) (s : State) : State := { s with wires := w }

/-- A message of the current run. -/
def now {α : Type} (m : α) : Tagged α := { epoch := 0, msg := m }

/-- A part whose command in execution has slot 3 read as the bytes given. -/
def commandPart (r : RunState) (bytes : List Byte) : State :=
  let s := configuredPart r
  { s with cmd := { s.cmd with execution := some { slot := 3, phase := .ready bytes } } }

/-- A part whose command in execution is of a kind, with its parameters zero. -/
def kindPart (r : RunState) (kind : Byte) : State := commandPart r [kind]

/-! ## Witnesses: the step, the invariants and the frames -/

/-- A part in RUNNING with a command waiting and messages under way. -/
def busyPart : State :=
  { running with
    pending := [.encoderEdge true false, .mPortSend]
    wires := { Wires.quiet with unitTicks := 1 }
    mem := [(64, 7)]
    path := { running.path with internal := [Txn.full .page 64 [1, 2, 3, 4, 5, 6, 7, 8]] } }

theorem witness_StepTakesTheFrontCommand : State.reset.pending = [] := rfl

theorem witness_invariants_memory : busyPart.memoryWf ∧ ∃ t, step busyPart = .next t :=
  ⟨by unfold State.memoryWf; decide, _, rfl⟩

theorem witness_invariants_runStates : busyPart.runStatesAgree ∧ ∃ t, step busyPart = .next t :=
  ⟨⟨by decide, rfl, rfl⟩, _, rfl⟩

theorem witness_invariants_queues : busyPart.queuesBounded ∧ ∃ t, step busyPart = .next t :=
  ⟨by unfold State.queuesBounded; decide, _, rfl⟩

theorem witness_invariants_joinQueues : busyPart.joinQueuesBounded ∧ ∃ t, step busyPart = .next t :=
  ⟨⟨by decide, by rintro a ⟨⟩⟩, _, rfl⟩

theorem witness_invariants_calendars : busyPart.calendarsValid ∧ ∃ t, step busyPart = .next t :=
  ⟨by unfold State.calendarsValid; decide, _, rfl⟩

theorem witness_invariants_outputs : busyPart.outputsRight ∧ ∃ t, step busyPart = .next t :=
  ⟨by unfold State.outputsRight; decide, _, rfl⟩

/-- A part with a plate record of sixteen top flaws in STAMPING, on the outbound list and on offer. -/
def fullRecordPart : State :=
  let r : PlateRecord := { plateRecordOf 1 testShadow.netLo testShadow.netHi testGrade
      { number := 8, kind := .size 0, head := some 0, tail := 6000000, dGate := 0, mask := testStrike.mask }
      { entries := [], overlap := 0, overflow := false } with top := List.range' 1 16 }
  { running with
    pending := [.stamp]
    grading := { Grading.powerOn with state := .stamping r, outbound := [{ record := r, waiting := false }], outstanding := true }
    wires := { Wires.quiet with plateOffers := [now r] } }

theorem witness_invariants_topFlaws : fullRecordPart.topFlawsBounded ∧ ∃ t, step fullRecordPart = .next t :=
  ⟨⟨by rintro r ⟨⟩; decide, by decide, by decide⟩, _, rfl⟩

/-- A part with one Flaw Log entry written and not released, so that ATTN is asserted. -/
def attnPart : State :=
  { busyPart with
    writer := { busyPart.writer with
      attn := true
      logs := #v[{ freshLog 0 with producer := 1, written := 1, nextSeq := 2 }, freshLog 1, freshLog 2, freshLog 3] } }

theorem witness_invariants_attn : attnPart.attnRight ∧ ∃ t, step attnPart = .next t :=
  ⟨⟨fun _ => .inl ⟨.flaw, testShadow.logs[0], rfl, by decide⟩, fun _ => rfl⟩, _, rfl⟩

theorem witness_invariants_position : busyPart.positionRight ∧ busyPart.triggersRight ∧ ∃ t, step busyPart = .next t := by
  refine ⟨⟨by decide, by decide, ?_⟩, ?_, _, rfl⟩
  · rintro f ⟨⟩; decide
  · rintro f n ⟨⟩ ⟨⟩; decide

theorem witness_PositionNeverFalls :
    busyPart.positionRight ∧ ∃ t, exec (.encoderEdge true false) busyPart = .next t :=
  ⟨witness_invariants_position.1, _, rfl⟩

theorem witness_MemoryFrame :
    busyPart.path.internal ≠ [] ∧ (∃ t, exec .mPortSend busyPart = .next t) ∧ ∃ t, exec .unitTick busyPart = .next t :=
  ⟨by decide, ⟨_, rfl⟩, _, rfl⟩

theorem witness_frames : (∃ t, exec .unitTick busyPart = .next t) ∧ (∃ t, exec .mPortSend busyPart = .next t) ∧
    ∃ t, exec .closeShift (kindPart .running 9) = .next t :=
  ⟨⟨_, rfl⟩, ⟨_, rfl⟩, _, rfl⟩

/-! ## Witnesses: resets, travel and time -/

theorem witness_ResetEnd : State.reset.inReset = true ∧ State.reset.shift.runState = .transparent ∧
    State.reset.path.internal = [] ∧ State.reset.writer.waiting = [] := ⟨rfl, rfl, rfl, rfl⟩

/-- Both resets answer a state, which RESET_END may follow. -/
theorem witness_FirstPage : (∃ s, exec .powerOn busyPart = .next s) ∧ ∃ s, exec .warmReset busyPart = .next s :=
  ⟨⟨_, rfl⟩, _, rfl⟩

theorem witness_ResetHolds : State.reset.inReset = true := rfl

/-- The ribbon 5 µm short of the first trigger point. -/
def nearTrigger : State :=
  { running with travel := { running.travel with acc := 95 * 65536, high := 95 * 65536 } }

theorem witness_ForwardCount : ∀ s ∈ [running, nearTrigger],
    s.inReset = false ∧ s.cmd.runState.counting = true ∧ s.travel.fields = some testShadow.travel ∧
      s.travel.nextPoint = some 100 ∧ s.positionRight ∧
      edgeCount testShadow.travel.bLeads s.travel.refA s.travel.refB true false = some .forward := by
  intro s hs
  rcases List.mem_cons.mp hs with rfl | hs
  · exact ⟨rfl, rfl, rfl, rfl, ⟨by decide, by decide, by rintro f ⟨⟩; decide⟩, rfl⟩
  · rcases List.mem_singleton.mp hs with rfl
    exact ⟨rfl, rfl, rfl, rfl, ⟨by decide, by decide, by rintro f ⟨⟩; decide⟩, rfl⟩

theorem witness_OtherEdges : running.inReset = false ∧ running.travel.fields = some testShadow.travel ∧
    running.cmd.runState.counting = true ∧ (configuredPart .configured).cmd.runState.counting = false ∧
    edgeCount testShadow.travel.bLeads running.travel.refA running.travel.refB false true = some .backward ∧
    edgeCount testShadow.travel.bLeads running.travel.refA running.travel.refB true true = some .illegal ∧
    edgeCount testShadow.travel.bLeads running.travel.refA running.travel.refB false false = none := by decide

/-- A calendar. -/
def dateTime (year month day weekday hour minute second : Nat) : Calendar :=
  { year := year, month := month, day := day, weekday := weekday, hour := hour, minute := minute, second := second }

theorem witness_Calendar : (dateTime 2024 2 28 2 23 59 59).valid = true ∧ (dateTime 2000 1 1 6 0 0 0).valid = true ∧
    (dateTime 2099 12 31 3 23 59 59).valid = true := by decide

/-- A part whose next period ends 05:59:59 of a Saturday, with the hold slot given. -/
def beforeShift (h : HoldSlot) : State :=
  { running with shift := { running.shift with
      calendar := dateTime 2000 1 1 6 5 59 59, sub := 32767, valid := true, table := some [testStart 6], hold := h } }

theorem witness_ClockBoundary : ∀ s ∈ [beforeShift .empty,
      beforeShift (.held { tally := Tally.powerOn, fin := Calendar.powerOn })],
    let now := s.shift.calendar.advance
    s.inReset = false ∧
    (if s.shift.calendar.second = 0 then 32768 + s.shift.trim else 32768) ≤ (s.shift.sub : Int) + 1 ∧
    s.shift.valid = true ∧ s.shift.table = some [testStart 6] ∧ [testStart 6].length ≤ 4 ∧ now.second = 0 ∧
    (testStart 6).hour = now.hour ∧ (testStart 6).minute = now.minute ∧
    (testStart 6).days.toList.getD now.weekday false = true := by decide +kernel

/-- Periods that give no boundary: in reset, one period early, with the clock-valid flag clear, with the table absent, at
second 59, and with no entry for the hour or for the weekday. -/
theorem witness_NoBoundary :
    let s := beforeShift .empty
    let noDay : ShiftStart := { testStart 6 with days := Vector.replicate 7 false }
    ({ s with inReset := true }).inReset = true ∧
      ¬ (if s.shift.calendar.second = 0 then 32768 + s.shift.trim else 32768) ≤
        (({ s with shift := { s.shift with sub := 32766 } }).shift.sub : Int) + 1 ∧
      ({ s with shift := { s.shift with valid := false } }).shift.valid = false ∧
      ({ s with shift := { s.shift with table := none } }).shift.table = none ∧
      (dateTime 2000 1 1 6 5 59 58).advance.second ≠ 0 ∧ (testStart 7).hour ≠ s.shift.calendar.advance.hour ∧
      noDay.days.toList.getD s.shift.calendar.advance.weekday false = false := by decide +kernel

/-- A part with one unit tick on its way and the stop timer as given. -/
def tickPart (r : RunState) (timer : Nat) : State :=
  let s := configuredPart r
  { s with travel := { s.travel with timer := timer }, wires := { Wires.quiet with unitTicks := 1 } }

theorem witness_UnitTick : ∀ s ∈ [tickPart .running 99, tickPart .draining 98, tickPart .configured 0],
    s.inReset = false ∧ s.wires.unitTicks = 0 + 1 ∧ s.travel.fields = some testShadow.travel := by decide

theorem witness_UnitTick_cases :
    (let s := tickPart .running 99
     s.cmd.runState.counting = true ∧ s.travel.motion = .moving ∧ s.travel.timer + 1 = testShadow.travel.tStop) ∧
    (let s := tickPart .draining 98
     s.cmd.runState.counting = true ∧ s.travel.timer + 1 ≠ testShadow.travel.tStop) ∧
    (tickPart .configured 0).cmd.runState.counting = false := by decide

theorem witness_SecondTicks :
    let s := withWires { Wires.quiet with travelTicks := 1, writerTicks := 1 } running
    s.inReset = false ∧ s.wires.travelTicks = 0 + 1 ∧ s.wires.writerTicks = 0 + 1 ∧ s.path.internal.length ≤ 16 := by
  decide

/-! ## Witnesses: Lane Units and Pixel Engine -/

/-- A lane of the part in RUNNING. -/
def laneZero : Lane := { Lane.powerOn with enabled := true, runState := .running }

/-- The lanes of the part in RUNNING, lane 0 as given. -/
def lanesWith (l : Lane) : Vector Lane 8 :=
  #v[l, laneZero, laneZero, laneZero, laneZero, laneZero, laneZero, laneZero]

/-- A part in RUNNING whose lane 0 has one line trigger, for line n, on its way. -/
def triggerPart (st : LaneState) (line : Option LineInProgress) (n : Nat) : State :=
  { running with
    lanes := lanesWith { laneZero with state := st, line := line }
    wires := { Wires.quiet with triggers := #v[[now n], [], [], [], [], [], [], []] } }

/-- Line 1 in progress in slot 1 of its ring, in buffer A. -/
def lineOne (next : Nat) : LineInProgress := { line := 1, slot := 1, buffer := .a, next := next }

theorem witness_LineTrigger : ∀ st ∈ [LaneState.off, .waiting, .locking, .tracking, .dropout, .faulted],
    ∀ n ∈ [1, 3],
    let s := triggerPart st (if st = .off ∨ st = .faulted then none else some (lineOne 64)) n
    s.inReset = false ∧ s.wires.triggers[(0 : LaneId)] = { epoch := s.epoch, msg := n } :: [] ∧
      s.cmd.shadow = some testShadow ∧ s.lanes[(0 : LaneId)].state = st ∧
      s.lanes[(0 : LaneId)].runState = .running := by decide +kernel

/-- A lane FAULTED or OFF in RUNNING, with a completed line pending or with nothing pending, and a trigger that declares lines or
none. -/
theorem witness_DeclaringLane : ∀ st ∈ [LaneState.off, .faulted], ∀ pending ∈ [true, false], ∀ n ∈ [0, 1, 2],
    let s := triggerPart st none n
    let l := { s.lanes[(0 : LaneId)] with
      bufA := if pending then { Buffer.empty with state := .ready, line := 1 } else Buffer.empty
      accounted := if pending then 1 else 0 }
    let s := { s with lanes := lanesWith l }
    s.inReset = false ∧ s.wires.triggers[(0 : LaneId)] = { epoch := s.epoch, msg := n } :: [] ∧
      s.cmd.shadow = some testShadow ∧ (l.state = .off ∨ l.state = .faulted) ∧ l.runState = .running := by decide +kernel

/-- A lane in a capturing state that has settled line 4, with line 5 in progress or without, one trigger for line n on its
way. -/
def declaringPart (st : LaneState) (capturing : Bool) (misses n : Nat) : State :=
  { running with
    lanes := lanesWith { laneZero with
      state := st, trigger := 6, settled := 4, misses := misses
      line := if capturing then some { line := 5, slot := 5, buffer := .a, next := 64 } else none
      accounted := if capturing then 5 else 4
      bufA := { Buffer.empty with state := if capturing then .filling else .free } }
    wires := { Wires.quiet with triggers := #v[[now n], [], [], [], [], [], [], []] } }

/-- A deadline at line 5 exactly and beyond it, for a lane without misses and one a miss short of the stall limit. -/
theorem witness_Declarations : ∀ st ∈ [LaneState.waiting, .locking, .tracking, .dropout], ∀ capturing ∈ [true, false],
    ∀ misses ∈ [0, 2], ∀ n ∈ [7, 9],
    let s := declaringPart st capturing misses n
    let l := s.lanes[(0 : LaneId)]
    let g := testShadow.lanes[(0 : LaneId)]
    let first := match l.line with
      | none => l.accounted + 1
      | some p => p.line
    s.inReset = false ∧ s.wires.triggers[(0 : LaneId)] = { epoch := s.epoch, msg := n } :: [] ∧
      s.cmd.shadow = some testShadow ∧ l.state ∈ [.waiting, .locking, .tracking, .dropout] ∧
      l.misses < testShadow.timing.stall ∧ testShadow.timing.lag < n ∧ l.line.all (fun p => decide (p.line = l.accounted)) ∧
      l.settledBelow first ∧ first ≤ n - testShadow.timing.lag ∧ testShadow.netLo ≤ g.ownHi ∧
      g.ownLo ≤ testShadow.netHi := by
  unfold Lane.settledBelow; decide +kernel

/-- A landing write of n bytes at an address, every byte enabled. -/
def landing (addr n : Nat) : LandingCopy :=
  { source := 0, addr := addr, span := n, enables := List.replicate n true, data := List.replicate n 0x55 }

/-- A part in RUNNING whose lane 0 has a landing write on its way, its trigger count at 1. -/
def landingPart (st : LaneState) (line : Option LineInProgress) (w : LandingCopy) : State :=
  { running with
    lanes := lanesWith { laneZero with
      state := st, line := line, trigger := 1,
      bufA := { Buffer.empty with state := if line.isSome then .filling else .free } }
    wires := { Wires.quiet with landing := #v[[w], [], [], [], [], [], [], []] } }

theorem witness_LandingStart : ∀ st ∈ [LaneState.waiting, .locking, .tracking, .dropout], ∀ n ∈ [8, 64],
    let w := landing 0x20000400 n
    let s := landingPart st none w
    let l := s.lanes[(0 : LaneId)]
    let g := testShadow.lanes[(0 : LaneId)]
    s.inReset = false ∧ s.wires.landing[(0 : LaneId)] = w :: [] ∧ s.cmd.shadow = some testShadow ∧
      l.state ∈ [.waiting, .locking, .tracking, .dropout] ∧ l.line = none ∧ l.bufA.state = .free ∧
      l.accounted + 1 = 1 ∧ 0 < w.span ∧ w.addr = g.base + 1 * g.stride ∧ w.span ≤ g.stride ∧ w.span < g.length ∧
      (∀ e ∈ w.enables, e = true) ∧ 1 ≤ l.trigger ∧ l.trigger < 1 + testShadow.timing.lag ∧ 1 % g.slots = 1 ∧
      testShadow.timing.lag ≤ g.slots := by decide +kernel

theorem witness_LandingComplete : ∀ st ∈ [LaneState.waiting, .locking, .tracking, .dropout],
    let w := landing (0x20000400 + 960) 64
    let p := lineOne 960
    let s := landingPart st (some p) w
    let l := s.lanes[(0 : LaneId)]
    let g := testShadow.lanes[(0 : LaneId)]
    s.inReset = false ∧ s.wires.landing[(0 : LaneId)] = w :: [] ∧ s.cmd.shadow = some testShadow ∧ l.line = some p ∧
      l.state ∈ [.waiting, .locking, .tracking, .dropout] ∧ 0 < w.span ∧ 0 < p.next ∧ p.next < g.length ∧
      g.length ≤ p.next + w.span ∧ p.next + w.span ≤ g.stride ∧ w.addr = g.base + p.slot * g.stride + p.next ∧
      (∀ e ∈ w.enables, e = true) := by decide +kernel

theorem witness_LandingCross : ∀ st ∈ [LaneState.off, .waiting, .tracking, .faulted],
    ∀ line ∈ [none, some (lineOne 64)],
    let w := landing (0x20000000 + 1016) 16
    let s := landingPart st line w
    let g := testShadow.lanes[(0 : LaneId)]
    s.inReset = false ∧ s.wires.landing[(0 : LaneId)] = w :: [] ∧ s.cmd.shadow = some testShadow ∧
      s.lanes[(0 : LaneId)].runState = .running ∧
      0 = (w.addr - g.base) / g.stride ∧ (w.addr - g.base + w.span - 1) / g.stride ≠ 0 := by decide +kernel

/-- Ordinary, padding and slot-crossing writes at lanes that take none. -/
theorem witness_LandingIgnored : ∀ st ∈ [LaneState.off, .faulted],
    ∀ w ∈ [landing 0x20000400 64, landing (0x20000000 + 1016) 16, landing 0x20000000 0],
    let s := landingPart st none w
    s.inReset = false ∧ s.wires.landing[(0 : LaneId)] = w :: [] ∧
      (s.lanes[(0 : LaneId)].state = .off ∨ s.lanes[(0 : LaneId)].state = .faulted) := by decide +kernel

/-- The test configuration with slots of 2,048 bytes in lane 0, for lines of 1,024. -/
def paddedShadow : Shadow := { testShadow with lanes := testShadow.lanes.set 0 { testLane 0 with stride := 2048 } }

/-- A part with a landing write on its way to lane 0, which is in LOCKING, TRACKING or the like under those slots, a miss
short of the stall limit, with the line, the accounted and settled lines, and the buffers given, its trigger count at 4. -/
def sortingPart (st : LaneState) (line : Option LineInProgress) (accounted settled : Nat) (a b : Buffer) (w : LandingCopy) :
    State :=
  { running with
    lanes := lanesWith { laneZero with
      state := st, line := line, trigger := 4, accounted := accounted, settled := settled, misses := 2, bufA := a,
      bufB := b }
    cmd := { running.cmd with shadow := some paddedShadow }
    wires := { Wires.quiet with landing := #v[[w], [], [], [], [], [], [], []] } }

/-- A buffer that fills, and one that is READY. -/
def fillingBuffer (line : Nat) : Buffer := { Buffer.empty with state := .filling, line := line }

def readyBuffer (line : Nat) : Buffer := { Buffer.empty with state := .ready, line := line, mode := some .track }

/-- What every write of the sorting clause meets: it lies in the slot at the offset, and the lane has settled all below. -/
def sorted (s : State) (w : LandingCopy) (slot offset first : Nat) : Bool :=
  let l := s.lanes[(0 : LaneId)]
  let g := paddedShadow.lanes[(0 : LaneId)]
  decide (s.inReset = false) && decide (s.wires.landing[(0 : LaneId)] = w :: []) &&
    decide (s.cmd.shadow = some paddedShadow) && decide (l.state ∈ [.waiting, .locking, .tracking, .dropout]) &&
    decide (0 < w.span) && decide (w.addr = g.base + slot * g.stride + offset) &&
    decide (offset + w.span ≤ g.stride) && l.line.all (fun p => decide (p.line = l.accounted)) &&
    decide (l.runState = .running) && decide (l.declared = []) && decide (l.settled + 1 = first) &&
    decide (paddedShadow.netLo ≤ g.ownHi) && decide (g.ownLo ≤ paddedShadow.netHi) &&
    decide (l.misses < paddedShadow.timing.stall) && decide (paddedShadow.timing.lag ≤ g.slots)

/-- Padding from the line's end on, with a line in progress and without; and orphan writes past the start of a slot, or
without its first byte. -/
theorem witness_LandingNothing : ∀ st ∈ [LaneState.waiting, .locking, .tracking, .dropout],
    (∀ line ∈ [none, some (lineOne 64)],
     let w := landing (0x20000800 + 1024) 64
     sorted (sortingPart st line 1 (if line = none then 1 else 0)
       (if line = none then Buffer.empty else fillingBuffer 1) Buffer.empty w) w 1 1024
       (if line = none then 2 else 1) = true) ∧
    (let w := landing (0x20000800 + 8) 64
     sorted (sortingPart st none 1 1 Buffer.empty Buffer.empty w) w 1 8 2 = true) ∧
    (let w := { landing 0x20000800 8 with enables := [false, true, true, true, true, true, true, true] }
     sorted (sortingPart st none 1 1 Buffer.empty Buffer.empty w) w 1 0 2 = true ∧
       (w.enables.take (1024 - 0)).all id = false) := by decide +kernel

/-- A start write in slot 5, which no line of the lag window (2, 4] lands in. -/
theorem witness_LandingStale : ∀ st ∈ [LaneState.waiting, .locking, .tracking, .dropout],
    let w := landing (0x20000000 + 5 * 2048) 64
    sorted (sortingPart st none 1 1 Buffer.empty Buffer.empty w) w 5 0 2 = true ∧
      (w.enables.take (1024 - 0)).all id = true ∧
      ∀ m ≤ 4, ¬ (1 < m ∧ m ≤ 4 ∧ 4 < m + paddedShadow.timing.lag ∧ m % paddedShadow.lanes[(0 : LaneId)].slots = 5) := by
  decide +kernel

/-- Starts of lines 3 and 4, the ends of the lag window, over line 1 in progress, with none, and with both buffers READY. -/
theorem witness_LandingStarts : ∀ st ∈ [LaneState.waiting, .locking, .tracking, .dropout], ∀ m ∈ [3, 4],
    let w := landing (0x20000000 + m * 2048) 64
    let g := paddedShadow.lanes[(0 : LaneId)]
    (w.enables.take (g.length - 0)).all id = true ∧ 0 < g.length ∧ w.span < g.length ∧
      4 < m + paddedShadow.timing.lag ∧ m % g.slots = m ∧
      sorted (sortingPart st (some (lineOne 64)) 1 0 (fillingBuffer 1) Buffer.empty w) w m 0 1 = true ∧
      sorted (sortingPart st (some (lineOne 64)) 1 0 (fillingBuffer 1) (readyBuffer 0) w) w m 0 1 = true ∧
      sorted (sortingPart st none 1 1 Buffer.empty Buffer.empty w) w m 0 2 = true ∧
      (let s := sortingPart st none 2 0 (readyBuffer 2) (readyBuffer 1) w
       let l := s.lanes[(0 : LaneId)]
       sorted s w m 0 1 = true ∧ l.bufA.state = .ready ∧ l.bufB.state = .ready ∧
         l.settled + 1 = min l.bufA.line l.bufB.line) := by decide +kernel

/-- A write past the line in progress's next byte, and one in another slot. -/
theorem witness_LandingStray : ∀ st ∈ [LaneState.waiting, .locking, .tracking, .dropout],
    ∀ x ∈ [(1, 65), (2, 64)],
    let w := landing (0x20000000 + x.1 * 2048 + x.2) 64
    let p := lineOne 64
    sorted (sortingPart st (some p) 1 0 (fillingBuffer 1) Buffer.empty w) w x.1 x.2 1 = true ∧
      ¬ (p.slot = x.1 ∧ x.2 = p.next) := by decide +kernel

/-- A write that continues line 1 in progress, the other buffer free or READY with a line that is still pending. -/
theorem witness_LandingContinues : ∀ st ∈ [LaneState.waiting, .locking, .tracking, .dropout],
    ∀ x ∈ [((0 : Nat), Buffer.empty), (3, readyBuffer 4)],
    let w := landing (0x20000800 + 64) 64
    let p := lineOne 64
    let s := sortingPart st (some p) 1 x.1 (fillingBuffer 1) x.2 w
    let l := s.lanes[(0 : LaneId)]
    let g := paddedShadow.lanes[(0 : LaneId)]
    s.inReset = false ∧ s.wires.landing[(0 : LaneId)] = w :: [] ∧ s.cmd.shadow = some paddedShadow ∧
      l.state ∈ [.waiting, .locking, .tracking, .dropout] ∧ 0 < w.span ∧ w.addr = g.base + 1 * g.stride + 64 ∧
      64 + w.span ≤ g.stride ∧ l.line = some p ∧ p.slot = 1 ∧ 64 = p.next ∧
      (w.enables.take (g.length - 64)).all id = true ∧ 64 + w.span < g.length ∧
      (p.line ≤ l.settled + 1 ∨ (l.bufB.state = .ready ∧ l.bufB.line ≤ l.settled + 1)) := by decide +kernel

/-- A line of lane k at the end of the ready list. -/
def readyLine (k : LaneId) (mode : Mode) : ReadyEntry := { lane := k, line := 1, buffer := .a, mode := mode }

/-- An engine lane of three columns with n entries in its join queue. -/
def smallLane (n : Nat) : EngineLane :=
  { background := [5120, 5120, 5120], hold := [0, 0, 0],
    join := List.replicate n { line := 9, blind := false, runs := [] }, crowded := 0 }

/-- A part in RUNNING with an engine of its own. -/
def enginePart (analysis : Option Analysis) (ready : List ReadyEntry) (join0 : Nat) : State :=
  { running with
    lanes := lanesWith { laneZero with
      bufA := { state := .ready, line := 1, mode := some .seed, pixels := [20, 120, 20] } }
    engine := {
      analysis := analysis, ready := ready,
      lanes := #v[smallLane join0, smallLane 0, smallLane 0, smallLane 0, smallLane 0, smallLane 0, smallLane 0,
        smallLane 0] } }

/-- A TRACK line whose join queue is full is passed over, and one with room for the last entry is taken. -/
theorem witness_AnalysisBegin :
    (let s := enginePart none [readyLine 0 .track, readyLine 1 .track] 8
     s.inReset = false ∧ s.engine.analysis = none ∧ s.engine.ready[1]? = some (readyLine 1 .track) ∧
       s.engine.lanes[(1 : LaneId)].join.length < 8 ∧ (readyLine 0 .track).lane ≠ (readyLine 1 .track).lane ∧
       ¬ s.engine.lanes[(0 : LaneId)].join.length < 8 ∧ s.cmd.detect.activate.inUse = some testDetect) ∧
    (let s := enginePart none [readyLine 0 .track] 7
     s.inReset = false ∧ s.engine.analysis = none ∧ s.engine.ready[0]? = some (readyLine 0 .track) ∧
       s.engine.lanes[(0 : LaneId)].join.length < 8 ∧ s.cmd.detect.activate.inUse = some testDetect) := by decide +kernel

/-- A line of lane 0 in analysis. -/
def inAnalysis (mode : Mode) : Analysis := { entry := readyLine 0 mode, detect := testDetect }

theorem witness_Seed :
    let s := enginePart (some (inAnalysis .seed)) [] 0
    s.inReset = false ∧ s.engine.analysis = some (inAnalysis .seed) ∧ (inAnalysis .seed).entry.mode = .seed ∧
      s.cmd.shadow = some testShadow ∧ s.lanes[(0 : LaneId)].runState = .running := by decide +kernel

theorem witness_AnalysisUpdatesEachColumn : ∀ mode ∈ [Mode.lock, .track],
    let s := enginePart (some (inAnalysis mode)) [] 7
    let pixels := (s.lanes[(0 : LaneId)].buffer .a).pixels
    s.inReset = false ∧ s.engine.analysis = some (inAnalysis mode) ∧ (inAnalysis mode).entry.mode ≠ .seed ∧
      s.cmd.shadow = some testShadow ∧ pixels.length ≤ s.engine.lanes[(0 : LaneId)].background.length ∧
      pixels.length ≤ s.engine.lanes[(0 : LaneId)].hold.length ∧ s.lanes[(0 : LaneId)].runState = .running := by
  decide +kernel

/-- The result of one column. -/
def column (j : Nat) (flag : Option (Polarity × Severity)) : ColumnResult :=
  { column := j, flag := flag, contrast := 100, background := 5120, hold := 1, blind := false }

theorem witness_RunsCoverFlaggedColumns :
    let cs := [column 0 (some (.bright, .reject)), column 1 none, column 7 (some (.dark, .minor))]
    cs.Pairwise (fun c e => c.column < e.column) ∧ ∃ c ∈ cs, c.flag ≠ none := by decide

/-- Sixty-five flagged columns of alternating polarity: run 64 takes in the last two, and is CROWDED. -/
theorem witness_RunsOfALine :
    let cs := (List.range 65).map fun j => column j (some (if j % 2 = 0 then .dark else .bright, .major))
    cs.Pairwise (fun c e => c.column < e.column) ∧ (∀ c ∈ cs, c.flag.all (fun f => decide (f.1 ≠ .mixed)) = true) ∧
      (lineRuns testDetect (testLane 0) 0 1 cs).map (·.crowded) = List.replicate 63 false ++ [true] := by decide +kernel

/-! ## Witnesses: Blob Assembler -/

/-- A gap list entry. -/
def gapEntry (lane : Option LaneId) (first last : Nat) (newest laneNewest : Bool) : GapEntry :=
  { lane := lane, first := first, last := last, newest := newest, laneNewest := laneNewest }

/-- A part in RUNNING with a gap line of lane 0 for line 9 on its way. -/
def gapPart (gaps : List GapEntry) (gradedTail : Option Nat) : State :=
  { running with
    asm := { Assembler.powerOn with gaps := gaps, gradedTail := gradedTail }
    wires := { Wires.quiet with laneMsgs := #v[[now (.gap 9)], [], [], [], [], [], [], []] } }

theorem witness_GapLine : ∀ s ∈ [gapPart [gapEntry (some 0) 5 8 true true] none, gapPart [] (some 999),
      gapPart (List.replicate 63 (gapEntry (some 1) 2 2 false false) ++ [gapEntry (some 1) 4 4 true true]) (some 1000)],
    s.inReset = false ∧ s.wires.laneMsgs[(0 : LaneId)] = { epoch := s.epoch, msg := .gap 9 } :: [] ∧
      s.cmd.shadow = some testShadow ∧ (∀ e ∈ s.asm.gaps, e.first ≤ e.last) ∧
      (s.asm.gaps.length < 64 ∨ ∃ e ∈ s.asm.gaps, e.newest = true) ∧
      (∀ e ∈ s.asm.gaps, e.lane = some 0 → e.laneNewest = true → e.last < 9) := by decide +kernel

/-- Line 9 ends at 1,000 µm, so that a graded tail of 1,000 µm drops it and one of 999 µm does not. -/
theorem witness_GapLine_clauses : (9 + 1) * testShadow.travel.pitch ≤ 1000 ∧ 999 < (9 + 1) * testShadow.travel.pitch := by
  decide

/-- Line 9 within an entry of ALL, next after lane 0's newest entry, new to a list of 63 entries, and new to a full one: the four
steps of R77. -/
theorem witness_GapSteps : ∀ x ∈ [([gapEntry none 5 9 true false, gapEntry (some 0) 6 8 false true], true, false, true),
      ([gapEntry (some 0) 5 8 true true], false, true, true),
      (List.replicate 62 (gapEntry (some 1) 2 2 false false) ++ [gapEntry (some 0) 4 7 true true], false, false, true),
      (gapEntry (some 1) 4 4 true true :: List.replicate 63 (gapEntry (some 1) 2 2 false false), false, false, false)],
    let s := gapPart x.1 (some 999)
    s.inReset = false ∧ s.wires.laneMsgs[(0 : LaneId)] = { epoch := s.epoch, msg := .gap 9 } :: [] ∧
      s.cmd.shadow = some testShadow ∧ 999 < (9 + 1) * testShadow.travel.pitch ∧
      decide (∃ e ∈ s.asm.gaps, e.lane = none ∧ e.first ≤ 9 ∧ 9 ≤ e.last) = x.2.1 ∧
      decide (∃ e ∈ s.asm.gaps, e.lane = some 0 ∧ e.laneNewest = true ∧ e.last + 1 = 9) = (x.2.2.1 || x.2.1) ∧
      decide (s.asm.gaps.length < 64) = x.2.2.2 ∧ 
      (x.2.2.2 = false → s.asm.gaps.head?.map (·.newest) = some true) := by
  decide +kernel

theorem witness_AssemblerMessages :
    (let s := withWires { Wires.quiet with laneMsgs := #v[[now (.settled 7)], [], [], [], [], [], [], []] } running
     s.inReset = false ∧ s.wires.laneMsgs[(0 : LaneId)] = { epoch := s.epoch, msg := .settled 7 } :: []) ∧
    (let s := withWires { Wires.quiet with plannerAsm := [now (.scan 0 6000000 2)] } running
     s.inReset = false ∧ s.wires.plannerAsm = { epoch := s.epoch, msg := .scan 0 6000000 2 } :: []) ∧
    (let s := withWires { Wires.quiet with plannerAsm := [now (.markLate 1)] } running
     s.inReset = false ∧ s.wires.plannerAsm = { epoch := s.epoch, msg := .markLate 1 } :: []) ∧
    (let s := withWires { Wires.quiet with plannerAsm := [now (.markUnplanned 1)] } running
     s.inReset = false ∧ s.wires.plannerAsm = { epoch := s.epoch, msg := .markUnplanned 1 } :: []) := by decide +kernel

/-- A run of columns 5 to 6 of lane 0 on line 1. -/
def runOne : PixelRun :=
  { lane := 0, line := 1, first := 5, last := 6, polarity := .bright, level := .reject, peak := 100, sum := 150, lo := 1960,
    hi := 2744, crowded := false }

/-- A part in RUNNING with line 1 settled in every lane, the runs given in lane 0's join queue. -/
def joinPart (join : List JoinEntry) (asm : Assembler) : State :=
  { running with
    asm := asm
    engine := {
      analysis := none, ready := [],
      lanes := #v[{ smallLane 0 with join := join }, smallLane 0, smallLane 0, smallLane 0, smallLane 0, smallLane 0,
        smallLane 0, smallLane 0] } }

/-- The assembler with line n settled in every lane and all below it joined. -/
def settledTo (n : Nat) : Assembler := { Assembler.powerOn with settled := Vector.replicate 8 n, joined := n - 1 }

theorem witness_Join :
    let s := joinPart [{ line := 1, blind := false, runs := [runOne] }] (settledTo 1)
    s.inReset = false ∧ s.cmd.runState = .running ∧ s.asm.joined < s.asm.frontier ∧ s.cmd.shadow = some testShadow ∧
      s.cmd.detect.activate.inUse = some testDetect := by decide +kernel

/-- A line with one run, with no truncation marker, with one it touches and with one it does not. -/
theorem witness_LoneRun : ∀ markers ∈ [[], [({ lo := 3744, hi := 4000, flaw := 7 } : Marker)],
      [{ lo := 3745, hi := 4000, flaw := 7 }]],
    let e : JoinEntry := { line := 1, blind := false, runs := [runOne] }
    let s := joinPart [e] { settledTo 1 with markers := markers }
    s.inReset = false ∧ s.cmd.runState = .running ∧ s.asm.joined < s.asm.frontier ∧ s.cmd.shadow = some testShadow ∧
      s.cmd.detect.activate.inUse = some testDetect ∧ s.asm.blobs = [] ∧ s.asm.nextBlob < 4294967295 ∧
      s.engine.entryFor (s.asm.joined + 1) 0 = some e ∧ e.runs = [runOne] ∧ runOne.lane = 0 ∧
      (∀ j : LaneId, j ≠ 0 → s.engine.entryFor (s.asm.joined + 1) j = none) ∧
      testShadow.travel.pitch < testDetect.maxLength := by decide +kernel

/-- No blob flag set. -/
def noFlags : BlobFlags :=
  { merged := false, crowded := false, continued := none, partialView := false, truncated := false, forced := false }

/-- An open blob of lines first to front at cross positions lo to hi. -/
def openBlob (first front lo hi : Nat) : Blob :=
  { id := 1, first := first, front := front, frontLo := lo, frontHi := hi, lo := lo, hi := hi, dark := false, bright := true,
    level := .reject, peak := 100, sum := 150, area := 2, lanes := #v[true, false, false, false, false, false, false, false],
    flags := noFlags }

/-- A held flaw of the number, span and severity given. -/
def heldFlaw (number start stop : Nat) (severity : Severity) : FlawEntry :=
  { number := number, start := start, stop := stop, midpoint := (start + stop) / 2, severity := severity, cls := .point,
    polarity := .bright, flags := noFlags, late := false, unplanned := false }

/-- An assembler one line past the along gap behind a blob, with the graded tail and the table given. -/
def endedPart (b : Blob) (gradedTail : Option Nat) (table : List FlawEntry) : State :=
  joinPart [] { settledTo 13 with blobs := [b], gradedTail := gradedTail, table := table }

/-- An ended blob on a line for which one lane delivers an entry without runs. -/
theorem witness_EndedBlob_entries :
    let s := joinPart [{ line := 13, blind := true, runs := [] }] { settledTo 13 with blobs := [openBlob 9 10 5000 5600] }
    s.engine.entryFor 13 0 = some { line := 13, blind := true, runs := [] } ∧
      (∀ j : LaneId, j ≠ 0 → s.engine.entryFor 13 j = none) ∧ s.asm.joined + 1 = 13 ∧
      s.asm.joined < s.asm.frontier ∧ s.inReset = false ∧ s.cmd.runState = .running ∧
      s.asm.blobs = [openBlob 9 10 5000 5600] ∧ 10 + testDetect.alongGap < 13 := by decide +kernel

theorem witness_EndedBlob : ∀ x ∈ [(openBlob 9 10 3300000 3300500, none, []), (openBlob 9 10 5000 5600, some 1001, []),
      (openBlob 9 10 5000 5600, some 1000, []),
      (openBlob 9 10 5000 5600, none, List.replicate 512 (heldFlaw 7 0 100 .minor))],
    let b : Blob := x.1
    let s := endedPart b x.2.1 x.2.2
    s.inReset = false ∧ s.cmd.runState = .running ∧ s.asm.joined < s.asm.frontier ∧ s.cmd.shadow = some testShadow ∧
      s.cmd.detect.activate.inUse = some testDetect ∧ s.asm.blobs = [b] ∧
      (∀ j : LaneId, s.engine.entryFor (s.asm.joined + 1) j = none) ∧
      b.front + testDetect.alongGap < s.asm.joined + 1 ∧ b.front ≠ s.asm.joined + 1 ∧ s.asm.nextFlaw < 4294967295 := by
  decide +kernel

/-- The four blobs above take the four dispositions: EDGE, ORPHAN, HELD at the graded tail, and UNHELD. -/
theorem witness_EndedBlob_clauses : testShadow.netHi < 3300000 ∧ (9 * testShadow.travel.pitch + (10 + 1) * testShadow.travel.pitch) / 2 = 1000 ∧
    ¬ (List.replicate 512 (heldFlaw 7 0 100 .minor)).length < 512 := by decide +kernel

/-- A part that joins line n with one run in lane 0, on the open blobs given. -/
def mergePart (n : Nat) (blobs : List Blob) : State :=
  joinPart [{ line := n, blind := false, runs := [{ runOne with line := n }] }] { settledTo n with blobs := blobs }

/-- One and two blobs at the far ends of the along gap and the cross bridge, of lines that stay below the maximum length, and
that reach it. -/
theorem witness_JoinedRuns : ∀ first ∈ [1, 2], ∀ two ∈ [true, false],
    let n := 20000
    let r : PixelRun := { runOne with line := n }
    let s := mergePart n (openBlob first (n - 3) 500 960 ::
      if two then [{ openBlob 19990 (n - 1) 3744 4000 with id := 2 }] else [])
    s.inReset = false ∧ s.cmd.runState = .running ∧ s.asm.joined < s.asm.frontier ∧ s.cmd.shadow = some testShadow ∧
      s.cmd.detect.activate.inUse = some testDetect ∧ s.asm.nextFlaw < 4294967295 ∧ s.asm.joined + 1 = n ∧
      (allLanes.flatMap fun k => ((s.engine.entryFor n k).map (·.runs)).getD []) = [r] ∧ s.asm.blobs ≠ [] ∧
      (s.asm.blobs.map (·.id)).Nodup ∧
      (∀ b ∈ s.asm.blobs, b.front < n ∧ n ≤ b.front + 1 + testDetect.alongGap ∧
        r.lo ≤ b.frontHi + testDetect.crossBridge ∧ b.frontLo ≤ r.hi + testDetect.crossBridge) ∧
      (decide (testDetect.maxLength ≤ (n - first + 1) * testShadow.travel.pitch)) = decide (first = 1) := by decide +kernel

/-- Ninety-six open blobs that the run just fails to touch, the coldest by its front, or by its id. -/
theorem witness_ForcedClosure : ∀ x ∈ [(12, 3), (11, 0)],
    let s := mergePart 13 ((List.range 96).map fun i =>
      { openBlob 5 (if i = x.2 then 11 else x.1) 3745 3800 with id := i + 1 })
    let cold : Blob := { openBlob 5 11 3745 3800 with id := x.2 + 1 }
    s.inReset = false ∧ s.cmd.runState = .running ∧ s.asm.joined < s.asm.frontier ∧ s.cmd.shadow = some testShadow ∧
      s.cmd.detect.activate.inUse = some testDetect ∧ s.asm.nextBlob < 4294967295 ∧ s.asm.nextFlaw < 4294967295 ∧
      s.asm.joined + 1 = 13 ∧
      s.engine.entryFor 13 0 = some { line := 13, blind := false, runs := [{ runOne with line := 13 }] } ∧
      (∀ j : LaneId, j ≠ 0 → s.engine.entryFor 13 j = none) ∧ testShadow.travel.pitch < testDetect.maxLength ∧
      s.asm.blobs.length = 96 ∧ (s.asm.blobs.map (·.id)).Nodup ∧
      (∀ b ∈ s.asm.blobs, b.front ≠ 13 ∧ 13 ≤ b.front + testDetect.alongGap ∧
        runOne.hi + testDetect.crossBridge < b.frontLo) ∧ cold ∈ s.asm.blobs ∧
      ∀ b ∈ s.asm.blobs, b ≠ cold → cold.front < b.front ∨ (cold.front = b.front ∧ cold.id < b.id) := by decide +kernel

/-- A run beside one open blob and beside 95, each at the far end of the along gap and just past the cross bridge. -/
theorem witness_LoneRunBeside : ∀ n ∈ [1, 95],
    let r : PixelRun := { runOne with line := 13 }
    let s := mergePart 13 ((List.range n).map fun i => { openBlob 5 11 3745 3800 with id := i + 1 })
    s.inReset = false ∧ s.cmd.runState = .running ∧ s.asm.joined < s.asm.frontier ∧ s.cmd.shadow = some testShadow ∧
      s.cmd.detect.activate.inUse = some testDetect ∧ s.asm.blobs.length = n ∧
      (∀ o ∈ s.asm.blobs, o.front ≠ 13 ∧ 13 ≤ o.front + testDetect.alongGap ∧
        r.hi + testDetect.crossBridge < o.frontLo) ∧ s.asm.nextBlob < 4294967295 ∧
      s.engine.entryFor 13 0 = some { line := 13, blind := false, runs := [r] } ∧ r.lane = 0 ∧
      (∀ j : LaneId, j ≠ 0 → s.engine.entryFor 13 j = none) ∧ testShadow.travel.pitch < testDetect.maxLength := by
  decide +kernel

/-- A run at a cross position. -/
def runAt (lo : Nat) : PixelRun := { runOne with line := 13, lo := lo, hi := lo + 99 }

/-- A part that joins line 13 with four runs: one that extends a blob, one that no other touches, and two just within the cross
bridge of each other; a second blob is reached by none. -/
def componentsPart : State :=
  joinPart [{ line := 13, blind := false, runs := [runAt 90000, runAt 1960, runAt 51099, runAt 50000] }]
    { settledTo 13 with blobs := [openBlob 5 10 500 960, { openBlob 5 11 99999 100000 with id := 2 }] }

theorem witness_SeveralComponents :
    let s := componentsPart
    let d := testDetect
    let fresh : List Component := [{ runs := [runAt 51099, runAt 50000], blobs := [] }, { runs := [runAt 90000], blobs := [] }]
    let runs : List PixelRun := allLanes.flatMap fun k => ((s.engine.entryFor 13 k).map (·.runs)).getD []
    let cs := components d.crossBridge (s.asm.blobs.filter fun b => decide (13 ≤ b.front + 1 + d.alongGap)) runs
    s.inReset = false ∧ s.cmd.runState = .running ∧ s.asm.joined < s.asm.frontier ∧ s.asm.joined + 1 = 13 ∧
      s.cmd.shadow = some testShadow ∧ s.cmd.detect.activate.inUse = some d ∧ (s.asm.blobs.map (·.id)).Nodup ∧
      (∀ b ∈ s.asm.blobs, b.front < 13) ∧ fresh.Perm (cs.filter fun c => c.blobs.isEmpty) ∧ cs.length = 3 ∧
      least ([runAt 51099, runAt 50000].map (·.lo)) < least ([runAt 90000].map (·.lo)) ∧
      s.asm.blobs.length + fresh.length ≤ 96 ∧ s.asm.nextBlob + fresh.length ≤ 4294967295 ∧
      (∀ b ∈ s.asm.blobs, (∀ c ∈ cs, b ∉ c.blobs) → 13 ≤ b.front + d.alongGap) ∧
      (∀ b ∈ s.asm.blobs, (13 - b.first + 1) * testShadow.travel.pitch < d.maxLength) ∧
      testShadow.travel.pitch < d.maxLength := by decide +kernel

/-- A part in RUNNING with a gather on its way, one entry of the table in the piece and one past it. -/
def gatherPart (g : GatherReq) : State :=
  { running with
    asm := { Assembler.powerOn with
      table := [heldFlaw 1 100 200 .minor, heldFlaw 2 6000000 6000400 .major],
      gaps := [gapEntry (some 0) 5 8 false true, gapEntry none 7 60000 true false], overflow := some { lo := 5, hi := 9 } }
    wires := { Wires.quiet with gathers := [now g] } }

theorem witness_Gather : ∀ g ∈ [({ head := some 0, tail := 6000000 } : GatherReq), { head := none, tail := 0 }],
    let s := gatherPart g
    s.inReset = false ∧ s.wires.gathers = { epoch := s.epoch, msg := g } :: [] ∧ s.cmd.shadow = some testShadow := by
  decide +kernel

theorem witness_GapOverlap : (gatherPart { head := none, tail := 0 }).asm.gaps.Pairwise (fun e f => e.first ≤ f.first) := by
  decide +kernel

/-! ## Witnesses: Cut Planner -/

/-- A piece whose tail is fixed. -/
def piece (number : Nat) (kind : PieceKind) (head : Option Nat) (tail : Nat) (state : PieceState) : Piece :=
  { number := number, kind := kind, head := head, tail := tail, state := state, sizes := testPlan }

/-- A cut of the queue. -/
def cut (pos : Nat) (committed : Bool) : Cut := { pos := pos, kind := .size, committed := committed }

/-- A planner with an open piece at head h. -/
def plannerAt (h : Nat) (pieces : List Piece) (cuts : List Cut) (overdue : Bool) : Planner :=
  { Planner.powerOn with
    pieces := pieces, openPiece := some { head := h, sizes := testPlan }, cuts := cuts, nextPiece := 9, cf := some 0,
    overdue := overdue }

/-- A part in RUNNING with the planner given and one message of the assembler on its way. -/
def plannerPart (p : Planner) (m : AsmMsg) : State :=
  { running with planner := p, wires := { Wires.quiet with asmPlanner := [now m] } }

/-- Size 2 fits in front of a flaw at 4 m, also one that begins just at its margin, and with two queue entries left. -/
theorem witness_HeldFlaw : ∀ x ∈ [(heldFlaw 1 4000000 4000300 .major, 0), (heldFlaw 1 3010000 3010000 .reject, 30)],
    let f := x.1
    let s := plannerPart (plannerAt 0 [] (List.replicate x.2 (cut 0 false)) false) (.heldFlaw f)
    let o : OpenPiece := { head := 0, sizes := testPlan }
    s.inReset = false ∧ s.wires.asmPlanner = { epoch := s.epoch, msg := .heldFlaw f } :: [] ∧
      s.cmd.shadow = some testShadow ∧ s.planner.openPiece = some o ∧ s.planner.overdue = false ∧
      s.planner.cuts.length + 2 ≤ 32 ∧ s.planner.pieces.length + 3 ≤ 40 ∧ o.sizes.level ≤ f.severity.code ∧
      o.head < f.stop ∧ f.start < o.head + o.sizes.l1 ∧ o.sizes.numbered[1]? = some (1, 3000000) ∧
      o.head + 3000000 + o.sizes.margin ≤ f.start ∧ s.planner.cf = some 0 ∧
      o.sizes.numbered[0]? = some (0, 6000000) ∧ ¬ o.head + 6000000 + o.sizes.margin ≤ f.start ∧
      s.cmd.plan.activate.inUse = some testPlan ∧ s.planner.nextPiece + 1 < 4294967295 := by decide +kernel

/-- A flaw below the plan level, one at the candidate tail, and one that ends at the open piece's head. -/
theorem witness_FlawWithoutReplan : ∀ x ∈ [(heldFlaw 1 100 200 .minor, 0), (heldFlaw 1 6000000 6000300 .reject, 0),
      (heldFlaw 1 100 700 .major, 700)],
    let f : FlawEntry := x.1
    let s := plannerPart (plannerAt x.2 [] [] false) (.heldFlaw f)
    let o : OpenPiece := { head := x.2, sizes := testPlan }
    s.inReset = false ∧ s.wires.asmPlanner = { epoch := s.epoch, msg := .heldFlaw f } :: [] ∧
      s.cmd.shadow = some testShadow ∧ s.planner.openPiece = some o ∧
      (f.severity.code < o.sizes.level ∨ (o.head < f.stop ∧ o.head + o.sizes.l1 ≤ f.start) ∨
        (o.sizes.level ≤ f.severity.code ∧ f.stop ≤ o.head ∧ s.planner.covered f = false ∧ f.late = false ∧
          f.number ∉ s.planner.markedLate)) := by decide +kernel

theorem witness_Covered :
    let p := plannerAt 900 [piece 1 .lead none 0 .struck, piece 2 (.size 0) (some 0) 500 .planned,
      piece 3 .cullet (some 500) 900 .planned] [] false
    p.pieces.Pairwise (fun q r => q.tail ≤ r.head.getD 0) ∧ ∀ q ∈ p.pieces, q.head.getD 0 ≤ q.tail := by decide

/-- A flaw behind the open piece that a CULLET piece covers to the last micrometre. -/
theorem witness_CoveredFlaw :
    let f := heldFlaw 1 500 900 .reject
    let s := plannerPart (plannerAt 900 [piece 3 .cullet (some 500) 900 .planned] [] false) (.heldFlaw f)
    s.inReset = false ∧ s.wires.asmPlanner = { epoch := s.epoch, msg := .heldFlaw f } :: [] ∧
      s.cmd.shadow = some testShadow ∧ s.planner.openPiece = some { head := 900, sizes := testPlan } ∧ f.stop ≤ 900 ∧
      s.planner.covered f = true := by decide +kernel

theorem witness_ScanAnswer :
    (let f := heldFlaw 1 4000000 4000300 .major
     (plannerPart (plannerAt 0 [] [] false) (.scanAnswer [f])).wires.asmPlanner =
       { epoch := 0, msg := .scanAnswer [f] } :: []) ∧
    (let fs := [heldFlaw 1 100 200 .minor, heldFlaw 2 6000000 6000300 .reject]
     let s := plannerPart (plannerAt 0 [] [] false) (.scanAnswer fs)
     s.inReset = false ∧ s.wires.asmPlanner = { epoch := s.epoch, msg := .scanAnswer fs } :: [] ∧
       s.cmd.shadow = some testShadow ∧ s.planner.openPiece = some { head := 0, sizes := testPlan } ∧
       ∀ f ∈ fs, f.severity.code < testPlan.level ∨ (0 < f.stop ∧ 0 + testPlan.l1 ≤ f.start)) := by decide +kernel

/-- A flaw that calls for a replan of the open piece, of plan level, ahead of its head and below h + L1. -/
def replanned (p : Planner) (f : FlawEntry) (head : Nat) : Bool :=
  let s := plannerPart p (.heldFlaw f)
  decide (s.inReset = false) && decide (s.wires.asmPlanner = { epoch := s.epoch, msg := .heldFlaw f } :: []) &&
    decide (s.cmd.shadow = some testShadow) && decide (s.planner.openPiece = some { head := head, sizes := testPlan }) &&
    decide (testPlan.level ≤ f.severity.code) && decide (head < f.stop) && decide (f.start < head + testPlan.l1) &&
    decide (s.cmd.plan.activate.inUse = some testPlan) && decide (s.planner.nextPiece < 4294967295)

/-- A size fits before the flaw, but 31 cuts, 38 pieces or an overdue open piece leave no room for two cuts and pieces. -/
theorem witness_NoRoomForASize : ∀ x ∈ [(31, 0, false), (0, 38, false), (0, 0, true)],
    let p := plannerAt 0 (List.replicate x.2.1 (piece 1 .lead none 0 .struck)) (List.replicate x.1 (cut 0 false)) x.2.2
    let f := heldFlaw 1 3010000 3010300 .major
    replanned p f 0 = true ∧ (∃ z ∈ testPlan.numbered, 0 + z.2 + testPlan.margin ≤ f.start ∧ (0 : Int) < (0 + z.2 : Nat)) ∧
      ¬ (p.overdue = false ∧ p.cuts.length + 2 ≤ 32 ∧ p.pieces.length + 1 + 2 ≤ 40) := by decide +kernel

/-- A flaw near the head, whose CULLET piece would end at 200,000 µm: with its cut above Cf and room for it, without room,
and with Cf at its cut. -/
theorem witness_CulletReplan : ∀ x ∈ [((199999 : Int), 31), (199999, 32), (200000, 31)],
    let p := { plannerAt 0 [] (List.replicate x.2 (cut 0 false)) false with cf := some x.1 }
    let f := heldFlaw 1 1000 1300 .reject
    replanned p f 0 = true ∧ (∀ z ∈ testPlan.numbered, ¬ 0 + z.2 + testPlan.margin ≤ f.start) ∧ p.pieces = [] ∧
      min (0 + testPlan.l1) (max (f.stop + testPlan.margin) (0 + testShadow.minTrim)) = 200000 := by decide +kernel

/-- A CULLET piece before the open piece that can take the flaw in at 610,300 µm, with that cut above Cf, and at it. -/
theorem witness_MergeReplan : ∀ cf ∈ [(610299 : Int), 610300],
    let q := piece 8 .cullet (some 0) 500000 .planned
    let c : Cut := { pos := 500000, kind := .trim, committed := false }
    let p := { plannerAt 500000 [q] [c] false with cf := some cf }
    let f := heldFlaw 1 600000 600300 .reject
    replanned p f 500000 = true ∧ (∀ z ∈ testPlan.numbered, ¬ 500000 + z.2 + testPlan.margin ≤ f.start) ∧
      q ∈ p.pieces ∧ q.kind = .cullet ∧ q.tail = 500000 ∧ max (f.stop + testPlan.margin) (0 + testShadow.minTrim) = 610300 ∧
      610300 ≤ 0 + testPlan.l1 ∧ q.state = .planned ∧ (∀ x ∈ p.pieces, x.tail = 500000 → x = q) ∧
      p.cuts = [] ++ [c] := by decide +kernel

/-- A CULLET piece before the open piece that could take the flaw in but for its committed cut; the open piece's own cut at
700,000 µm lies above Cf with room, above Cf without room, and at Cf. -/
theorem witness_CommittedMerge : ∀ x ∈ [((699999 : Int), 31), (699999, 32), (700000, 31)],
    let q := piece 8 .cullet (some 0) 500000 .committed
    let p := { plannerAt 500000 [q] (List.replicate x.2 (cut 0 false)) false with cf := some x.1 }
    let f := heldFlaw 1 600000 600300 .reject
    replanned p f 500000 = true ∧ (∀ z ∈ testPlan.numbered, ¬ 500000 + z.2 + testPlan.margin ≤ f.start) ∧
      q ∈ p.pieces ∧ q.kind = .cullet ∧ q.tail = 500000 ∧ (∀ y ∈ p.pieces, y.tail = 500000 → y = q) ∧
      q.state ≠ .planned ∧ max (f.stop + testPlan.margin) (q.head.getD 0 + testShadow.minTrim) ≤ q.head.getD 0 + testPlan.l1 ∧
      min (500000 + testPlan.l1) (max (f.stop + testPlan.margin) (500000 + testShadow.minTrim)) = 700000 ∧
      p.pieces.length + 2 ≤ 40 := by decide +kernel

theorem witness_JoinedLine :
    (let s := plannerPart (plannerAt 0 [] [] false) (.joined 59998)
     s.inReset = false ∧ s.wires.asmPlanner = { epoch := s.epoch, msg := .joined 59998 } :: [] ∧
       s.cmd.shadow = some testShadow ∧ s.planner.openPiece = some { head := 0, sizes := testPlan } ∧
       (59998 + 1) * testShadow.travel.pitch < 0 + testPlan.l1) ∧
    (∀ n ∈ [31, 32],
     let s := plannerPart (plannerAt 0 [] (List.replicate n (cut 0 false)) false) (.joined 59999)
     s.inReset = false ∧ s.wires.asmPlanner = { epoch := s.epoch, msg := .joined 59999 } :: [] ∧
       s.cmd.shadow = some testShadow ∧ s.planner.openPiece = some { head := 0, sizes := testPlan } ∧
       s.planner.overdue = false ∧ 0 + testPlan.l1 ≤ (59999 + 1) * testShadow.travel.pitch ∧
       (32 < s.planner.cuts.length + 1 ∨
         (s.planner.cuts.length + 1 ≤ 32 ∧ s.planner.pieces.length + 2 ≤ 40 ∧ s.planner.cf = some 0 ∧ 0 < testPlan.l1 ∧
           s.planner.nextPiece < 4294967295 ∧ s.cmd.plan.activate.inUse = some testPlan))) := by decide +kernel

theorem witness_FlushEnd : ∀ n ∈ [31, 32],
    let s := plannerPart (plannerAt 0 [] (List.replicate n (cut 0 false)) true) .flushEnd
    s.inReset = false ∧ s.wires.asmPlanner = { epoch := s.epoch, msg := .flushEnd } :: [] ∧
      s.cmd.shadow = some testShadow ∧ s.planner.openPiece = some { head := 0, sizes := testPlan } ∧
      s.planner.pieces.length + 1 ≤ 40 ∧ s.planner.nextPiece < 4294967295 ∧
      (s.planner.cuts.length = 32 ∨ s.planner.cuts.length < 32) := by decide +kernel

/-- A joined line that makes the open piece due with Cf at its candidate tail, and above the frontier position. -/
theorem witness_JoinedLineOverlength : ∀ cf ∈ [(6000000 : Int), 7000000],
    let s := plannerPart { plannerAt 0 [] (List.replicate 31 (cut 0 true)) false with cf := some cf } (.joined 59999)
    s.inReset = false ∧ s.wires.asmPlanner = { epoch := s.epoch, msg := .joined 59999 } :: [] ∧
      s.cmd.shadow = some testShadow ∧ s.planner.openPiece = some { head := 0, sizes := testPlan } ∧
      s.planner.overdue = false ∧ s.planner.cf = some cf ∧ 0 + testPlan.l1 ≤ (59999 + 1) * testShadow.travel.pitch ∧
      (0 + testPlan.l1 : Nat) ≤ cf ∧ s.planner.cuts.length + 1 ≤ 32 ∧ s.planner.pieces.length + 2 ≤ 40 ∧
      s.planner.nextPiece < 4294967295 ∧ s.cmd.plan.activate.inUse = some testPlan := by decide +kernel

theorem witness_RiseCommits :
    let m : Rise := { p0 := 0, p1 := 9500000 }
    let s := { running with
      planner := plannerAt 500000 [piece 8 (.size 0) (some 0) 500000 .planned] [cut 500000 false] false
      wires := { Wires.quiet with plannerRises := [now m] } }
    s.inReset = false ∧ s.wires.plannerRises = { epoch := s.epoch, msg := m } :: [] ∧ s.cmd.shadow = some testShadow ∧
      testShadow.dCommit ≤ testShadow.dCut ∧ s.planner.openPiece = some { head := 500000, sizes := testPlan } ∧
      (m.p1 : Int) - ((testShadow.dCut : Int) - testShadow.dCommit) < (500000 + testPlan.l1 : Nat) := by decide +kernel

/-- A part whose open piece, with its head at 0, meets a rise that brings Cf to 6 m, its candidate tail. -/
def dueRisePart (pieces : List Piece) (cuts : List Cut) : State :=
  { running with
    planner := plannerAt 0 pieces cuts false
    wires := { Wires.quiet with plannerRises := [now { p0 := 0, p1 := 15000000 }] } }

/-- A rise that makes the open piece due with 31 cuts and 38 pieces, with 32 cuts, and with 39 pieces. -/
theorem witness_RiseMakesDue : ∀ x ∈ [(31, 38), (32, 0), (0, 39)],
    let s := dueRisePart (List.replicate x.2 (piece 1 .lead none 0 .struck)) (List.replicate x.1 (cut 0 true))
    s.inReset = false ∧ s.wires.plannerRises = { epoch := s.epoch, msg := { p0 := 0, p1 := 15000000 } } :: [] ∧
      s.cmd.shadow = some testShadow ∧ testShadow.dCommit ≤ testShadow.dCut ∧
      s.planner.openPiece = some { head := 0, sizes := testPlan } ∧ s.planner.overdue = false ∧
      ((0 + testPlan.l1 : Nat) : Int) ≤ (15000000 : Nat) - ((testShadow.dCut : Int) - testShadow.dCommit) ∧
      (if x = (31, 38) then
         s.planner.cuts.length + 1 ≤ 32 ∧ s.planner.pieces.length + 2 ≤ 40 ∧ s.planner.nextPiece < 4294967295 ∧
           s.cmd.plan.activate.inUse = some testPlan
       else 32 < s.planner.cuts.length + 1 ∨ 40 < s.planner.pieces.length + 2) := by decide +kernel

theorem witness_StrikeClaim : ∀ c ∈ [500000, 400000],
    let q := piece 8 (.size 0) (some 0) 500000 .committed
    let s := { running with
      planner := plannerAt 500000 [q] [cut 500000 true] false
      wires := { Wires.quiet with claims := [now c] } }
    s.inReset = false ∧ s.wires.claims = { epoch := s.epoch, msg := c } :: [] ∧ s.cmd.shadow = some testShadow ∧
      s.planner.overdue = false ∧ s.planner.runEnd ≠ .waiting ∧
      (s.planner.headCut ≠ some c ∨
        (s.planner.cuts = cut 500000 true :: [] ∧ (cut 500000 true).pos = c ∧ q ∈ s.planner.pieces ∧ q.tail = c ∧
          ∀ r ∈ s.planner.pieces, r.tail = c → r = q)) := by decide +kernel

/-- A part in a run state with a claim for the head of the queue, of n cuts, and a waiting open piece. -/
def claimPart (r : RunState) (cuts pieces : Nat) (overdue : Bool) (runEnd : RunEnd) : State :=
  { configuredPart r with
    planner := { plannerAt 500000 (List.replicate pieces (piece 1 .lead none 0 .struck) ++
        [piece 8 (.size 0) (some 0) 500000 .committed]) (cut 500000 true :: List.replicate cuts (cut 600000 false)) overdue
      with runEnd := runEnd }
    wires := { Wires.quiet with claims := [now 500000] } }

/-- Granted claims that free the entry for an overdue open piece with and without a table slot, and for a run end that
waits, from a full queue and from one the strike empties. -/
theorem witness_ClaimFreesRoom : ∀ x ∈ [(RunState.running, 37, true, RunEnd.none), (.running, 38, true, .none),
      (.draining, 38, false, .waiting)], ∀ n ∈ [0, 31],
    let q := piece 8 (.size 0) (some 0) 500000 .committed
    let s := claimPart x.1 n x.2.1 x.2.2.1 x.2.2.2
    s.inReset = false ∧ s.wires.claims = { epoch := s.epoch, msg := 500000 } :: [] ∧ s.cmd.shadow = some testShadow ∧
      s.planner.openPiece = some { head := 500000, sizes := testPlan } ∧
      s.planner.cuts = cut 500000 true :: List.replicate n (cut 600000 false) ∧
      (List.replicate n (cut 600000 false)).length + 1 ≤ 32 ∧ q ∈ s.planner.pieces ∧ q.tail = 500000 ∧
      (∀ r ∈ s.planner.pieces, r.tail = 500000 → r = q) ∧ s.planner.nextPiece < 4294967295 ∧
      s.cmd.plan.activate.inUse = some testPlan ∧
      (if x.1 = .running then
         s.cmd.runState = .running ∧ s.planner.overdue = true ∧
           (if x.2.1 = 37 then s.planner.pieces.length + 2 ≤ 40 else 40 < s.planner.pieces.length + 2)
       else s.cmd.runState = .draining ∧ s.planner.runEnd = .waiting ∧ s.planner.pieces.length + 1 ≤ 40) := by
  decide +kernel

/-- A part in RUNNING with a message of the Planner on its way to the Strike Unit. -/
def strikePart (t : Strike) (m : StrikeMsg) : State :=
  { running with strike := t, wires := { Wires.quiet with plannerStrike := [now m] } }

theorem witness_OfferAndWithdrawal :
    (let s := strikePart { Strike.powerOn with lastPos := 10500000 } (.offer (some 500000))
     s.inReset = false ∧ s.wires.plannerStrike = { epoch := s.epoch, msg := .offer (some 500000) } :: [] ∧
       s.cmd.shadow = some testShadow ∧ s.strike.claiming = none ∧ 500000 + testShadow.dCut ≤ s.strike.lastPos) ∧
    (let s := strikePart { Strike.powerOn with claiming := some 5, offered := some 500000 } .withdrawal
     s.inReset = false ∧ s.wires.plannerStrike = { epoch := s.epoch, msg := .withdrawal } :: [] ∧
       s.cmd.shadow = some testShadow ∧ s.strike.claiming = some 5) := by decide +kernel

/-- A part with a request of the Grading Unit on its way to the Planner. -/
def removalPart (p : Planner) (m : PieceReq) : State :=
  { running with planner := p, wires := { Wires.quiet with pieceReqs := [now m] } }

theorem witness_Removal :
    (∀ e ∈ [RunEnd.none, .fixed],
     let s := removalPart { Planner.powerOn with pieces := [piece 1 .lead none 0 .struck], runEnd := e } (.removal 1)
     s.inReset = false ∧ s.cmd.shadow = some testShadow ∧ s.planner.overdue = false ∧ s.planner.runEnd ≠ .waiting ∧
       s.wires.pieceReqs = { epoch := s.epoch, msg := .removal 1 } :: []) ∧
    (let s := removalPart { Planner.powerOn with pieces := [piece 1 .lead none 0 .struck] } (.waitingLog 1)
     s.inReset = false ∧ s.cmd.shadow = some testShadow ∧ s.planner.overdue = false ∧ s.planner.runEnd ≠ .waiting ∧
       s.wires.pieceReqs = { epoch := s.epoch, msg := .waitingLog 1 } :: []) := by decide +kernel

theorem witness_FreedRoom :
    let s := removalPart (plannerAt 0 [piece 1 .lead none 0 .struck] (List.replicate 31 (cut 0 false)) true) (.removal 1)
    s.inReset = false ∧ s.cmd.shadow = some testShadow ∧ s.cmd.runState = .running ∧
      s.planner.openPiece = some { head := 0, sizes := testPlan } ∧ s.planner.overdue = true ∧
      s.planner.runEnd ≠ .fixed ∧ s.cmd.plan.activate.inUse = some testPlan ∧
      s.wires.pieceReqs = { epoch := s.epoch, msg := .removal 1 } :: [] ∧ s.planner.cuts.length < 32 ∧
      s.planner.nextPiece < 4294967295 ∧ (s.planner.pieces.filter fun q => decide (q.number ≠ 1)).length + 2 ≤ 40 := by
  decide +kernel

/-! ## Witnesses: Strike Unit and Grading Unit -/

/-- A track entry whose targets lie far ahead. -/
def trackEntry : TrackEntry :=
  { cut := 1, strike := 10000001, scoreEnd := 90000000, snapStart := 90000000, snapEnd := 90000001, score := .on,
    snap := .waiting }

/-- A part in the run state given with a rise on its way to the Strike Unit, cut 500,000 at the head of the queue. -/
def risePart (r : RunState) (m : Rise) (claiming : Option Nat) : State :=
  { configuredPart r with
    strike := { Strike.powerOn with
      offered := some 500000, claiming := claiming,
      track := [{ trackEntry with scoreEnd := 10400000, snapStart := 10450000, snapEnd := 10500000 }] }
    wires := { Wires.quiet with strikeRises := [now m] } }

/-- Rises that reach the strike target at 10.5 m exactly, and that end just below it. -/
theorem witness_StrikeRise : ∀ m ∈ [({ p0 := 10499999, p1 := 10500000 } : Rise), { p0 := 0, p1 := 10499999 }],
    ∀ claiming ∈ [none, some 7], ∀ r ∈ [RunState.running, .draining, .configured],
    let s := risePart r m claiming
    s.inReset = false ∧ s.wires.strikeRises = { epoch := s.epoch, msg := m } :: [] ∧ s.cmd.shadow = some testShadow := by
  decide +kernel

/-- A part whose outputs are right, with a snap and a gate window that wait for targets the rise reaches. -/
def pulsePart : State :=
  { running with
    strike := { Strike.powerOn with
      track := [{ trackEntry with snapStart := 10450000, snapEnd := 10500000 }]
      score := { level := true, asserted := 1 }
      gates := [{ start := 10450000, stop := 10480000, arrived := false }] }
    wires := { Wires.quiet with strikeRises := [now { p0 := 10449999, p1 := 10500000 }] } }

/-- The snap starts and ends in the rise, and so does the window; a level of an output asserts what the track holds. -/
theorem witness_StrikeRise_pulses : pulsePart.inReset = false ∧
    pulsePart.wires.strikeRises = { epoch := 0, msg := { p0 := 10449999, p1 := 10500000 } } :: [] ∧
    pulsePart.cmd.shadow = some testShadow ∧ pulsePart.cmd.runState.counting = true ∧ pulsePart.outputsRight ∧
    pulsePart.strike.snap.level = false ∧ pulsePart.strike.gate.level = false ∧
    (∃ e ∈ pulsePart.strike.track, e.snap = .waiting ∧ 10449999 < e.snapStart ∧ e.snapStart < e.snapEnd ∧
      e.snapEnd ≤ 10500000) ∧
    ∃ g ∈ pulsePart.strike.gates, g.arrived = false ∧ 10449999 < g.start ∧ g.start < g.stop ∧ g.stop ≤ 10500000 := by
  unfold State.outputsRight; decide +kernel

theorem witness_Grant : ∀ n ∈ [0, 3, 4], ∀ offered ∈ [none, some 500000, some 600000],
    let s := strikePart { Strike.powerOn with
      track := List.replicate n trackEntry, claiming := some 500000, offered := offered, lastPos := 10500000 }
      (.grant 8 (.size 0) (some 0) 500000)
    s.inReset = false ∧
      s.wires.plannerStrike = { epoch := s.epoch, msg := .grant 8 (.size 0) (some 0) 500000 } :: [] ∧
      s.cmd.shadow = some testShadow ∧ s.cmd.strike.activate.inUse = some testStrike ∧
      s.strike.lastPos < 500000 + testShadow.dCut + testStrike.wScore ∧
      s.strike.lastPos < 500000 + testShadow.dCut + testStrike.dSnap ∧ 0 < testStrike.wSnap := by decide +kernel

/-- Grants taken when the last rise has reached none, some and all of the strike's targets, with a track of four whose oldest
entry's snap is WAITING and the outputs right. -/
theorem witness_GrantBehind : ∀ last ∈ [10509999, 10510000, 10550000, 10570000], ∀ n ∈ [3, 4],
    let s := strikePart { Strike.powerOn with
      track := List.replicate n trackEntry, score := { level := true, asserted := 1 }, claiming := some 500000,
      offered := some 500000, lastPos := last } (.grant 8 (.size 0) (some 0) 500000)
    s.inReset = false ∧ s.wires.plannerStrike = { epoch := s.epoch, msg := .grant 8 (.size 0) (some 0) 500000 } :: [] ∧
      s.cmd.shadow = some testShadow ∧ s.cmd.strike.activate.inUse = some testStrike ∧ s.outputsRight ∧
      s.strike.snap.level = false ∧ 0 < testStrike.wSnap ∧
      (s.strike.track.head?.any fun e => decide (e.snap = .waiting)) = true ∧
      500000 + testShadow.dCut + testStrike.wScore = 10510000 ∧ 500000 + testShadow.dCut + testStrike.dSnap = 10550000 := by
  unfold State.outputsRight; decide +kernel

/-- A grade answer. -/
def answer (kind : PieceKind) (grade : Grade) : GradeAnswer :=
  { number := 8, kind := kind, head := some 0, tail := 6000000, grade := grade, dGate := 7000000, mask := testStrike.mask }

/-- Answers in and outside the mask, in and outside the counting window, for windows ahead and behind. -/
theorem witness_GradeAnswer : ∀ a ∈ [answer (.size 0) .c, answer .lead .x, answer (.size 0) .a],
    ∀ r ∈ [RunState.running, .draining, .configured], ∀ p ∈ [16000000, 23000000],
    let s := { configuredPart r with
      strike := { Strike.powerOn with
        lastPos := p, gates := List.replicate 8 { start := 1, stop := 2, arrived := false } }
      wires := { Wires.quiet with gradeAnswers := [now a] } }
    s.inReset = false ∧ s.wires.gradeAnswers = { epoch := s.epoch, msg := a } :: [] ∧ s.cmd.shadow = some testShadow := by
  decide +kernel

/-- A piece handed to grading. -/
def handoff (kind : PieceKind) (head : Option Nat) (tail : Nat) : Handoff :=
  { number := 8, kind := kind, head := head, tail := tail, dGate := 7000000, mask := testStrike.mask }

theorem witness_GradingQueue : ∀ epoch ∈ [0, 1],
    let m : Tagged Handoff := { epoch := epoch, msg := handoff (.size 0) (some 0) 6000000 }
    let s := { running with
      epoch := 1
      grading := { Grading.powerOn with queue := [m.msg] }
      wires := { Wires.quiet with handoffs := [m] } }
    s.inReset = false ∧ s.wires.handoffs = m :: [] ∧ s.grading.state = .idle ∧ s.grading.queue = m.msg :: [] := by
  decide +kernel

/-- A plate record of a piece of 6,000 by 3,210 mm. -/
def plate : PlateRecord :=
  plateRecordOf 1 testShadow.netLo testShadow.netHi testGrade (handoff (.size 0) (some 0) 6000000)
    { entries := [], overlap := 0, overflow := false }

theorem witness_Stamp : ∀ full ∈ [false, true],
    let x : ShiftStamp := { shift := 1, time := Calendar.powerOn, valid := false }
    let s := { running with
      grading := { Grading.powerOn with state := .stamping plate, logFull := full }
      wires := { Wires.quiet with stamps := [now x] } }
    s.inReset = false ∧ s.wires.stamps = { epoch := s.epoch, msg := x } :: [] ∧ s.grading.state = .stamping plate := by
  decide +kernel

theorem witness_PlateAnswers : ∀ a ∈ [LogAnswer.accepted, .full, .room],
    let o : Outbound := { record := plate, waiting := decide (a = LogAnswer.room) }
    let s := { running with
      grading := { Grading.powerOn with
        outbound := [o], outstanding := decide (a ≠ LogAnswer.room), logFull := decide (a = LogAnswer.room) }
      wires := { Wires.quiet with plateAnswers := [now a] } }
    s.inReset = false ∧ s.wires.plateAnswers = { epoch := s.epoch, msg := a } :: [] ∧ s.grading.outbound = o :: [] ∧
      (a = LogAnswer.room → s.grading.outstanding = false) := by decide +kernel

/-- Gathers answered for a sized piece with flaws, for a LEAD piece, and for a piece with a gap. -/
theorem witness_GatherAnswer : ∀ h ∈ [handoff (.size 0) (some 0) 6000000, handoff .lead none 0],
    ∀ overlap ∈ [0, 1],
    let a : GatherAnswer := { entries := [heldFlaw 1 0 9 .minor, heldFlaw 2 5 9 .reject], overlap := overlap, overflow := false }
    let s := { running with
      grading := { Grading.powerOn with state := .gathering h, group := some testGrade }
      wires := { Wires.quiet with gatherAnswers := [now a] } }
    s.inReset = false ∧ s.wires.gatherAnswers = { epoch := s.epoch, msg := a } :: [] ∧
      s.grading.state = .gathering h ∧ s.grading.group = some testGrade ∧ s.cmd.shadow = some testShadow := by
  decide +kernel

/-! ## Witnesses: Shift Unit -/

theorem witness_CloseShift :
    let s := kindPart .running 9
    s.inReset = false ∧ s.cmd.execution = some { slot := 3, phase := .ready [9] } ∧ byteAt [9] 0 = 9 ∧
      s.shift.hold = .empty := by decide +kernel

theorem witness_TallyIncrement :
    let s := withWires { Wires.quiet with increments := [(.planner, .lateFlaw), (.lane 7, .gapLine .blind), (.travel, .stop)] }
      running
    s.inReset = false ∧
      s.wires.increments = [(.planner, .lateFlaw)] ++ (.lane 7, .gapLine .blind) :: [(.travel, .stop)] ∧
      (∀ m ∈ [((.planner : Sender), Increment.lateFlaw)], m.1 ≠ .lane 7) ∧
      s.cmd.shadow.map (·.travel.pitch) = some testShadow.travel.pitch := by decide +kernel

/-- A refused access counted in TRANSPARENT, with the shadow absent. -/
theorem witness_TallyIncrement_transparent :
    let s := withWires { Wires.quiet with increments := [(.path, .refusedAccess)] } { State.reset with inReset := false }
    s.inReset = false ∧ s.cmd.shadow = none ∧ s.wires.increments = [] ++ (.path, .refusedAccess) :: [] := by
  decide +kernel

theorem witness_ShiftAnswers : ∀ a ∈ [LogAnswer.accepted, .full, .room],
    let s := withWires { Wires.quiet with shiftAnswers := [a] } running
    s.inReset = false ∧ s.wires.shiftAnswers = a :: [] := by decide +kernel

theorem witness_GradingIncrements :
    let m := now ({ grade := .b, length := 6000, cullet := true } : GradingIncrement)
    let s := withWires { Wires.quiet with gradingIncs := [m] } running
    s.inReset = false ∧ s.wires.gradingIncs = m :: [] := by decide +kernel

/-! ## Witnesses: Record Writer -/

/-- A part whose four logs have the same counts. -/
def logPart (producer consumer written : Word32) (w : Wires) : State :=
  let log := fun (l : Fin 4) =>
    { freshLog l with producer := producer, consumer := consumer, written := written, nextSeq := producer + 1 }
  { running with writer := { running.writer with logs := #v[log 0, log 1, log 2, log 3] }, wires := w }

/-- A flaw record. -/
def flawRecord : FlawRecord :=
  { run := 1, number := 7, disposition := .held, severity := .reject, cls := .point, polarity := .bright, flags := noFlags,
    lanes := Vector.replicate 8 true, first := 9, front := 10, start := 900, stop := 1100, lo := 5000, hi := 5600, peak := 100,
    sum := 150, area := 2 }

/-- Logs with one entry free and logs that are full. -/
theorem witness_LogRoom : ∀ n ∈ [(63, LogId.flaw), (31, .plate), (15, .shift), (127, .fault)],
    ∀ full ∈ [false, true],
    let producer := BitVec.ofNat 32 (if full then n.1 + 1 else n.1)
    let s := logPart producer 0 0 { Wires.quiet with
      flawRecords := [flawRecord], plateOffers := [now plate],
      shiftOffers := [{ tally := Tally.powerOn, fin := Calendar.powerOn }] }
    let g := s.writer.logs[n.2.idx]
    s.inReset = false ∧ s.wires.flawRecords = flawRecord :: [] ∧
      s.wires.plateOffers = { epoch := s.epoch, msg := plate } :: [] ∧
      s.wires.shiftOffers = { tally := Tally.powerOn, fin := Calendar.powerOn } :: [] ∧
      g.fields = some testShadow.logs[n.2.idx] ∧
      (if full then testShadow.logs[n.2.idx].entries ≤ (g.producer - g.consumer).toNat
       else (g.producer - g.consumer).toNat < testShadow.logs[n.2.idx].entries) := by decide +kernel

theorem witness_EntryImages : (flawRecord.image.length + 4 = LogId.flaw.entrySize) := by decide +kernel

/-- A plate record at the bound of sixteen top flaws. -/
theorem witness_PlateImage : ({ plate with top := List.range' 1 16 } : PlateRecord).top.length ≤ 16 := by decide

/-- A fault of source 3. -/
def faultMsg : FaultMsg := { source := 3, kind := .region, detailA := 257, detailB := 0x1000 }

/-- An open fault record of source 3 at count n. -/
def openFault (n : Word32) : OpenFault :=
  { count := n
    record :=
      { source := 3, firstKind := .region, lastKind := .region, detailA := 257, detailB := 0, repeats := 1,
        firstTime := Calendar.powerOn, lastTime := Calendar.powerOn, firstValid := false, lastValid := false } }

/-- A part with a fault of the Path Unit behind one of lane 2, the Fault Log's counts and source 3's open record given. -/
def faultPart (producer consumer : Word32) (o : Option OpenFault) : State :=
  let s := logPart producer consumer consumer { Wires.quiet with faults := [(.lane 2, faultMsg), (.path, faultMsg)] }
  let c : Vector (Option OpenFault) 16 :=
    #v[none, none, none, o, none, none, none, none, none, none, none, none, none, none, none, none]
  { s with writer := { s.writer with collapse := c } }

/-- A fault that collapses into an unreleased record, one whose record is released, one with no record, and one in a full
log. -/
theorem witness_Fault : ∀ x ∈ [((5 : Word32), (4 : Word32), some (openFault 4)), (5, 4, some (openFault 3)), (5, 4, none),
      (128, 0, none)],
    let s := faultPart x.1 x.2.1 x.2.2
    let g := s.writer.logs[LogId.fault.idx]
    let unreleased := (g.producer - g.consumer).toNat
    s.inReset = false ∧ s.wires.faults = [(.lane 2, faultMsg)] ++ (.path, faultMsg) :: [] ∧
      (∀ y ∈ [(FaultSender.lane 2, faultMsg)], y.1 ≠ .path) ∧
      g.fields = some testShadow.logs[LogId.fault.idx] ∧
      ((∃ o, s.writer.collapse[(3 : SourceId)] = some o ∧ (o.count - g.consumer).toNat < unreleased) ∨
        ((∀ o ∈ s.writer.collapse[(3 : SourceId)], unreleased ≤ (o.count - g.consumer).toNat) ∧
          (unreleased < testShadow.logs[LogId.fault.idx].entries ∨
            testShadow.logs[LogId.fault.idx].entries ≤ unreleased))) := by
  intro x hx
  simp only [List.mem_cons, List.not_mem_nil, or_false] at hx
  rcases hx with rfl | rfl | rfl | rfl
  · exact ⟨rfl, rfl, by decide, rfl, .inl ⟨openFault 4, rfl, by decide +kernel⟩⟩
  all_goals exact ⟨rfl, rfl, by decide, rfl, .inr ⟨by rintro o ⟨⟩; try decide +kernel, by decide +kernel⟩⟩

/-- A fault that collapses into the newest of the records not yet released, with the last place of the internal queue free and
with none. -/
theorem witness_Rewrite : ∀ n ∈ [15, 16],
    let s := faultPart 5 4 (some (openFault 4))
    let s := { s with path := { s.path with internal := List.replicate n (Txn.fetch .slotRead 0 64) } }
    s.inReset = false ∧ s.wires.faults = [(.lane 2, faultMsg)] ++ (.path, faultMsg) :: [] ∧ s.path.internal.length = n ∧
      s.writer.waiting = [] ∧ s.writer.collapse[(3 : SourceId)] = some (openFault 4) ∧
      ((4 : Word32) - s.writer.logs[LogId.fault.idx].consumer).toNat <
        (s.writer.logs[LogId.fault.idx].producer - s.writer.logs[LogId.fault.idx].consumer).toNat := by decide +kernel

/-- Releases of the first and the last written position of a log of 16, and of the position just past the last. -/
theorem witness_Release : ∀ p ∈ [4, 9, 10],
    let s := logPart 20 4 10 { Wires.quiet with releases := [{ log := .shift, positions := [p] }] }
    let g := s.writer.logs[LogId.shift.idx]
    let f := testShadow.logs[LogId.shift.idx]
    let offset := (p + f.entries - g.consumer.toNat % f.entries) % f.entries
    s.inReset = false ∧ s.wires.releases = { log := .shift, positions := [p] } :: [] ∧ g.fields = some f ∧
      0 < f.entries ∧ p < f.entries ∧
      (if p = 10 then (g.written - g.consumer).toNat ≤ offset else offset < (g.written - g.consumer).toNat) := by
  decide +kernel

/-! ## Witnesses: Command Unit -/

theorem witness_CommandTake :
    (let s := { running with cmd := { running.cmd with post := 1 } }
     s.inReset = false ∧ s.cmd.execution = none ∧ s.cmd.taken ≠ s.cmd.post) ∧
    (running.inReset = false ∧ running.cmd.taken = running.cmd.post) := by decide +kernel

theorem witness_CommandCompletion : ∀ r ∈ [none, some Reason.badTime],
    let s := { running with cmd := { running.cmd with execution := some { slot := 15, phase := .finished r } } }
    s.inReset = false ∧ s.cmd.execution = some { slot := 15, phase := .finished r } := by decide +kernel

/-- A kind byte and a run state for every refusal, with the bounds of the kinds that name no command. -/
theorem witness_CommandRefusals : ∀ x ∈ [((0 : Byte), RunState.running), (10, .running), (1, .running), (1, .draining),
      (2, .running), (2, .transparent), (3, .configured), (4, .transparent), (5, .running), (6, .transparent),
      (7, .transparent), (8, .draining)],
    let s := kindPart x.2 x.1
    s.inReset = false ∧ s.cmd.execution = some { slot := 3, phase := .ready [x.1] } ∧
      byteAt [x.1] 0 = x.1.toNat ∧ s.cmd.runState = x.2 ∧ (slotCalendar [x.1]).valid = false := by decide +kernel

theorem witness_ConfigureBegins : ∀ r ∈ [RunState.transparent, .configured],
    let s := kindPart r 1
    s.inReset = false ∧ s.cmd.execution = some { slot := 3, phase := .ready [1] } ∧ byteAt [1] 0 = 1 ∧
      s.cmd.runState = r := by decide +kernel

/-- A part that has read the bytes given as its configuration area. -/
def areaPart (bytes : List Byte) : State :=
  { running with cmd := { running.cmd with
    runState := .configured, execution := some { slot := 3, phase := .readingArea bytes } } }

theorem witness_StartRun :
    let s := kindPart .configured 2
    s.inReset = false ∧ s.cmd.execution = some { slot := 3, phase := .ready [2] } ∧ byteAt [2] 0 = 2 ∧
      s.cmd.runState = .configured ∧ s.cmd.shadow = some testShadow ∧ s.cmd.plan.activate.inUse = some testPlan := by
  decide +kernel

/-- A flush of three blobs, two of one first line, that become an EDGE, a HELD and an ORPHAN flaw, or an UNHELD one in a full
table, up to the last 32-bit flaw number. -/
theorem witness_StopRun : ∀ n ∈ [1, 4294967292], ∀ full ∈ [true, false],
    let s := { kindPart .running 3 with asm := { Assembler.powerOn with
      blobs := [{ openBlob 9 10 5000 5600 with id := 3 }, { openBlob 9 10 3300000 3300500 with id := 2 }, openBlob 1 2 50 60]
      nextFlaw := n, gradedTail := some 900
      table := if full then List.replicate 512 (heldFlaw 7 0 100 .minor) else [] } }
    s.inReset = false ∧ s.cmd.execution = some { slot := 3, phase := .ready [3] } ∧ byteAt [3] 0 = 3 ∧
      s.cmd.runState = .running ∧ s.cmd.shadow = some testShadow ∧ s.cmd.detect.inUse = some testDetect ∧
      s.asm.nextFlaw + s.asm.blobs.length ≤ 4294967295 ∧ (s.asm.table.length + 1 ≤ 512 ∨ full = true) := by
  decide +kernel

/-- A Flaw Table of two entries in R73's order. -/
theorem witness_TableOrder : [heldFlaw 1 0 100 .minor, heldFlaw 2 0 100 .major].Pairwise FlawEntry.inOrder := by
  simp [FlawEntry.inOrder, heldFlaw]

theorem witness_ResetRun : ∀ r ∈ [RunState.configured, .running, .draining],
    let s := { kindPart r 4 with
      planner := plannerAt 500000 [piece 8 (.size 0) (some 0) 500000 .planned] [cut 500000 false] false }
    s.inReset = false ∧ s.cmd.execution = some { slot := 3, phase := .ready [4] } ∧ byteAt [4] 0 = 4 ∧
      s.cmd.runState ≠ .transparent ∧ (∀ k : LaneId, s.lanes[k].runState = s.cmd.runState) ∧
      s.shift.runState = s.cmd.runState ∧ s.path.runState = s.cmd.runState := by decide +kernel

theorem witness_RunEnd : ∀ r ∈ [RunState.draining, .configured],
    let s := withWires { Wires.quiet with runEnds := [now ()] } (configuredPart r)
    s.inReset = false ∧ s.wires.runEnds = { epoch := s.epoch, msg := () } :: [] ∧ s.cmd.runState = r := by
  decide +kernel

/-- A SET_CLOCK slot for the last second of the calendar, and for its first. -/
theorem witness_SetClock : ∀ bytes ∈ [([5, 0, 0, 0, 0, 0, 0, 0, 0x33, 0x08, 12, 31, 3, 23, 59, 59] : List Byte),
      [5, 0, 0, 0, 0, 0, 0, 0, 0xD0, 0x07, 1, 1, 6, 0, 0, 0]],
    let s := commandPart .transparent bytes
    s.inReset = false ∧ s.cmd.execution = some { slot := 3, phase := .ready bytes } ∧ byteAt bytes 0 = 5 ∧
      Calendar.valid { year := byteAt bytes 8 + 256 * byteAt bytes 9, month := byteAt bytes 10, day := byteAt bytes 11,
                       weekday := byteAt bytes 12, hour := byteAt bytes 13, minute := byteAt bytes 14,
                       second := byteAt bytes 15 } = true := by decide +kernel

/-- LANE_ENABLE and LANE_DISABLE slots for lanes 0 and 7. -/
theorem witness_LaneCommands : ∀ kind ∈ [(6 : Byte), 7], ∀ r ∈ [RunState.configured, .running, .draining],
    let bytes : List Byte := [kind, 0, 0, 0, 0, 0, 0, 0, 0x81]
    let s := commandPart r bytes
    s.inReset = false ∧ s.cmd.execution = some { slot := 3, phase := .ready bytes } ∧ s.cmd.runState ≠ .transparent ∧
      (∀ k : LaneId, s.lanes[k].runState = s.cmd.runState) ∧ s.shift.runState = s.cmd.runState ∧
      s.path.runState = s.cmd.runState ∧ s.cmd.shadow = some testShadow ∧ byteAt bytes 0 = kind.toNat ∧
      byteAt bytes 8 / 2 ^ 7 % 2 = 1 ∧
      byteAt bytes 8 / 2 ^ 1 % 2 = 0 := by decide +kernel

/-- MANUAL_CUT slots at Cf, just below and at h + min_trim, past the frontier, and without room, in that order. -/
theorem witness_ManualCut : ∀ x ∈ [(1000, 0, 0), (200999, 0, 1), (201000, 0, 2), (900001, 0, 3), (201000, 32, 4)],
    let bytes : List Byte := [8, 0, 0, 0, 0, 0, 0, 0, 0, 0, 0, 0, 0, 0, 0, 0] ++ le 8 x.1
    let t := commandPart .running bytes
    let s := { t with planner := { plannerAt 1000 [] (List.replicate x.2.1 (cut 0 false)) false with
      cf := some 1000, frontier := 900000 } }
    s.inReset = false ∧ s.cmd.execution = some { slot := 3, phase := .ready bytes } ∧ byteAt bytes 0 = 8 ∧
      s.cmd.runState = .running ∧ s.cmd.shadow = some testShadow ∧
      s.planner.openPiece = some { head := 1000, sizes := testPlan } ∧ s.cmd.plan.activate.inUse = some testPlan ∧
      s.planner.nextPiece < 4294967295 ∧
      x.2.2 = (if s.planner.cf.any (fun cf => decide ((field bytes 0x10 8 : Int) ≤ cf)) then 0
        else if field bytes 0x10 8 < 1000 + testShadow.minTrim then 1
        else if s.planner.frontier < field bytes 0x10 8 then 3
        else if s.planner.overdue = true ∨ 32 < s.planner.cuts.length + 1 ∨ 40 < s.planner.pieces.length + 2 then 4
        else 2) := by decide +kernel

/-! ## Witnesses: Path Unit -/

/-- A read of n beats. -/
def readOf (source : SourceId) (addr : BusAddr) (n : Nat) : Request :=
  { source := source, addr := addr, beats := n, enables := List.replicate (8 * n) true, data := [] }

/-- A write of n beats, every byte 1. -/
def writeOf (source : SourceId) (addr : BusAddr) (n : Nat) : Request :=
  { source := source, addr := addr, beats := n, enables := List.replicate (8 * n) true, data := List.replicate (8 * n) 1 }

/-- A part whose Fault Log ring is 512 bytes, so that a plain class begins within its last page. -/
def pathPart (r : RunState) (queue : List PassEntry) : State :=
  let s := configuredPart r
  let m := testShadow.regionMap
  { s with path := { s.path with queue := queue, map := some { m with logs := m.logs.set 3 (0x30030000, 512) } } }

/-- An entry of the pass-through queue. -/
def passEntry (id : Nat) (kind : ReqKind) (q : Request) (region : Region) (mark : Mark) (viewAt : Nat) : PassEntry :=
  { id := id, kind := kind, req := q, region := region, mark := mark, viewAt := viewAt, held := false }

/-- A write to plain memory that waits in the queue. -/
def plainEntry (id : Nat) : PassEntry := passEntry id .write (writeOf 8 0x60000000 1) .plain .forwarded 0

theorem witness_Requests_forms :
    (readOf 8 0x60000004 1).readFormed = false ∧ (readOf 8 0x60000000 16).readFormed = true ∧
      (writeOf 8 0x60000000 17).writeFormed = false ∧ (writeOf 8 0x60000FF8 1).writeFormed = true ∧
      State.reset.inReset = true ∧ 32 ≤ (pathPart .running (List.replicate 32 (plainEntry 0))).path.queue.length := by
  decide +kernel

/-- Reads of plain memory, across two classes, of a take and a peek window with and without the right, and of the spare
part of the aperture; with 31 entries in the queue. -/
theorem witness_Reads : ∀ x ∈ [(readOf 0 0x60000000 16, Region.plain, Region.plain),
      (readOf 8 0x300301F8 2, .log, .plain), (readOf 8 0x40000000 8, .view .flaw .take, .view .flaw .take),
      (readOf 8 0x40001000 8, .view .flaw .peek, .view .flaw .peek), (readOf 0 0x40000000 8, .view .flaw .take, .view .flaw .take),
      (readOf 8 0x40008000 1, .viewSpare, .viewSpare)],
    let s := pathPart .running (List.replicate 31 (plainEntry 0))
    let q := x.1
    q.readFormed = true ∧ s.inReset = false ∧ s.path.queue.length < 32 ∧ s.path.region q.addr.toNat = x.2.1 ∧
      s.path.region q.lastByte = x.2.2 := by decide +kernel

theorem witness_Reads_window :
    let s := pathPart .running []
    (s.path.map.isSome = true ∧ (s.path.entry 8).rights.viewRead = true ∧ (s.path.entry 0).rights.viewRead = false) ∧
      s.path.map.all (fun m => (windowAt m 0x1000).isSome) = true := by decide +kernel

/-- Writes of every class, the classes of their first bytes, and whether they wait for a verdict. -/
theorem witness_Writes : ∀ x ∈ [(writeOf 8 0x60000000 1, Region.plain, false), (writeOf 0 0x60000000 1, .plain, false),
      (writeOf 0 0x20000000 8, .landing 0, false), (writeOf 1 0x20000000 8, .landing 0, false),
      (writeOf 8 0x0 1, .anchorConfig, false), (writeOf 9 0x0 1, .anchorConfig, false),
      (writeOf 8 0x12F8 1, .anchorConfig, true), (writeOf 8 0x4400 1, .anchorCommand, true),
      (writeOf 8 0x4000 8, .anchorCommand, false), (writeOf 9 0x4000 1, .anchorCommand, false),
      (writeOf 8 0x8000 1, .anchorOwned, false), (writeOf 8 0x30000000 1, .log, false),
      (writeOf 8 0x40000000 1, .view .flaw .take, false), (writeOf 8 0x40008000 1, .viewSpare, false)],
    let s := pathPart .running []
    let q := x.1
    q.writeFormed = true ∧ s.inReset = false ∧ s.path.queue.length < 32 ∧ s.path.region q.addr.toNat = x.2.1 ∧
      x.2.2 = (q.touches (s.path.anchorBase + 0x4400) 4 || (seqGroup s.path.anchorBase q).isSome) := by decide +kernel

/-- A request alone of its source: refused reads and a refused write, and a read of the spare aperture. -/
theorem witness_AnsweredAlone : ∀ x ∈ [(readOf 0 0x40000000 8, true), (readOf 8 0x40008000 1, true),
      (writeOf 0 0x60000000 1, false)],
    let s := pathPart .running [plainEntry 3]
    let q := { x.1 with source := if x.1.source = 8 then 15 else x.1.source }
    (if x.2 then q.readFormed = true else q.writeFormed = true) ∧ s.inReset = false ∧ s.path.queue.length < 32 ∧
      (∀ e ∈ s.path.queue, e.req.source ≠ q.source) ∧ ∀ y ∈ s.path.slots, y.source = q.source → y.response ≠ none := by
  decide +kernel

/-- A refused read that leaves the queue, with no response of its source outstanding, and with an older one at memory. -/
theorem witness_SettledInto : ∀ older ∈ [([] : List ResponseSlot), [{ id := 2, source := 9, response := none }]],
    let e := passEntry 7 .read (readOf 9 0x40000000 8) (.view .flaw .take) .refused 0
    let s := pathPart .running [plainEntry 3, e]
    let p : Path := { s.path with slots := older ++ [{ id := 7, source := 9, response := none }] }
    p.queue[1]? = some e ∧ leavesAlone p.queue 1 = true ∧ (∀ x ∈ p.queue, x.id = e.id → x = e) ∧
      p.slots = older ++ { id := e.id, source := e.req.source, response := none } :: [] ∧
      ((∀ x ∈ older, x.source = e.req.source → x.response ≠ none) ∨
        ∃ x ∈ older, x.source = e.req.source ∧ x.response = none ∧ ∀ y ∈ p.queue, y.id ≠ x.id) := by decide +kernel

/-- A read and a write held off, with room for one entry; and with none. -/
theorem witness_TakeHeld :
    (let s := pathPart .running (List.replicate 31 (plainEntry 0))
     s.inReset = false ∧ s.path.queue.length < 32 ∧ (readOf 8 0x60000000 1).readFormed = true ∧
       (writeOf 8 0x60000000 1).writeFormed = true) ∧
    32 ≤ (pathPart .running (List.replicate 32 (plainEntry 0))).path.queue.length := by decide +kernel

/-- A part with a write awaiting its verdict and the verdict request on its way. -/
def verdictPart (q : Request) : State :=
  { running with
    path := { running.path with queue := [passEntry 0 .write q .anchorCommand .awaiting 0] }
    wires := { Wires.quiet with verdictAsks := [{ id := 0, req := q }] } }

/-- Posts of 16 commands and of 17. -/
theorem witness_PostVerdict : ∀ n ∈ [16, 17],
    let q := { writeOf 8 0x4400 1 with data := le 8 n }
    let s := verdictPart q
    s.inReset = false ∧ s.wires.verdictAsks = { id := 0, req := q } :: [] ∧ seqGroup s.path.anchorBase q = none ∧
      (decide ((q.overlayWord (s.path.anchorBase + 0x4400) s.cmd.post - s.cmd.completion).toNat ≤ 16) = decide (n = 16)) := by
  decide +kernel

/-- A write of the sequence word of a group whose pending copy is all zeros: valid for GRADE, not for DETECT. -/
theorem witness_GroupVerdict : ∀ x ∈ [(GroupId.grade, (0x12F8 : BusAddr), true), (.detect, 0x10F8, false)],
    let q := writeOf 8 x.2.1 1
    let s := verdictPart q
    s.inReset = false ∧ s.wires.verdictAsks = { id := 0, req := q } :: [] ∧
      seqGroup s.path.anchorBase q = some x.1 ∧ (s.pendingImage x.1 q).isSome = true ∧
      (s.pendingImage x.1 q).map (s.cmd.groupValid x.1) = some x.2.2 := by decide +kernel

/-- A write of the CLOCK group's sequence word with a valid pending copy: shift starts at 6:00 every day. -/
theorem witness_ClockVerdict :
    let image : List Byte := [0, 1, 0, 0, 6, 0, 127] ++ zeros 249
    let q := writeOf 8 0x14F8 1
    let s := { verdictPart q with cmd := { running.cmd with mirror := Vector.replicate 5 (some { image := image }) } }
    s.inReset = false ∧ s.wires.verdictAsks = { id := 0, req := q } :: [] ∧
      seqGroup s.path.anchorBase q = some .clock ∧ (s.pendingImage .clock q).isSome = true ∧
      (s.pendingImage .clock q).map (s.cmd.groupValid .clock) = some true := by decide +kernel

/-- The verdicts at the Path Unit. -/
theorem witness_Verdict : ∀ v ∈ [Verdict.accept, .postOverrun, .groupInvalid],
    let e := passEntry 5 .write (writeOf 8 0x4400 1) .anchorCommand .awaiting 0
    let s := { running with
      path := { running.path with queue := [plainEntry 4, e] }
      wires := { Wires.quiet with verdicts := [{ id := 5, verdict := v }] } }
    s.inReset = false ∧ s.wires.verdicts = { id := 5, verdict := v } :: [] ∧ e ∈ s.path.queue ∧ e.mark = .awaiting ∧
      (∀ x ∈ s.path.queue, x.id = 5 → x = e) ∧ s.path.heldOff = [] := by decide +kernel

/-- A rewrite of the Fault Log's position 2. -/
def rewriteTxn : Txn := Txn.full (.rewrite 7 2) 0x30030040 (zeros 32)

/-- An announcement whose rewrite stands in the internal queue, with a read that meets it, and one whose rewrite has left. -/
theorem witness_Announcement : ∀ queued ∈ [true, false],
    let r : PendingRewrite := { id := 7, position := 2 }
    let e := passEntry 1 .read (readOf 8 0x40003040 4) (.view .fault .peek) (.translated 0x30030040) 64
    let s := { running with
      path := { running.path with queue := [e], internal := if queued then [rewriteTxn] else [] }
      wires := { Wires.quiet with announcements := [r] } }
    s.inReset = false ∧ s.wires.announcements = r :: [] ∧
      (if queued then ∃ t ∈ s.path.internal, t.tag = .rewrite 7 2 else s.path.internal = []) ∧
      r.position * 32 < e.viewAt + e.req.span ∧ e.viewAt < (r.position + 1) * 32 := by decide +kernel

theorem witness_SeenWord :
    let m : SeenWrite := { enables := [true, false, true, false], data := [1, 2, 3, 4] }
    let s := withWires { Wires.quiet with seenWrites := [m] } running
    s.inReset = false ∧ s.wires.seenWrites = m :: [] ∧ m.enables.length = 4 ∧ m.data.length = 4 := by decide +kernel

/-- The M-port with both queues ready at each turn, with one, and with none; a read of the same source held behind a write
that waits is no ready entry. -/
theorem witness_MPort :
    let e := plainEntry 1
    let part := fun (q : List PassEntry) (i : List Txn) (m : Turn) =>
      { running with path := { running.path with queue := q, internal := i, marker := m } }
    (part [e] [rewriteTxn] .internal).inReset = false ∧ readyEntry [] [e] = some (e, []) ∧
      (part [e] [rewriteTxn] .internal).path.marker = .internal ∧ (part [e] [rewriteTxn] .pass).path.marker = .pass ∧
      (part [] [] .pass).path.internal = [] ∧ readyEntry [] [] = none ∧
      readyEntry [] [{ e with mark := .awaiting }, e] = none := by decide +kernel

/-- A pass-through entry at its turn: a landing write, writes of the post and seen words, of a group's fields and its
sequence word, a take read of a whole entry, with a request held off. -/
theorem witness_PassSend : ∀ e ∈ [passEntry 1 .write (writeOf 0 0x20000000 8) (.landing 0) .forwarded 0,
      passEntry 1 .write (writeOf 8 0x4400 2) .anchorCommand .forwarded 0,
      passEntry 1 .write (writeOf 8 0x1000 2) .anchorConfig .forwarded 0,
      passEntry 1 .write (writeOf 8 0x10F8 1) .anchorConfig .forwarded 0,
      passEntry 1 .read (readOf 8 0x40000000 8) (.view .flaw .take) (.translated 0x30000000) 0],
    ∀ x ∈ [(([] : List Txn), Turn.pass), ([rewriteTxn], .internal)],
    let p := pathPart .running [e]
    let s := { p with path := { p.path with
      internal := x.1, marker := x.2, heldOff := [⟨.read, readOf 8 0x60000000 1⟩] } }
    s.inReset = false ∧ readyEntry [] s.path.queue = some (e, []) ∧ (s.path.internal = [] ∨ s.path.marker = .internal) := by
  decide +kernel

/-- The internal queue's turn: its head an entry's sequence word, a completion word, a read, and a rewrite that holds a read
back, with a transaction waiting and the pass-through queue empty, waiting or passed over. -/
theorem witness_InternalSend : ∀ x ∈ [Txn.full (.entrySeq .flaw 0) 0x3000007C (zeros 4),
      Txn.full (.completionWord 1) 0x8000 (zeros 8), rewriteTxn],
    ∀ q ∈ [([] : List PassEntry), [plainEntry 1],
      [{ passEntry 1 .read (readOf 8 0x40003040 4) (.view .fault .peek) (.translated 0x30030040) 64 with held := true }]],
    let s := { running with
      path := { running.path with
        queue := q, internal := x :: List.replicate 15 rewriteTxn, marker := .pass
        rewrites := [{ id := 7, position := 2 }] }
      writer := { running.writer with waiting := [rewriteTxn] } }
    s.inReset = false ∧ s.path.internal = x :: List.replicate 15 rewriteTxn ∧
      (readyEntry [] s.path.queue = none ∨ s.path.marker = .pass) := by decide +kernel

theorem witness_InternalSend_attn : attnPart.inReset = false ∧ attnPart.path.internal ≠ [] ∧
    readyEntry [] attnPart.path.queue = none ∧ attnPart.attnRight := ⟨rfl, by decide, rfl, witness_invariants_attn.1⟩

theorem witness_WriteBytes : Memory.wf [(3, 9), (7, 1)] = true ∧ [true, false].length = ([5, 6] : List Byte).length := by
  decide +kernel

/-- A part whose oldest transaction at memory is m. -/
def memoryPart (m : MemTxn) (phase : ExecPhase) (slots : List ResponseSlot) : State :=
  { running with
    path := { running.path with atMemory := [m], slots := slots }
    cmd := { running.cmd with execution := some { slot := 3, phase := phase } } }

theorem witness_MemoryAnswer :
    (let m : MemTxn := { dest := .slotRead, data := zeros 64 }
     let s := memoryPart m .readingSlot []
     s.inReset = false ∧ s.path.atMemory = m :: [] ∧ s.cmd.execution = some { slot := 3, phase := .readingSlot }) ∧
    (let m : MemTxn := { dest := .areaRead, data := zeros 128 }
     let s := memoryPart m (.readingArea [1]) []
     s.inReset = false ∧ s.path.atMemory = m :: [] ∧ s.cmd.execution = some { slot := 3, phase := .readingArea [1] }) ∧
    (let m : MemTxn := { dest := .writer, data := [] }
     let s := memoryPart m .readingSlot []
     s.inReset = false ∧ s.path.atMemory = m :: []) ∧
    (∀ k ∈ [(8 : SourceId), 9],
     let m : MemTxn := { dest := .source 6, data := [1] }
     let older : ResponseSlot := { id := 5, source := k, response := none }
     let s := memoryPart m .readingSlot [older, { id := 6, source := 8, response := none }]
     s.inReset = false ∧ s.path.atMemory = m :: [] ∧
       s.path.slots = [older] ++ { id := 6, source := 8, response := none } :: [] ∧
       (∀ x ∈ [older] ++ [], x.id ≠ 6) ∧
       ((∀ x ∈ [older], x.source = 8 → x.response ≠ none) ∨ ∃ x ∈ [older], x.source = 8 ∧ x.response = none)) := by
  decide +kernel

/-! ## Well-formedness: an ill-formed request for each check of R143 -/

/-- A well-formed read of 16 beats. -/
theorem test_formed : Instr.wellFormed (.busRead (readOf 8 0x1000 16)) = true := by decide +kernel

theorem test_ill_no_beats : Instr.wellFormed (.busRead (readOf 8 0x1000 0)) = false := by decide +kernel

theorem test_ill_seventeen_beats : Instr.wellFormed (.busWrite (writeOf 8 0x1000 17)) = false := by decide +kernel

theorem test_ill_address : Instr.wellFormed (.takeViewRead (readOf 8 0x1004 1)) = false := by decide +kernel

theorem test_ill_crossing : Instr.wellFormed (.postWordWrite (writeOf 8 0x1FF8 2)) = false := by decide +kernel

theorem test_ill_enables : Instr.wellFormed (.peekViewRead { readOf 8 0x1000 2 with enables := [true] }) = false := by
  decide +kernel

theorem test_ill_read_data : Instr.wellFormed (.busRead { readOf 8 0x1000 1 with data := [1] }) = false := by decide +kernel

theorem test_ill_write_data : Instr.wellFormed (.sequenceWordWrite { writeOf 8 0x1000 1 with data := [1] }) = false := by
  decide +kernel

/-! ## Tests: values worked out by hand from the rules named -/

/-- The state after a command; every command of the part answers a next state. -/
def after (c : Instr) (s : State) : State :=
  match exec c s with
  | .next t => t
  | .fault _ | .refused _ => s

/-- No row of the table gives bits, so no word spells a command. -/
theorem test_no_word : decodeTableWord 16 0x1234 = none := rfl

/-- RESET_END with straps 3: the anchor base is 3 × 128 MiB (R146), and the first page carries sequence 1 (R176). -/
theorem test_reset_end :
    (after (.resetEnd 3 true false) State.reset).path.anchorBase = 402653184 ∧
      (after (.resetEnd 3 true false) State.reset).writer.pageSeq = 1 := by decide +kernel

/-- One forward count of 10 µm takes the ribbon from 95 to 105 µm, past the trigger point of line 1 (R5, R7, R8). -/
theorem test_forward_count :
    (after (.encoderEdge true false) nearTrigger).travel.pos = 105 ∧
      (after (.encoderEdge true false) nearTrigger).travel.count = 1 ∧
      (after (.encoderEdge true false) nearTrigger).travel.nextPoint = some 200 ∧
      (after (.encoderEdge true false) nearTrigger).wires.plannerRises.map (·.msg) = [{ p0 := 95, p1 := 105 }] := by
  decide +kernel

/-- From 00 to 11 both levels change: an illegal transition that counts 0 (R3). -/
theorem test_illegal_transition :
    (after (.encoderEdge true true) nearTrigger).travel.quadErrors = 1 ∧
      (after (.encoderEdge true true) nearTrigger).travel.acc = 95 * 65536 := by decide +kernel

/-- The years divisible by 4 have a 29th of February (R129). -/
theorem test_leap_day : (dateTime 2024 2 28 3 23 59 59).advance = dateTime 2024 2 29 4 0 0 0 := by decide

/-- The calendar returns to 2000 after 2099, and the weekday goes on (R129). -/
theorem test_calendar_end : (dateTime 2099 12 31 4 23 59 59).advance = dateTime 2000 1 1 5 0 0 0 := by decide

/-- A stamp counts seconds from 2000-01-01: one leap year of 366 days is 31,622,400 (R174). -/
theorem test_stamp : (dateTime 2001 1 1 1 0 0 0).stamp = 31622400 := by decide

/-- Second 0 of a minute lasts 32,768 + trim periods (R130): with trim −2 it ends at 32,766. -/
theorem test_trimmed_second :
    (after .tb32kPeriod { running with shift := { running.shift with trim := -2, sub := 32765 } }).shift.calendar.second = 1 := by
  decide +kernel

/-- A unit tick at the 32nd period (R11). -/
theorem test_unit_tick :
    (after .tb32kPeriod { running with travel := { running.travel with divider := 31 } }).wires.unitTicks = 1 := by
  decide +kernel

/-- A lane in WAITING that completes its first line goes to LOCKING, seeded, with lock counter 1 (R25). -/
theorem test_first_line :
    let t := after (.landingWrite 0) (landingPart .waiting (some (lineOne 960)) (landing (0x20000400 + 960) 64))
    t.lanes[(0 : LaneId)].state = .locking ∧ t.lanes[(0 : LaneId)].lock = 1 ∧ t.lanes[(0 : LaneId)].seeded = true ∧
      t.engine.ready.map (·.mode) = [.seed] := by decide +kernel

/-- A pixel of 120 over a background of 20 is flagged and holds its background; its neighbours follow theirs (R46 to
R51). -/
theorem test_flagged_column :
    let t := after .analysisCompletion (enginePart (some (inAnalysis .lock)) [] 0)
    t.engine.lanes[(0 : LaneId)].background = [5120, 5120, 5120] ∧ t.engine.lanes[(0 : LaneId)].hold = [0, 1, 0] := by
  decide +kernel

/-- LOCK line 1 of lane 0 settles as a gap line with cause LOCKING (R33). -/
theorem test_lock_line_settles :
    let s := enginePart (some (inAnalysis .lock)) [] 0
    let t := after .analysisCompletion { s with lanes := lanesWith { s.lanes[(0 : LaneId)] with accounted := 1 } }
    (t.wires.laneMsgs[(0 : LaneId)]).map (·.msg) = [.gap 1, .settled 1] ∧
      t.wires.increments = [(.lane 0, .gapLine .locking)] := by decide +kernel

/-- Four times as long as wide is a streak, four times as wide as long a band (R71). -/
theorem test_classes : classOf 500 4000 1000 = .streak ∧ classOf 500 1000 4000 = .band ∧
    classOf 500 3999 1000 = .area ∧ classOf 500 500 500 = .point := by decide +kernel

/-- A flaw at 4 m under sizes of 6 and 3 m: a cut at 3 m and the trim end at the flaw's end and the margin (R92). -/
theorem test_planning :
    (after .heldFlaw (plannerPart (plannerAt 0 [] [] false) (.heldFlaw (heldFlaw 1 4000000 4000300 .major)))).planner.cuts.map
      (·.pos) = [3000000, 4010300] := by decide +kernel

/-- The commitment front lies D_cut − D_commit = 9 m behind the ribbon's position (R86). -/
theorem test_commitment :
    (after .plannerRise { running with
      planner := plannerAt 500000 [] [cut 500000 false] false
      wires := { Wires.quiet with plannerRises := [now { p0 := 0, p1 := 9500000 }] } }).planner.cuts =
        [cut 500000 true] := by decide +kernel

/-- A rise to 15 m brings Cf to 6 m, the candidate tail: the piece becomes OVERLENGTH at Cf + 1 (R89). -/
theorem test_overlength :
    (after .plannerRise (dueRisePart [] [])).planner.pieces.map (fun q => (q.kind, q.tail)) = [(.overlength, 6000001)] := by
  decide +kernel

/-- A rise that reaches c + D_cut claims the cut (R104). -/
theorem test_claim :
    (after .strikeRise (risePart .running { p0 := 10499999, p1 := 10500000 } none)).strike.claiming = some 500000 ∧
      (after .strikeRise (risePart .running { p0 := 0, p1 := 10499999 } none)).strike.claiming = none := by decide +kernel

/-- A grade C piece of [0, 6 m) is diverted from 17 to 23 m: D_cut and D_gate past its head and tail (R109). -/
theorem test_gate_window :
    (after .gradeAnswer (withWires { Wires.quiet with gradeAnswers := [now (answer (.size 0) .c)] } running)).strike.gates =
      [{ start := 17000000, stop := 23000000, arrived := false }] := by decide +kernel

/-- 6,000,000 × 3,210,000 / 10^10 is 1,926 dm², and the length 6,000 mm (R118). -/
theorem test_length_area : plate.length = 6000 ∧ plate.area = 1926 := by decide +kernel

/-- A REJECT flaw makes grade C (R119). -/
theorem test_grade_reject :
    (plateRecordOf 1 0 3210000 testGrade (handoff (.size 0) (some 0) 6000000)
      { entries := [heldFlaw 1 0 9 .reject], overlap := 0, overflow := false }).grade = .c := by decide +kernel

/-- A boundary opens the next shift (R135). -/
theorem test_close_shift : (after .closeShift (kindPart .running 9)).shift.number = 1 := by decide +kernel

/-- The worked example of 11.7: 128 bytes of the take window at 9 × 128 cover entry 9 alone, and with producer 10 and
consumer 9 its release makes the consumer 10. -/
theorem test_take_example :
    coveredPositions .plate (9 * 128) 128 = [9] ∧
      (after .releaseRequest { running with
        writer := { running.writer with logs := #v[freshLog 0,
          { fields := some { base := 0, entries := 64, notify := 1 }, producer := 10, consumer := 9, written := 10,
            nextSeq := 11, refused := false, gen := 0 }, freshLog 2, freshLog 3] }
        wires := { Wires.quiet with releases := [{ log := .plate, positions := [9] }] } }).writer.logs[(1 : Fin 4)].consumer =
          10 := by decide +kernel

/-- Seventeen commands above the completion count overrun the ring of sixteen (R151). -/
theorem test_post_overrun :
    (after .verdictRequest (verdictPart { writeOf 8 0x4400 1 with data := le 8 17 })).wires.verdicts =
        [{ id := 0, verdict := .postOverrun }] ∧
      (after .verdictRequest (verdictPart { writeOf 8 0x4400 1 with data := le 8 16 })).wires.verdicts =
        [{ id := 0, verdict := .accept }] := by decide +kernel

/-- A camera's write outside its ring is refused with REGION (R148). -/
theorem test_refused_write :
    (after (.busWrite (writeOf 0 0x60000000 1)) running).path.refused = 1 ∧
      (after (.busWrite (writeOf 0 0x60000000 1)) running).wires.faults.map (·.2.kind) = [.region] := by decide +kernel

/-- A write keeps the bytes it does not enable (R143). -/
theorem test_write_enables : writeBytes [(4, 9), (5, 9)] 4 [true, false] [0, 1] = [(5, 9)] := by decide +kernel

/-- A slot whose kind byte is 0 holds no command (R160). -/
theorem test_bad_command :
    (after .badCommand (kindPart .running 0)).cmd.execution = some { slot := 3, phase := .finished (some .badCommand) } := by
  decide +kernel

/-- A part that has read the whole of the test configuration, and one that has read zeros: both lengths are the area's. -/
theorem witness_ConfigureArea : (areaPart testArea).inReset = false ∧
    (areaPart testArea).cmd.execution = some { slot := 3, phase := .readingArea testArea } ∧ testArea.length = 0x1500 ∧
    (areaPart testArea).path.anchorBase = 0 ∧ (layout 0x1500 0 []).length = 0x1500 :=
  ⟨rfl, rfl, testArea_length, rfl, zeroArea_length⟩

/-- The Plate, Shift and Fault Logs under another entry count, with refused marks set, and under the same one: restarted by the
test configuration, and kept. -/
theorem witness_ConfigureRestarts : ∀ more ∈ [0, 16], ∀ l ∈ [LogId.plate, .shift, .fault],
    let f := testShadow.logs[l.idx]
    let g : LogState := { LogState.powerOn with fields := some { f with entries := f.entries + more }, refused := true }
    let s := { areaPart [] with writer := { running.writer with logs := running.writer.logs.set l.idx g } }
    s.inReset = false ∧ s.writer.logs[l.idx].refused = true ∧
      s.writer.logs[l.idx].restartedBy f = decide (more = 16) := by decide +kernel

/-- The configuration of the tests passes every check, and one of zeros fails the first (R163). -/
theorem test_configure :
    (parseArea testArea).refusal 0 = none ∧ (parseArea (layout 0x1500 0 [])).refusal 0 = some .travel :=
  ⟨witness_ConfigureAccepts, witness_ConfigureRefuses⟩

end Sys2Proof.Tests
end

section
/-! The Travel Unit's position and triggers (chapter 1). -/

namespace Sys2Proof.Machine

/-! ### What the position and the triggers rest on -/

/-- `State.positionRight`, said of the Travel Unit alone (R5, R6, R9). -/
def Travel.PositionRight (t : Travel) : Prop :=
  t.acc ≤ t.high ∧ -(2 ^ 48 * 65536) ≤ t.acc ∧
    ∀ f, t.fields = some f → t.high ≤ (2 ^ 32 * f.pitch - 1) * 65536 ∧
      (t.positionLimit = true → t.high = (2 ^ 32 * f.pitch - 1) * 65536)

theorem State.positionRight_iff (s : State) : s.positionRight ↔ s.travel.PositionRight := Iff.rfl

/-- `State.triggersRight`, said of the Travel Unit alone (R7). -/
def Travel.TriggersRight (t : Travel) : Prop :=
  ∀ f n, t.fields = some f → t.nextPoint = some n → 1 ≤ f.pitch → f.scale ≤ f.pitch * 65536 →
    t.count * f.pitch ≤ t.pos ∧ t.pos < (t.count + 1) * f.pitch ∧ n = (t.count + 1) * f.pitch

theorem State.triggersRight_iff (s : State) : s.triggersRight ↔ s.travel.TriggersRight := Iff.rfl

/-- Two states of the Travel Unit with the same position, travel fields and trigger count. -/
structure Travel.SameRibbon (t u : Travel) : Prop where
  fields : u.fields = t.fields
  acc : u.acc = t.acc
  high : u.high = t.high
  count : u.count = t.count
  nextPoint : u.nextPoint = t.nextPoint
  positionLimit : u.positionLimit = t.positionLimit

/-- A Travel Unit after a reset: the position, the trigger count and POSITION_LIMIT cleared, and a next trigger point, if
one is held, at L_p (R16, R17). -/
structure Travel.Restarted (u : Travel) : Prop where
  acc : u.acc = 0
  high : u.high = 0
  count : u.count = 0
  positionLimit : u.positionLimit = false
  nextPoint : ∀ f n, u.fields = some f → u.nextPoint = some n → n = f.pitch

namespace Travel

variable {t u : Travel}

theorem SameRibbon.refl (t : Travel) : t.SameRibbon t := ⟨rfl, rfl, rfl, rfl, rfl, rfl⟩

theorem SameRibbon.of_eq (h : u = t) : t.SameRibbon u := h ▸ .refl t

theorem SameRibbon.pos (h : t.SameRibbon u) : u.pos = t.pos := by rw [Travel.pos, h.high, Travel.pos]

theorem SameRibbon.positionRight (h : t.SameRibbon u) (ht : t.PositionRight) : u.PositionRight := by
  simpa only [PositionRight, h.fields, h.acc, h.high, h.positionLimit] using ht

theorem SameRibbon.triggersRight (h : t.SameRibbon u) (ht : t.TriggersRight) : u.TriggersRight := by
  simpa only [TriggersRight, h.fields, h.count, h.nextPoint, h.pos] using ht

theorem Restarted.positionRight (h : u.Restarted) : u.PositionRight := by
  refine ⟨by rw [h.acc, h.high]; decide, by rw [h.acc]; decide, fun f _ => ⟨by rw [h.high]; exact Nat.zero_le _, ?_⟩⟩
  rw [h.positionLimit]
  exact fun hl => absurd hl Bool.false_ne_true

theorem Restarted.triggersRight (h : u.Restarted) : u.TriggersRight := by
  intro f n hf hn hp _
  have hpos : u.pos = 0 := by rw [Travel.pos, h.high]
  rw [hpos, h.count, h.nextPoint f n hf hn]
  omega

theorem powerOn_restarted : powerOn.Restarted := ⟨rfl, rfl, rfl, rfl, fun _ _ hf => nomatch hf⟩

theorem warmReset_restarted (t : Travel) : t.warmReset.Restarted := ⟨rfl, rfl, rfl, rfl, fun _ _ hf => nomatch hf⟩

theorem runReset_restarted (t : Travel) : t.runReset.Restarted := ⟨rfl, rfl, rfl, rfl, fun _ _ _ hn => nomatch hn⟩

/-- Entry to RUNNING puts the next trigger point at L_p of the fields that come into use (R17). -/
theorem Restarted.enter (h : u.Restarted) (f : TravelFields) : (u.enter f).Restarted :=
  ⟨h.acc, h.high, h.count, h.positionLimit, by rintro _ _ ⟨⟩ ⟨⟩; rfl⟩

/-! ### Counts -/

@[simp] theorem restart_sameRibbon (t : Travel) : t.SameRibbon t.restart := ⟨rfl, rfl, rfl, rfl, rfl, rfl⟩

/-- A line trigger changes the trigger count, the next trigger point and the pulses alone. -/
theorem trigger_frame (t : Travel) (f : TravelFields) :
    t.trigger f = { t with
      count := (t.trigger f).count, nextPoint := (t.trigger f).nextPoint, pulses := (t.trigger f).pulses } := by
  unfold trigger
  split
  · rfl
  · split <;> rfl

/-- A forward count changes A, H and POSITION_LIMIT alone. -/
theorem forward_frame (t : Travel) (f : TravelFields) :
    t.forward f = { t with
      acc := (t.forward f).acc, high := (t.forward f).high, positionLimit := (t.forward f).positionLimit } := by
  unfold forward
  dsimp only
  split
  · rfl
  · split <;> rfl

/-- The three cases of a forward count: held at the high-water mark, held at the position limit, or free (R5, R6, R9). -/
theorem forward_cases (t : Travel) (f : TravelFields) :
    (t.positionLimit = true ∧ (t.forward f).acc = min (t.acc + f.scale) t.high ∧ (t.forward f).high = t.high ∧
      (t.forward f).positionLimit = true) ∨
    (t.positionLimit = false ∧ ((lastPosition f * 65536 : Nat) : Int) ≤ t.acc + f.scale ∧
      (t.forward f).acc = (lastPosition f * 65536 : Nat) ∧ (t.forward f).high = lastPosition f * 65536 ∧
      (t.forward f).positionLimit = true) ∨
    (t.positionLimit = false ∧ t.acc + f.scale < ((lastPosition f * 65536 : Nat) : Int) ∧
      (t.forward f).acc = t.acc + f.scale ∧ ((t.forward f).high : Int) = max (t.high : Int) (t.acc + f.scale) ∧
      (t.forward f).positionLimit = false) := by
  unfold forward
  dsimp only
  by_cases hl : t.positionLimit = true
  · rw [if_pos hl]
    refine .inl ⟨hl, ?_, rfl, hl⟩
    dsimp only
    split <;> omega
  · have hl' : t.positionLimit = false := Bool.eq_false_iff.mpr hl
    rw [if_neg hl]
    by_cases ha : ((lastPosition f * 65536 : Nat) : Int) ≤ t.acc + f.scale
    · rw [if_pos ha]
      exact .inr (.inl ⟨hl', ha, rfl, rfl, rfl⟩)
    · rw [if_neg ha]
      refine .inr (.inr ⟨hl', by omega, rfl, ?_, hl'⟩)
      dsimp only
      split <;> omega

theorem forward_positionRight (ht : t.PositionRight) {f : TravelFields} (hf : t.fields = some f) :
    (t.forward f).PositionRight := by
  obtain ⟨hacc, hfloor, hlim⟩ := ht
  obtain ⟨hhigh, heq⟩ := hlim f hf
  have hfields : (t.forward f).fields = t.fields := by rw [forward_frame]
  have hpitch : lastPosition f = 2 ^ 32 * f.pitch - 1 := rfl
  rw [PositionRight, hfields, hf]
  rcases t.forward_cases f with ⟨hl, ha, hh, hl'⟩ | ⟨hl, hle, ha, hh, hl'⟩ | ⟨hl, hlt, ha, hh, hl'⟩
  · refine ⟨by omega, by omega, ?_⟩
    rintro _ ⟨⟩
    exact ⟨by omega, fun _ => by rw [hh]; exact heq hl⟩
  · refine ⟨by omega, by omega, ?_⟩
    rintro _ ⟨⟩
    rw [hh, hpitch]
    exact ⟨Nat.le_refl _, fun _ => rfl⟩
  · rw [hpitch] at hlt
    refine ⟨by omega, by omega, ?_⟩
    rintro _ ⟨⟩
    exact ⟨by omega, fun h => absurd (hl'.symm.trans h) Bool.false_ne_true⟩

/-- A forward count never lowers H, and raises it by S at most (R5, R6). -/
theorem forward_high (ht : t.PositionRight) {f : TravelFields} (hf : t.fields = some f) :
    t.high ≤ (t.forward f).high ∧ (t.forward f).high ≤ t.high + f.scale := by
  obtain ⟨hacc, hfloor, hlim⟩ := ht
  have hhigh := (hlim f hf).1
  have hpitch : lastPosition f = 2 ^ 32 * f.pitch - 1 := rfl
  rcases t.forward_cases f with ⟨_, _, hh, _⟩ | ⟨_, hle, _, hh, _⟩ | ⟨_, _, _, hh, _⟩
  · omega
  · rw [hpitch] at hle hh; omega
  · omega

/-- A rise of P by less than one line pitch past n, with the trigger it makes, keeps n × L_p ≤ P < (n + 1) × L_p (R7). -/
theorem trigger_triggersRight {f : TravelFields} (hf : t.fields = some f)
    (h : ∀ n, t.nextPoint = some n → 1 ≤ f.pitch → f.scale ≤ f.pitch * 65536 →
      t.count * f.pitch ≤ t.pos ∧ t.pos < (t.count + 2) * f.pitch ∧ n = (t.count + 1) * f.pitch) :
    (t.trigger f).TriggersRight := by
  intro g m hg hm hp hs
  have hfields : (t.trigger f).fields = t.fields := by rw [trigger_frame]
  have hpos : (t.trigger f).pos = t.pos := by rw [trigger_frame, Travel.pos, Travel.pos]
  obtain rfl : f = g := Option.some.inj (hf.symm.trans (hfields.symm.trans hg))
  rw [hpos]
  unfold trigger at hm ⊢
  split at hm
  · rename_i hn; rw [hn] at hm; cases hm
  · rename_i n hn
    obtain ⟨hlo, hhi, hpt⟩ := h n hn hp hs
    by_cases hle : n ≤ t.pos
    · rw [if_pos hle] at hm ⊢
      obtain rfl : n + f.pitch = m := Option.some.inj hm
      have hdiv : n / f.pitch = t.count + 1 := by rw [hpt]; exact Nat.mul_div_cancel _ hp
      have h2 : (t.count + 1 + 1) * f.pitch = n + f.pitch := by rw [hpt]; ring
      simp only [hdiv]
      exact ⟨hpt ▸ hle, hhi, h2.symm⟩
    · rw [if_neg hle] at hm ⊢
      obtain rfl : n = m := Option.some.inj (hn.symm.trans hm)
      exact ⟨hlo, by omega, hpt⟩

/-- A forward count and its trigger keep the trigger count in step with the position: with S at most one line pitch, P
passes one trigger point at most (R7). -/
theorem forward_trigger_triggersRight (ht : t.PositionRight) (hr : t.TriggersRight) {f : TravelFields}
    (hf : t.fields = some f) : ((t.forward f).restart.trigger f).TriggersRight := by
  have hfields : (t.forward f).fields = t.fields := by rw [forward_frame]
  have hcount : (t.forward f).count = t.count := by rw [forward_frame]
  have hnext : (t.forward f).nextPoint = t.nextPoint := by rw [forward_frame]
  refine trigger_triggersRight (hfields.trans hf) fun n hn hp hs => ?_
  obtain ⟨hlo, hhi, hpt⟩ := hr f n hf (hnext.symm.trans hn) hp hs
  obtain ⟨hup, hby⟩ := forward_high ht hf
  have h2 : (t.count + 2) * f.pitch = (t.count + 1) * f.pitch + f.pitch := by ring
  show (t.forward f).count * f.pitch ≤ (t.forward f).pos ∧ (t.forward f).pos < ((t.forward f).count + 2) * f.pitch ∧
    n = ((t.forward f).count + 1) * f.pitch
  rw [hcount, h2]
  unfold Travel.pos at *
  omega

theorem backward_positionRight (ht : t.PositionRight) (f : TravelFields) : (t.backward f).PositionRight := by
  obtain ⟨hacc, hfloor, hlim⟩ := ht
  refine ⟨?_, ?_, hlim⟩ <;> simp only [backward, accumulatorFloor] <;> omega

/-- What one edge of the counting window does to the Travel Unit: a new reference pair alone with an illegal transition
counted or not, a forward count with its trigger, or a backward count (R2, R3). -/
theorem edge_cases (t : Travel) (a b : Bool) :
    t.SameRibbon (t.edge a b) ∨ ∃ f, t.fields = some f ∧
      (t.edge a b = (({ t with refA := a, refB := b } : Travel).forward f).restart.trigger f ∨
        t.edge a b = (({ t with refA := a, refB := b } : Travel).backward f).restart) := by
  unfold edge
  dsimp only
  split
  · exact .inl ⟨rfl, rfl, rfl, rfl, rfl, rfl⟩
  · rename_i f hf
    split
    · exact .inl ⟨rfl, rfl, rfl, rfl, rfl, rfl⟩
    · exact .inr ⟨f, hf, .inl rfl⟩
    · exact .inr ⟨f, hf, .inr rfl⟩
    · exact .inl ⟨rfl, rfl, rfl, rfl, rfl, rfl⟩

theorem trigger_positionRight (ht : t.PositionRight) (f : TravelFields) : (t.trigger f).PositionRight := by
  rw [trigger_frame]
  exact ht

theorem edge_positionRight (ht : t.PositionRight) (a b : Bool) : (t.edge a b).PositionRight := by
  have ht' : ({ t with refA := a, refB := b } : Travel).PositionRight := ht
  rcases t.edge_cases a b with h | ⟨f, hf, h | h⟩
  · exact h.positionRight ht
  · rw [h]
    exact trigger_positionRight ((restart_sameRibbon _).positionRight (forward_positionRight ht' hf)) f
  · rw [h]
    exact (restart_sameRibbon _).positionRight (backward_positionRight ht' f)

theorem edge_triggersRight (ht : t.PositionRight) (hr : t.TriggersRight) (a b : Bool) : (t.edge a b).TriggersRight := by
  rcases t.edge_cases a b with h | ⟨f, hf, h | h⟩
  · exact h.triggersRight hr
  · rw [h]
    exact forward_trigger_triggersRight (t := { t with refA := a, refB := b }) ht hr hf
  · rw [h]
    exact hr

/-- H never falls at an edge (R6). -/
theorem high_le_edge (ht : t.PositionRight) (a b : Bool) : t.high ≤ (t.edge a b).high := by
  rcases t.edge_cases a b with h | ⟨f, hf, h | h⟩
  · exact h.high.ge
  · rw [h, trigger_frame]
    exact (forward_high (t := { t with refA := a, refB := b }) ht hf).1
  · rw [h]
    exact Nat.le_refl t.high

end Travel
end Sys2Proof.Machine
end

section
/-! What each command does to the Travel Unit. -/

namespace Sys2Proof.Machine

/-- The commands at which the Travel Unit starts afresh: the resets and the run resets (R16). -/
def restartsTravel : Instr → Bool
  | .powerOn | .warmReset | .startRun | .resetRun => true
  | _ => false

/-- The commands the Travel Unit takes part in. -/
def reachesTravel : Instr → Bool
  | .resetEnd _ _ _ | .encoderEdge _ _ | .tb32kPeriod | .unitTick | .stopTimerExpiry | .secondEnd | .travelSecondTick => true
  | c => restartsTravel c

/-- What a command carried out keeps, it keeps in and out of its turn. -/
theorem onCommand_keeps_travel {k : Option CommandKind} {f : List Byte → State → Option Reason × State}
    (hf : ∀ b s, (f b s).2.travel = s.travel) (s : State) : (onCommand k f s).travel = s.travel := by
  rcases onCommand_cases k f s with h | ⟨n, b, _, _, _, h⟩
  · rw [h]
  · rw [h, State.finishCommand_travel, hf]

theorem receiveWith_keeps_travel {α : Type} {kind : α → Bool} {wire : Wires → List (Tagged α)}
    {put : Wires → List (Tagged α) → Wires} {act stale : α → State → State}
    (hact : ∀ m s, (act m s).travel = s.travel) (hstale : ∀ m s, (stale m s).travel = s.travel) (s : State) :
    (receiveWith kind wire put act stale s).travel = s.travel :=
  receiveWith_keeps State.travel (fun _ _ => rfl) hact hstale

theorem receiveIf_keeps_travel {α : Type} {kind : α → Bool} {wire : Wires → List (Tagged α)}
    {put : Wires → List (Tagged α) → Wires} {act : α → State → State}
    (hact : ∀ m s, (act m s).travel = s.travel) (s : State) : (receiveIf kind wire put act s).travel = s.travel :=
  receiveIf_keeps State.travel (fun _ _ => rfl) hact

theorem receivePlainIf_keeps_travel {α : Type} {kind : α → Bool} {wire : Wires → List α}
    {put : Wires → List α → Wires} {act : α → State → State}
    (hact : ∀ m s, (act m s).travel = s.travel) (s : State) : (receivePlainIf kind wire put act s).travel = s.travel :=
  receivePlainIf_keeps State.travel (fun _ _ => rfl) hact

/-- The commands that reach the Travel Unit apart, none changes it (chapter 1). -/
theorem exec_keeps_travel {c : Instr} {s t : State} (hc : reachesTravel c = false) (h : exec c s = .next t) :
    t.travel = s.travel := by
  cases c <;> first
    | exact absurd hc Bool.noConfusion
    | (obtain rfl := Host.Outcome.next.inj h)
  case analysisBegin | join | gradingBegin | commandTake | configure | commandCompletion | mPortSend | memoryAnswer =>
    exact live_keeps State.travel fun _ => by simp
  case writerSecondTick | analysisCompletion | tallyIncrement | fault =>
    exact live_keeps State.travel fun _ => by split <;> simp
  case laneLineTrigger | gapLine | settledLine | scan | mark | gather | heldFlaw | scanAnswer | joinedLine | plannerRise
      | flushEnd | strikeClaim | pieceRemoval | waitingLogMove | runEndCompletion | headOffer | strikeRise | claimWithdrawal
      | gatherAnswer | gradeAnswer | stamp | plateOffer | plateAccepted | plateFull | plateRoom =>
    exact receiveIf_keeps_travel (fun _ _ => by simp) s
  case strikeGrant => exact receiveWith_keeps_travel (fun _ _ => by simp) (fun _ _ => by simp [staleGrant]) s
  case gradingHandoff => exact receiveWith_keeps_travel (fun _ _ => by simp) (fun _ _ => by simp [staleHandoff]) s
  case landingWrite | gradingIncrements | shiftReportOffer | shiftAccepted | shiftFull | shiftRoom | flawRecord
      | releaseRequest | rewriteAnnouncement | seenWordWrite | verdictRequest | verdict =>
    exact receivePlainIf_keeps_travel (fun _ _ => by simp) s
  case stopRun | setClock | closeShift | laneEnable | laneDisable | manualCut | badCommand =>
    exact onCommand_keeps_travel (fun _ _ => by simp) s
  case busRead | busWrite => simp
  case postWordWrite | sequenceWordWrite | takeViewRead | peekViewRead => split <;> simp

/-! ### The commands that reach the Travel Unit -/

theorem encoderEdge_travel (a b : Bool) (s : State) :
    (encoderEdge a b s).travel = s.travel.edge a b ∨ s.travel.SameRibbon (encoderEdge a b s).travel := by
  unfold encoderEdge
  split
  · exact .inl rfl
  · exact .inr ⟨rfl, rfl, rfl, rfl, rfl, rfl⟩

theorem takeUnitTick_sameRibbon (s : State) : s.travel.SameRibbon (takeUnitTick s).travel := by
  have htick : s.travel.SameRibbon s.travel.tick := by
    unfold Travel.tick
    split
    · exact .refl _
    · split <;> exact ⟨rfl, rfl, rfl, rfl, rfl, rfl⟩
  unfold takeUnitTick
  dsimp only
  split
  · exact ⟨htick.fields, htick.acc, htick.high, htick.count, htick.nextPoint, htick.positionLimit⟩
  · split
    · exact htick
    · exact .refl _

theorem travelSecond_sameRibbon (s : State) : s.travel.SameRibbon (travelSecond s).travel := by
  unfold travelSecond
  dsimp only
  split <;> exact ⟨rfl, rfl, rfl, rfl, rfl, rfl⟩

theorem period_sameRibbon (s : State) : s.travel.SameRibbon (period s).travel := by
  have hdivide : s.travel.SameRibbon (dividePeriod s).travel := by
    unfold dividePeriod
    dsimp only
    split
    · exact ⟨rfl, rfl, rfl, rfl, rfl, rfl⟩
    · split <;> exact ⟨rfl, rfl, rfl, rfl, rfl, rfl⟩
  unfold period
  dsimp only
  split
  · rwa [(secondEnd_frame _).2.2.2.1]
  · exact hdivide

theorem State.runReset_travel (s : State) : s.runReset.travel = s.travel.runReset := rfl

theorem State.enterRunning_travel (s : State) (sh : Shadow) : (s.enterRunning sh).travel = s.travel.enter sh.travel := by
  simp [State.enterRunning, State.handRunState, State.stepLanes, State.finishPlan]

/-- START_RUN restarts the Travel Unit or, refused, leaves it (R16, R17). -/
theorem startRun_travel (s : State) : (startRun s).2.travel.Restarted ∨ (startRun s).2.travel = s.travel := by
  unfold startRun
  split
  · rw [State.enterRunning_travel]
    exact .inl (s.travel.runReset_restarted.enter _)
  all_goals exact .inr rfl

/-- RESET_RUN restarts the Travel Unit or, refused, leaves it (R16). -/
theorem resetRun_travel (s : State) : (resetRun s).2.travel.Restarted ∨ (resetRun s).2.travel = s.travel := by
  have hreset (f : State → State) (hf : ∀ u, (f u).travel = u.travel) : (f s.runReset).travel.Restarted := by
    rw [hf]
    exact s.travel.runReset_restarted
  unfold resetRun
  split
  · exact .inr rfl
  · exact .inl (hreset id fun _ => rfl)
  all_goals exact .inl (hreset (fun u => (u.handRunState .configured).writePages (s.activeLanes + 1)) fun u => by
    simp [State.handRunState])

/-- What a command carried out, or not at its turn, does to the Travel Unit. -/
theorem onCommand_travel {k : Option CommandKind} {f : List Byte → State → Option Reason × State}
    (hf : ∀ b s, (f b s).2.travel.Restarted ∨ (f b s).2.travel = s.travel) (s : State) :
    (onCommand k f s).travel.Restarted ∨ (onCommand k f s).travel = s.travel := by
  rcases onCommand_cases k f s with h | ⟨n, b, _, _, _, h⟩
  · rw [h]; exact .inr rfl
  · rw [h, State.finishCommand_travel]; exact hf b s

/-- An event outside reset that leaves the position. -/
theorem live_sameRibbon {f : State → State} (hf : ∀ s : State, s.travel.SameRibbon (f s).travel) (s : State) :
    s.travel.SameRibbon (live f s).travel := by
  rcases live_cases f s with h | ⟨_, h⟩
  · rw [h]; exact .refl _
  · rw [h]; exact hf s

/-- Everything a command can do to the position: nothing, an edge of the encoder, or, at a reset or a run reset, its
restart (R5, R6, R16). -/
theorem exec_travel_cases {c : Instr} {s t : State} (h : exec c s = .next t) :
    s.travel.SameRibbon t.travel ∨ (∃ a b, t.travel = s.travel.edge a b) ∨
      (restartsTravel c = true ∧ t.travel.Restarted) := by
  cases hc : reachesTravel c with
  | false => exact .inl (.of_eq (exec_keeps_travel hc h))
  | true =>
    cases c <;> first
      | exact absurd hc Bool.noConfusion
      | obtain rfl := Host.Outcome.next.inj h
    case powerOn => exact .inr (.inr ⟨rfl, Travel.powerOn_restarted⟩)
    case warmReset => exact .inr (.inr ⟨rfl, s.travel.warmReset_restarted⟩)
    case startRun =>
      rcases onCommand_travel (k := some .startRun) (fun _ s => startRun_travel s) s with h | h
      · exact .inr (.inr ⟨rfl, h⟩)
      · exact .inl (.of_eq h)
    case resetRun =>
      rcases onCommand_travel (k := some .resetRun) (fun _ s => resetRun_travel s) s with h | h
      · exact .inr (.inr ⟨rfl, h⟩)
      · exact .inl (.of_eq h)
    case resetEnd sel a b =>
      refine .inl ?_
      split
      · simp only [resetEnd, State.takeHeld_frame, State.writePageOf_frame, State.placeWrite_frame]
        exact ⟨rfl, rfl, rfl, rfl, rfl, rfl⟩
      · exact .refl _
    case encoderEdge a b =>
      rcases live_cases (encoderEdge a b) s with h | ⟨_, h⟩ <;> rw [h]
      · exact .inl (.refl _)
      · rcases encoderEdge_travel a b s with h | h
        · exact .inr (.inl ⟨a, b, h⟩)
        · exact .inl h
    case tb32kPeriod => exact .inl (period_sameRibbon s)
    case secondEnd =>
      refine .inl ?_
      split
      · exact period_sameRibbon s
      · exact .refl _
    case unitTick =>
      refine .inl (live_sameRibbon (fun s => ?_) s)
      split
      · exact .refl _
      · exact takeUnitTick_sameRibbon s
    case stopTimerExpiry =>
      refine .inl (live_sameRibbon (fun s => ?_) s)
      split
      · exact .refl _
      · split
        · exact takeUnitTick_sameRibbon s
        · exact .refl _
    case travelSecondTick =>
      refine .inl (live_sameRibbon (fun s => ?_) s)
      split
      · exact .refl _
      · exact travelSecond_sameRibbon s

theorem exec_keeps_positionRight {c : Instr} {s t : State} (h : exec c s = .next t) (hp : s.positionRight) :
    t.positionRight := by
  rw [State.positionRight_iff] at hp ⊢
  rcases exec_travel_cases h with h | ⟨a, b, h⟩ | ⟨_, h⟩
  · exact h.positionRight hp
  · exact h ▸ Travel.edge_positionRight hp a b
  · exact h.positionRight

theorem exec_keeps_triggersRight {c : Instr} {s t : State} (h : exec c s = .next t) (hp : s.positionRight)
    (hr : s.triggersRight) : t.triggersRight := by
  rw [State.triggersRight_iff] at hr ⊢
  rcases exec_travel_cases h with h | ⟨a, b, h⟩ | ⟨_, h⟩
  · exact h.triggersRight hr
  · exact h ▸ Travel.edge_triggersRight hp hr a b
  · exact h.triggersRight

/-- H falls only where the Travel Unit restarts (R6, R16). -/
theorem exec_high_le {c : Instr} {s t : State} (hc : restartsTravel c = false) (h : exec c s = .next t)
    (hp : s.positionRight) : s.travel.high ≤ t.travel.high := by
  rcases exec_travel_cases h with h | ⟨a, b, h⟩ | ⟨hr, _⟩
  · exact h.high.ge
  · exact h ▸ Travel.high_le_edge hp a b
  · exact absurd (hc.symm.trans hr) Bool.false_ne_true

/-- Settles O9: an edge keeps the relations, a restart brings them about, and no other command touches what they rest on. -/
theorem triggersFollowThePosition : Obligations.TriggersFollowThePosition := by
  intro s t hp hr h
  unfold step at h
  split at h
  · obtain rfl := Host.Outcome.next.inj h
    exact ⟨hp, hr⟩
  · exact ⟨exec_keeps_positionRight h hp, exec_keeps_triggersRight h hp hr⟩

/-- Settles O10: every command but the four that restart the Travel Unit leaves H or raises it. -/
theorem positionNeverFalls : Obligations.PositionNeverFalls := by
  intro c s t hp h
  have hle (hc : restartsTravel c = false) : s.travel.high ≤ t.travel.high ∧ s.travel.pos ≤ t.travel.pos :=
    have hh := exec_high_le hc h hp
    ⟨hh, Nat.div_le_div_right hh⟩
  cases c
  case powerOn | warmReset | startRun | resetRun => trivial
  all_goals exact hle rfl

end Sys2Proof.Machine
end

section
/-! The edges of the encoder. -/

namespace Sys2Proof.Machine

/-! ### Updates over the eight lanes -/

theorem vector_ext_fin {α : Type} {n : Nat} {v w : Vector α n} (h : ∀ k : Fin n, v[k] = w[k]) : v = w :=
  Vector.ext fun i hi => h ⟨i, hi⟩

theorem foldl_upd_getElem {α : Type} (f : LaneId → α → α) (j : LaneId) (ks : List LaneId) (hd : ks.Nodup)
    (v : Vector α 8) : (ks.foldl (fun v k => upd v k (f k)) v)[j] = if j ∈ ks then f j v[j] else v[j] := by
  induction ks generalizing v with
  | nil => simp
  | cons k ks ih =>
    obtain ⟨hk, hd⟩ := List.nodup_cons.mp hd
    rw [List.foldl_cons, ih hd]
    by_cases hj : j = k
    · subst hj
      rw [if_neg hk, upd_same, if_pos List.mem_cons_self]
    · rw [upd_other _ _ _ _ hj]
      simp [hj]

/-- An update of every lane in turn updates each lane once. -/
theorem foldl_upd_allLanes {α : Type} (f : LaneId → α → α) (v : Vector α 8) (j : LaneId) :
    (allLanes.foldl (fun v k => upd v k (f k)) v)[j] = f j v[j] := by
  rw [foldl_upd_getElem f j allLanes (by decide), if_pos (by revert j; decide)]

/-! ### One edge -/

namespace Travel

variable {t : Travel} {f : TravelFields} {a b : Bool}

theorem edge_forward (hf : t.fields = some f) (he : edgeCount f.bLeads t.refA t.refB a b = some .forward) :
    t.edge a b = (({ t with refA := a, refB := b } : Travel).forward f).restart.trigger f := by
  simp only [edge, hf, he]

theorem edge_backward (hf : t.fields = some f) (he : edgeCount f.bLeads t.refA t.refB a b = some .backward) :
    t.edge a b = (({ t with refA := a, refB := b } : Travel).backward f).restart := by
  simp only [edge, hf, he]

theorem edge_illegal (hf : t.fields = some f) (he : edgeCount f.bLeads t.refA t.refB a b = some .illegal) :
    t.edge a b = { t with refA := a, refB := b, quadErrors := bump t.quadErrors } := by
  simp only [edge, hf, he]

theorem edge_uncounted (hf : t.fields = some f) (he : edgeCount f.bLeads t.refA t.refB a b = none) :
    t.edge a b = { t with refA := a, refB := b } := by
  simp only [edge, hf, he]

/-- A and H after a forward count: A rises by S up to its cap, H follows it, and POSITION_LIMIT is set once the position
limit is reached (R5, R6, R9). -/
theorem forward_capped (ht : t.PositionRight) (hf : t.fields = some f) :
    (t.forward f).acc = min (t.acc + f.scale)
        (if t.positionLimit then (t.high : Int) else ((2 ^ 32 * f.pitch - 1) * 65536 : Nat)) ∧
      ((t.forward f).high : Int) = max (t.high : Int) (t.forward f).acc ∧
      ((t.forward f).positionLimit = true ↔
        t.positionLimit = true ∨ (((2 ^ 32 * f.pitch - 1) * 65536 : Nat) : Int) ≤ t.acc + f.scale) := by
  obtain ⟨_, _, hlim⟩ := ht
  have hhigh := (hlim f hf).1
  have hpitch : lastPosition f = 2 ^ 32 * f.pitch - 1 := rfl
  rcases t.forward_cases f with ⟨hl, ha, hh, hl'⟩ | ⟨hl, hle, ha, hh, hl'⟩ | ⟨hl, hlt, ha, hh, hl'⟩ <;>
    rw [hl, hl']
  · simp only [if_true, true_or, and_true]
    omega
  · rw [hpitch] at hle ha hh
    simp only [Bool.false_eq_true, if_false, false_or, true_iff]
    omega
  · rw [hpitch] at hlt
    simp only [Bool.false_eq_true, if_false, false_or, false_iff]
    omega

theorem trigger_of_le {n : Nat} (hn : t.nextPoint = some n) (h : n ≤ t.pos) :
    t.trigger f = { t with count := n / f.pitch, nextPoint := some (n + f.pitch), pulses := t.pulses + 1 } := by
  simp only [trigger, hn, if_pos h]

theorem trigger_of_lt {n : Nat} (hn : t.nextPoint = some n) (h : ¬ n ≤ t.pos) : t.trigger f = t := by
  simp only [trigger, hn, if_neg h]

end Travel

/-! ### What an edge sends -/

theorem sendTriggers_triggers (s : State) (ns : List Nat) (k : LaneId) :
    (sendTriggers s ns).wires.triggers[k] = s.wires.triggers[k] ++ s.tagAll ns :=
  foldl_upd_allLanes (fun _ q => q ++ s.tagAll ns) s.wires.triggers k

theorem sendTriggers_nil (s : State) : sendTriggers s [] = s := by
  have h : (sendTriggers s []).wires.triggers = s.wires.triggers :=
    vector_ext_fin fun k => (sendTriggers_triggers s [] k).trans (List.append_nil _)
  change { s with wires := { s.wires with triggers := (sendTriggers s []).wires.triggers } } = s
  rw [h]

/-- An edge in the counting window (R2, R8, R10). -/
theorem encoderEdge_counting {s : State} (hc : s.cmd.runState.counting = true) (a b : Bool) :
    let e := s.travel.edge a b
    encoderEdge a b s =
      { s with
        travel := e
        wires := { s.wires with
          triggers := (sendTriggers s (triggerMsgs s.travel e)).wires.triggers
          plannerRises := s.wires.plannerRises ++ s.tagAll (riseMsgs s.travel e)
          strikeRises := s.wires.strikeRises ++ s.tagAll (riseMsgs s.travel e) } } := by
  simp only [encoderEdge, hc, if_true]
  rfl

/-- An edge that neither raises P nor makes a trigger changes the Travel Unit alone. -/
theorem encoderEdge_quiet {s : State} (hc : s.cmd.runState.counting = true) {a b : Bool}
    (hpos : (s.travel.edge a b).pos = s.travel.pos) (hpulses : (s.travel.edge a b).pulses = s.travel.pulses) :
    encoderEdge a b s = { s with travel := s.travel.edge a b } := by
  have hrise : riseMsgs s.travel (s.travel.edge a b) = [] := if_pos hpos.symm
  have htrigger : triggerMsgs s.travel (s.travel.edge a b) = [] := if_pos hpulses.symm
  simp only [encoderEdge_counting hc, hrise, htrigger, sendTriggers_nil, State.tagAll, List.map_nil, List.append_nil]

/-- Outside the counting window an edge is the new reference pair alone (R4). -/
theorem encoderEdge_uncounted {s : State} (hc : s.cmd.runState.counting = false) (a b : Bool) :
    encoderEdge a b s = { s with travel := { s.travel with refA := a, refB := b } } := by
  simp only [encoderEdge, hc, Bool.false_eq_true, if_false]

theorem exec_encoderEdge {s : State} (hr : s.inReset = false) (a b : Bool) :
    exec (.encoderEdge a b) s = .next (encoderEdge a b s) :=
  congrArg Host.Outcome.next (live_out hr)

/-- The Travel Unit after a forward count, but for what the count and the trigger set. -/
theorem Travel.edge_forward_frame {t : Travel} {f : TravelFields} {a b : Bool} (hf : t.fields = some f)
    (he : edgeCount f.bLeads t.refA t.refB a b = some .forward) :
    let u := ({ t with refA := a, refB := b } : Travel).forward f
    t.edge a b = { t with
      refA := a, refB := b, acc := u.acc, high := u.high, positionLimit := u.positionLimit, timer := 0, motion := .moving
      count := (t.edge a b).count, nextPoint := (t.edge a b).nextPoint, pulses := (t.edge a b).pulses } := by
  have h := Travel.trigger_frame (({ t with refA := a, refB := b } : Travel).forward f).restart f
  rw [← Travel.edge_forward hf he] at h
  refine h.trans ?_
  rw [Travel.forward_frame]
  rfl

theorem tagAll_riseMsgs (s : State) (e : Travel) :
    s.tagAll (riseMsgs s.travel e) =
      if e.pos = s.travel.pos then [] else [s.tag { p0 := s.travel.pos, p1 := e.pos }] := by
  unfold riseMsgs
  simp only [eq_comm (a := e.pos)]
  split <;> rfl

/-- Settles O18: the count of `Travel.forward`, then the trigger, in the two cases of P against N. -/
theorem forwardCountMovesTheRibbon : Obligations.ForwardCountMovesTheRibbon := by
  intro a b s f n hr hc hf hn hp he
  obtain ⟨hacc, hhigh, hlimit⟩ := Travel.forward_capped (t := { s.travel with refA := a, refB := b }) hp hf
  have hframe := Travel.edge_forward_frame hf he
  have hedge := Travel.edge_forward hf he
  refine ⟨encoderEdge a b s, exec_encoderEdge hr a b, ?_⟩
  rw [encoderEdge_counting hc]
  generalize s.travel.edge a b = e at hframe hedge
  generalize hu : ({ s.travel with refA := a, refB := b } : Travel).forward f = u at hframe hedge hacc hhigh hlimit
  have hnext : u.restart.nextPoint = some n := by rw [← hu, Travel.forward_frame]; exact hn
  have hpulses : u.restart.pulses = s.travel.pulses := by rw [← hu, Travel.forward_frame]; rfl
  have hcount : u.restart.count = s.travel.count := by rw [← hu, Travel.forward_frame]; rfl
  have hpos : e.pos = u.restart.pos := by rw [hframe]; rfl
  refine ⟨by rw [hframe], by rw [hframe], by rw [hframe], by rw [hframe], by rw [hframe]; exact hacc,
    by rw [hframe]; exact hhigh, by rw [hframe]; exact hlimit, by rw [hframe], by rw [hframe], by rw [hframe],
    by rw [hframe], by rw [hframe], ?_, ?_⟩
  · show if n ≤ e.pos then _ else _
    by_cases hle : n ≤ e.pos
    · rw [if_pos hle]
      rw [Travel.trigger_of_le hnext (hpos ▸ hle)] at hedge
      have hmsgs : triggerMsgs s.travel e = [n / f.pitch] := by
        rw [triggerMsgs, hedge, hpulses, if_neg (Nat.ne_of_lt (Nat.lt_succ_self _))]
      rw [hmsgs, hedge, hpulses]
      exact ⟨rfl, rfl, rfl, sendTriggers_triggers s _⟩
    · rw [if_neg hle]
      rw [Travel.trigger_of_lt hnext (hpos ▸ hle)] at hedge
      have hmsgs : triggerMsgs s.travel e = [] := if_pos (hedge ▸ hpulses.symm)
      rw [hmsgs, hedge, sendTriggers_nil]
      exact ⟨hcount, hnext, hpulses, rfl⟩
  · rw [tagAll_riseMsgs]
    exact ⟨rfl, rfl⟩

/-- Settles O19: the table by its cases, and each other edge as a change of the Travel Unit alone. -/
theorem otherEdgesAndTheirCounts : Obligations.OtherEdgesAndTheirCounts := by
  refine ⟨by decide, fun a b s f hr hf => ?_⟩
  rw [exec_encoderEdge hr]
  cases hc : s.cmd.runState.counting with
  | false =>
    rw [if_neg Bool.false_ne_true]
    exact congrArg Host.Outcome.next (encoderEdge_uncounted hc a b)
  | true =>
    rw [if_pos rfl]
    split
    · rename_i he
      have hedge := Travel.edge_backward hf he
      rw [encoderEdge_quiet hc (by rw [hedge]; rfl) (by rw [hedge]; rfl), hedge]
      rfl
    · rename_i he
      have hedge := Travel.edge_illegal hf he
      rw [encoderEdge_quiet hc (by rw [hedge]; rfl) (by rw [hedge]), hedge]
      rfl
    · rename_i he
      have hedge := Travel.edge_uncounted hf he
      rw [encoderEdge_quiet hc (by rw [hedge]; rfl) (by rw [hedge]), hedge]
    · trivial

end Sys2Proof.Machine
end

section
/-! The ticks the Travel Unit takes, and the time base that makes them (R11 to R14, R130, R133). -/

namespace Sys2Proof.Machine

/-! ### Ticks taken by the Travel Unit -/

theorem exec_unitTick {s : State} (hr : s.inReset = false) (hw : s.wires.unitTicks ≠ 0) :
    exec .unitTick s = .next (takeUnitTick s) :=
  congrArg Host.Outcome.next ((live_out hr).trans (if_neg hw))

theorem exec_stopTimerExpiry {s : State} (hr : s.inReset = false) (hw : s.wires.unitTicks ≠ 0) :
    exec .stopTimerExpiry s = .next (if stopDue s then takeUnitTick s else s) :=
  congrArg Host.Outcome.next ((live_out hr).trans (if_neg hw))

theorem exec_travelSecondTick {s : State} (hr : s.inReset = false) (hw : s.wires.travelTicks ≠ 0) :
    exec .travelSecondTick s = .next (travelSecond s) :=
  congrArg Host.Outcome.next ((live_out hr).trans (if_neg hw))

theorem stopDue_eq {s : State} {f : TravelFields} (hf : s.travel.fields = some f) :
    stopDue s = (s.cmd.runState.counting && decide (s.travel.motion = .moving ∧ s.travel.timer + 1 = f.tStop)) := by
  simp only [stopDue, hf, Bool.decide_and, Bool.and_assoc]

theorem Travel.tick_eq {t : Travel} {f : TravelFields} (hf : t.fields = some f) :
    t.tick = { t with timer := if t.timer < f.tStop then t.timer + 1 else t.timer } := by
  unfold Travel.tick
  split
  · rename_i h
    exact nomatch hf.symm.trans h
  · rename_i g h
    obtain rfl : f = g := Option.some.inj (hf.symm.trans h)
    split <;> rfl

/-- Settles O23: the tick in the counting window that reaches T_stop with the ribbon MOVING, any other tick of the window, and
a tick outside it. -/
theorem unitTickDrivesTheStopTimer : Obligations.UnitTickDrivesTheStopTimer := by
  intro s f n hr hn hf
  have hw : s.wires.unitTicks ≠ 0 := hn ▸ Nat.succ_ne_zero n
  have hleft : s.wires.unitTicks - 1 = n := hn ▸ rfl
  rw [exec_unitTick hr hw, exec_stopTimerExpiry hr hw]
  have hdue := stopDue_eq hf
  cases hc : s.cmd.runState.counting with
  | false =>
    rw [hc, Bool.false_and] at hdue
    simp only [takeUnitTick, hdue, hc, hleft, Bool.false_eq_true, if_false]
  | true =>
    rw [hc, Bool.true_and] at hdue
    rw [if_pos rfl]
    by_cases hstop : s.travel.motion = .moving ∧ s.travel.timer + 1 = f.tStop
    · have hlt : s.travel.timer < f.tStop := by omega
      rw [decide_eq_true hstop] at hdue
      rw [if_pos hstop]
      simp only [takeUnitTick, hdue, if_true, hleft, Travel.tick_eq hf, if_pos hlt, hstop.2]
      exact ⟨rfl, rfl⟩
    · rw [decide_eq_false hstop] at hdue
      rw [if_neg hstop]
      simp only [takeUnitTick, hdue, hc, Bool.false_eq_true, if_false, if_true, hleft, Travel.tick_eq hf,
        and_self]

/-- Settles O24: the speed and the held position in any case, and the stop second in the window with the ribbon STOPPED. -/
theorem secondTickMeasuresSpeed : Obligations.SecondTickMeasuresSpeed := by
  intro s n hr hn
  have hw : s.wires.travelTicks ≠ 0 := hn ▸ Nat.succ_ne_zero n
  have hleft : s.wires.travelTicks - 1 = n := hn ▸ rfl
  rw [exec_travelSecondTick hr hw]
  simp only [travelSecond, hleft, Bool.and_eq_true, decide_eq_true_eq]
  by_cases h : s.cmd.runState.counting = true ∧ s.travel.motion = .stopped
  · rw [if_pos h, if_pos h]
    rfl
  · rw [if_neg h, if_neg h, List.append_nil]

/-! ### Shift boundaries -/

/-- What a boundary makes of the Shift Unit, with the report it offers (R135, R140). -/
def Shift.bounded (t : Shift) (slot : OpeningSlot) : Shift × List ShiftReport :=
  match t.hold with
  | .empty => (Shift.openTally { t with hold := .offered t.report, number := t.number + 1 } slot, [t.report])
  | .offered _ | .held _ => ({ t with tally := { t.tally with merged := satAdd 65535 t.tally.merged 1 } }, [])

theorem RunState.counting_iff (st : RunState) : st.counting = true ↔ st = .running ∨ st = .draining := by
  cases st <;> decide

/-- A boundary with the hold slot EMPTY and the clock valid: the report, and the new tally under the next number (R135). -/
theorem Shift.bounded_of_empty {t : Shift} (hold : t.hold = .empty) (hv : t.valid = true) (slot : OpeningSlot) :
    t.bounded slot =
      ({ t with
          number := t.number + 1
          hold := .offered { tally := t.tally, fin := t.calendar }
          tally :=
            { shift := t.number + 1, start := t.calendar, slot := slot, clockSet := false, clockUnset := false, merged := 0,
              counters := TallyCounters.zero,
              runs := if t.runState = .running ∨ t.runState = .draining then some { first := t.run, last := t.run }
                else none } },
        [{ tally := t.tally, fin := t.calendar }]) := by
  simp only [Shift.bounded, hold, Shift.openTally, Shift.report, Shift.runsAtOpening, hv, RunState.counting_iff,
    Bool.not_true]

/-- A boundary with a report in the hold slot merges (R135). -/
theorem Shift.bounded_of_taken {t : Shift} (hold : t.hold ≠ .empty) (slot : OpeningSlot) :
    t.bounded slot = ({ t with tally := { t.tally with merged := min 65535 (t.tally.merged + 1) } }, []) := by
  unfold Shift.bounded
  split
  · exact absurd ‹_› hold
  all_goals rfl

/-- What the test at a second end makes of the Shift Unit (R133). -/
def Shift.tested (t : Shift) : Shift × List ShiftReport :=
  match t.clockBoundary with
  | none => (t, [])
  | some i => t.bounded (.entry (Fin.ofNat 4 i))

/-- The Shift Unit once a second has ended: the calendar advanced and the counter at 0 (R130). -/
def Shift.nextSecond (t : Shift) : Shift := { t with sub := 0, calendar := t.calendar.advance }

/-- What one TB32K period makes of the Shift Unit, in reset or outside it (R130, R133, R142). -/
def Shift.afterPeriod (t : Shift) (inReset : Bool) : Shift × List ShiftReport :=
  if t.secondDue then if inReset then (t.nextSecond, []) else t.nextSecond.tested else ({ t with sub := t.sub + 1 }, [])

/-- A state with another Shift Unit that offers reports. -/
def State.withShift (s : State) (r : Shift × List ShiftReport) : State :=
  { s with shift := r.1, wires := { s.wires with shiftOffers := s.wires.shiftOffers ++ r.2 } }

theorem State.withShift_nil (s : State) (t : Shift) : s.withShift (t, []) = s.setShift t := by
  simp only [State.withShift, List.append_nil, State.setShift]

theorem State.boundary_eq (s : State) (slot : OpeningSlot) : s.boundary slot = s.withShift (s.shift.bounded slot) := by
  cases h : s.shift.hold with
  | empty => simp only [State.boundary, Shift.bounded, h]; rfl
  | offered r | held r => simp only [State.boundary, Shift.bounded, h, State.withShift_nil]

theorem State.testBoundary_eq (s : State) : s.testBoundary = s.withShift s.shift.tested := by
  unfold State.testBoundary Shift.tested
  cases s.shift.clockBoundary with
  | none => exact (s.withShift_nil s.shift).symm
  | some i => exact s.boundary_eq _

/-! ### One TB32K period -/

/-- The state after one TB32K period, with the Shift Unit it leaves: the divider, the ticks delivered outside reset, and the
reports offered (R11, R130). -/
def State.afterPeriod (s : State) (r : Shift × List ShiftReport) : State :=
  { s with
    travel := { s.travel with divider := if 32 ≤ s.travel.divider + 1 then 0 else s.travel.divider + 1 }
    shift := r.1
    wires := { s.wires with
      unitTicks := s.wires.unitTicks + if !s.inReset && decide (32 ≤ s.travel.divider + 1) then 1 else 0
      travelTicks := s.wires.travelTicks + if !s.inReset && s.shift.secondDue then 1 else 0
      writerTicks := s.wires.writerTicks + if !s.inReset && s.shift.secondDue then 1 else 0
      shiftOffers := s.wires.shiftOffers ++ r.2 } }

/-- The divider's part of a period (R11). -/
theorem dividePeriod_eq (s : State) : dividePeriod s =
    { s with
      travel := { s.travel with divider := if 32 ≤ s.travel.divider + 1 then 0 else s.travel.divider + 1 }
      wires := { s.wires with
        unitTicks := s.wires.unitTicks + if !s.inReset && decide (32 ≤ s.travel.divider + 1) then 1 else 0 } } := by
  unfold dividePeriod
  by_cases hd : s.travel.divider + 1 < 32
  · simp [if_pos hd, Nat.not_le.mpr hd]
  · cases hr : s.inReset <;> simp [if_neg hd, Nat.not_lt.mp hd, State.wire]

/-- One TB32K period, whole. -/
theorem period_eq (s : State) : period s = s.afterPeriod (s.shift.afterPeriod s.inReset) := by
  unfold period
  rw [dividePeriod_eq]
  unfold Shift.afterPeriod
  cases hd : s.shift.secondDue with
  | false => simp [State.afterPeriod, State.setShift, hd]
  | true =>
    cases hr : s.inReset with
    | true => simp [State.afterPeriod, secondEnd, State.setShift, Shift.nextSecond, hd, hr]
    | false =>
      simp [State.afterPeriod, secondEnd, State.testBoundary_eq, State.withShift, State.setShift, State.wire,
        Shift.nextSecond, hd, hr]

theorem exec_tb32kPeriod (s : State) :
    exec .tb32kPeriod s = .next (s.afterPeriod (s.shift.afterPeriod s.inReset)) :=
  congrArg Host.Outcome.next (period_eq s)

theorem exec_secondEnd (s : State) :
    exec .secondEnd s = if s.shift.secondDue then exec .tb32kPeriod s else .next s := by
  show Host.Outcome.next (if s.shift.secondDue then period s else s) = _
  split <;> rfl

/-- The second ends after 32,768 periods, or 32,768 + trim in a minute's first second (R130). -/
theorem Shift.secondDue_eq (t : Shift) : t.secondDue =
    decide ((if t.calendar.second = 0 then 32768 + t.trim else 32768) ≤ (t.sub : Int) + 1) := by
  unfold Shift.secondDue Shift.secondLength
  split <;> exact decide_eq_decide.mpr (by omega)

/-- A boundary keeps the clock and the numbers of the run (R135). -/
theorem Shift.bounded_frame (t : Shift) (slot : OpeningSlot) :
    (t.bounded slot).1 = { t with
      number := (t.bounded slot).1.number, tally := (t.bounded slot).1.tally, hold := (t.bounded slot).1.hold } := by
  unfold Shift.bounded
  split <;> rfl

/-- The test of a boundary keeps what a boundary keeps (R133). -/
theorem Shift.tested_frame (t : Shift) :
    t.tested.1 = { t with number := t.tested.1.number, tally := t.tested.1.tally, hold := t.tested.1.hold } := by
  unfold Shift.tested
  cases t.clockBoundary with
  | none => rfl
  | some i => exact t.bounded_frame _

/-- A period leaves of the Shift Unit all but the clock, and what a boundary sets (R130). -/
theorem Shift.afterPeriod_frame (t : Shift) (inReset : Bool) :
    (t.afterPeriod inReset).1 = { t with
      sub := if t.secondDue then 0 else t.sub + 1
      calendar := if t.secondDue then t.calendar.advance else t.calendar
      number := (t.afterPeriod inReset).1.number, tally := (t.afterPeriod inReset).1.tally
      hold := (t.afterPeriod inReset).1.hold } := by
  unfold Shift.afterPeriod
  split
  · split
    · rfl
    · exact t.nextSecond.tested_frame
  · rfl

/-- No boundary is tested in reset (R142). -/
theorem Shift.afterPeriod_inReset_tally (t : Shift) : (t.afterPeriod true).1.tally = t.tally := by
  unfold Shift.afterPeriod
  split <;> rfl

/-- Settles O20. -/
theorem timeBaseDividesPeriods : Obligations.TimeBaseDividesPeriods := by
  intro s
  dsimp only
  rw [← Shift.secondDue_eq]
  refine ⟨⟨_, exec_tb32kPeriod s, ?_⟩, exec_secondEnd s⟩
  have hframe := s.shift.afterPeriod_frame s.inReset
  refine ⟨?_, rfl, rfl, rfl, (congrArg Shift.sub hframe :), (congrArg Shift.calendar hframe :), (congrArg Shift.trim hframe :),
    (congrArg Shift.valid hframe :), (congrArg Shift.table hframe :), (congrArg Shift.run hframe :), fun hr => ?_⟩
  · simp only [State.afterPeriod, ← Nat.not_lt (a := s.travel.divider + 1), ite_not]
  · exact hr ▸ s.shift.afterPeriod_inReset_tally

/-! ### Boundaries by the clock -/

theorem ShiftStart.hits_iff (e : ShiftStart) (c : Calendar) :
    e.hits c = true ↔ e.hour = c.hour ∧ e.minute = c.minute ∧ e.days.toList.getD c.weekday false = true := by
  simp only [ShiftStart.hits, Bool.and_eq_true, decide_eq_true_eq, and_assoc]

/-- The first entry that matches is found at its place (R133). -/
theorem matchFrom_first {c : Calendar} {es : List ShiftStart} {i : Nat} {e : ShiftStart} (he : es[i]? = some e)
    (hhit : e.hits c = true) (hbefore : ∀ j d, j < i → es[j]? = some d → ¬ d.hits c = true) (k : Nat) :
    matchFrom c k es = some (k + i) := by
  induction es generalizing i k with
  | nil => cases he
  | cons d rest ih =>
    cases i with
    | zero =>
      obtain rfl : d = e := Option.some.inj he
      exact if_pos hhit
    | succ i =>
      have hd : ¬ d.hits c = true := hbefore 0 d (Nat.succ_pos i) rfl
      have hrest := ih he (fun j x hj hx => hbefore (j + 1) x (Nat.succ_lt_succ hj) hx) (k + 1)
      rw [matchFrom, if_neg hd, hrest, Nat.add_right_comm, Nat.add_assoc]

theorem matchFrom_none {c : Calendar} {es : List ShiftStart} (h : ∀ e ∈ es, ¬ e.hits c = true) (k : Nat) :
    matchFrom c k es = none := by
  induction es generalizing k with
  | nil => rfl
  | cons d rest ih =>
    rw [matchFrom, if_neg (h d List.mem_cons_self)]
    exact ih (fun e he => h e (List.mem_cons_of_mem d he)) _

/-- The clock gives a boundary at the first entry that matches, in second 0 with the clock valid (R133). -/
theorem Shift.clockBoundary_first {t : Shift} {es : List ShiftStart} {i : Nat} {e : ShiftStart} (ht : t.table = some es)
    (hv : t.valid = true) (hs : t.calendar.second = 0) (he : es[i]? = some e) (hhit : e.hits t.calendar = true)
    (hbefore : ∀ j d, j < i → es[j]? = some d → ¬ d.hits t.calendar = true) : t.clockBoundary = some i := by
  simp only [Shift.clockBoundary, ht, hv, hs, decide_true, Bool.and_self, if_true, matchFrom_first he hhit hbefore,
    Nat.zero_add]

/-- The clock gives no boundary with the flag clear or the table absent, in another second, or where no entry matches (R133). -/
theorem Shift.clockBoundary_none {t : Shift}
    (h : t.valid = false ∨ t.table = none ∨ t.calendar.second ≠ 0 ∨
      ∀ es, t.table = some es → ∀ e ∈ es, ¬ e.hits t.calendar = true) : t.clockBoundary = none := by
  unfold Shift.clockBoundary
  split
  · rfl
  · rename_i es ht
    split
    · rename_i hvs
      simp only [Bool.and_eq_true, decide_eq_true_eq] at hvs
      rcases h with h | h | h | h
      · exact absurd (h.symm.trans hvs.1) Bool.false_ne_true
      · exact nomatch h.symm.trans ht
      · exact absurd hvs.2 h
      · exact matchFrom_none (h es ht) 0
    · rfl

theorem Shift.afterPeriod_due {t : Shift} (hd : t.secondDue = true) : t.afterPeriod false = t.nextSecond.tested := by
  simp only [Shift.afterPeriod, hd, if_true, Bool.false_eq_true, if_false]

/-- A period with no boundary: the clock alone moves (R130). -/
theorem Shift.afterPeriod_quiet {t : Shift} {inReset : Bool}
    (h : inReset = true ∨ t.secondDue = false ∨ t.nextSecond.clockBoundary = none) :
    t.afterPeriod inReset =
      ({ t with
          calendar := if t.secondDue then t.calendar.advance else t.calendar
          sub := if t.secondDue then 0 else t.sub + 1 }, []) := by
  cases hd : t.secondDue with
  | false => simp only [Shift.afterPeriod, hd, Bool.false_eq_true, if_false]
  | true =>
    cases inReset with
    | true => simp only [Shift.afterPeriod, hd, if_true, Shift.nextSecond]
    | false =>
      have hnone : t.nextSecond.clockBoundary = none := by simpa [hd] using h
      rw [Shift.afterPeriod_due hd, Shift.tested, hnone]
      rfl

/-- Settles O22: the first entry that matches makes the boundary of `Shift.bounded`, in the two cases of the hold slot; every
other period moves the clock alone. -/
theorem clockBoundaryFreezesTheTally : Obligations.ClockBoundaryFreezesTheTally := by
  intro s now due unit out hits taken happens
  have hdue : due = s.shift.secondDue := (Shift.secondDue_eq _).symm
  have hhappens {r : Shift × List ShiftReport} (hr : s.shift.afterPeriod s.inReset = r) : happens (taken r.1 r.2) := by
    have hperiod : exec .tb32kPeriod s = .next (taken r.1 r.2) := by
      rw [exec_tb32kPeriod, hr]
      simp only [State.afterPeriod, taken, unit, out, hdue, decide_eq_true_eq]
    refine ⟨hperiod, fun hd => ?_⟩
    rw [exec_secondEnd, ← hdue, if_pos hd, hperiod]
  refine ⟨fun es i e hr hd hv ht _ hsec he hhit hbefore => ?_, fun hquiet => ?_⟩
  · have hfound : s.shift.nextSecond.clockBoundary = some i :=
      Shift.clockBoundary_first ht hv hsec he ((e.hits_iff now).mpr hhit) fun j d hj hx hh =>
        hbefore j d hj hx ((d.hits_iff now).mp hh)
    have hafter : s.shift.afterPeriod s.inReset = s.shift.nextSecond.bounded (.entry (Fin.ofNat 4 i)) := by
      rw [hr, Shift.afterPeriod_due (hdue ▸ hd), Shift.tested, hfound]
    split
    · rename_i hold
      exact hhappens (r := (_, _)) (hafter.trans (Shift.bounded_of_empty (t := s.shift.nextSecond) hold hv _))
    · rename_i hold
      exact hhappens (r := (_, _)) (hafter.trans (Shift.bounded_of_taken (t := s.shift.nextSecond) hold _))
  · refine hhappens (r := (_, _)) ((Shift.afterPeriod_quiet ?_).trans ?_)
    · rcases hquiet with h | h | h
      · exact .inl h
      · exact .inr (.inl (hdue ▸ h))
      · refine .inr (.inr (Shift.clockBoundary_none ?_))
        simp only [ShiftStart.hits_iff]
        exact h
    · rw [hdue]

end Sys2Proof.Machine
end

section
/-! Power-on, warm reset and the end of a reset. -/

namespace Sys2Proof.Machine

/-! ### Power-on -/

theorem reset_lane (k : LaneId) : State.reset.lanes[k] = Lane.powerOn :=
  Vector.getElem_replicate k.isLt

theorem reset_engineLane (k : LaneId) : State.reset.engine.lanes[k] = EngineLane.powerOn :=
  Vector.getElem_replicate k.isLt

theorem reset_log (l : LogId) : State.reset.writer.logs[l.idx] = LogState.powerOn :=
  Vector.getElem_replicate l.idx.isLt

theorem reset_runStatesAgree : State.reset.runStatesAgree := ⟨fun k => by rw [reset_lane]; rfl, rfl, rfl⟩

theorem reset_queuesBounded : State.reset.queuesBounded := by
  unfold State.queuesBounded
  decide

theorem reset_joinQueuesBounded : State.reset.joinQueuesBounded :=
  ⟨fun k => by rw [reset_engineLane]; exact Nat.zero_le _, fun _ h => nomatch (show none = some _ from h)⟩

theorem reset_topFlawsBounded : State.reset.topFlawsBounded :=
  ⟨fun _ h => absurd h GradingState.noConfusion, fun _ h => absurd h List.not_mem_nil,
    fun _ h => absurd h List.not_mem_nil⟩

theorem reset_outputsRight : State.reset.outputsRight := by
  unfold State.outputsRight
  decide

theorem reset_attnRight : State.reset.attnRight := by
  refine iff_of_false Bool.false_ne_true ?_
  simp only [reset_log]
  rintro (⟨_, _, h, _⟩ | h | ⟨h, _⟩)
  · exact nomatch h
  · exact h rfl
  · exact h rfl

/-- Settles O2: each block at power-on holds nothing that an invariant bounds. -/
theorem resetMeetsTheInvariants : Obligations.ResetMeetsTheInvariants :=
  ⟨State.reset_memoryWf, reset_runStatesAgree, reset_queuesBounded, reset_joinQueuesBounded, reset_topFlawsBounded,
    ⟨rfl, rfl⟩, reset_outputsRight, reset_attnRight, Travel.powerOn_restarted.positionRight,
    Travel.powerOn_restarted.triggersRight⟩

/-- Settles O15: the reset values block by block are the definitions of the power-on states. -/
theorem powerOnAndWarmReset : Obligations.PowerOnAndWarmReset := by
  refine ⟨fun s => ⟨powerOn s, rfl, ?_⟩, ?_, fun s => rfl⟩
  · have hlane (k : LaneId) : (powerOn s).lanes[k] = Lane.powerOn := reset_lane k
    have hengine (k : LaneId) : (powerOn s).engine.lanes[k] = EngineLane.powerOn := reset_engineLane k
    have hlog (l : LogId) : (powerOn s).writer.logs[l.idx] = LogState.powerOn := reset_log l
    simp only [hlane, hengine, hlog]
    exact ⟨rfl, rfl, rfl, rfl, rfl, rfl, rfl, rfl, rfl, rfl, rfl, rfl, rfl, rfl, rfl, rfl, rfl, rfl, rfl, rfl, rfl, rfl,
      rfl, rfl, rfl, rfl, fun _ => ⟨rfl, rfl, rfl, rfl⟩, rfl, rfl, rfl, rfl, rfl, rfl, rfl, rfl, rfl, rfl, rfl, rfl, rfl,
      fun _ => ⟨rfl, rfl⟩, rfl⟩
  · exact ⟨rfl, rfl, rfl, rfl, rfl, rfl, rfl, rfl, rfl, rfl, rfl, rfl, rfl, rfl, rfl, rfl⟩

end Sys2Proof.Machine
end

section
/-! The status page as transactions, and the end of a reset. -/

namespace Sys2Proof.Machine

/-! ### The writes of a page -/

/-- Data that fits is cut whole: its pieces hold it in order. -/
theorem chunks_data (tag : TxnTag) : ∀ (fuel addr : Nat) (data : List Byte), data.length ≤ 128 * fuel →
    (chunks tag fuel addr data).flatMap (·.data) = data := by
  intro fuel
  induction fuel with
  | zero =>
    intro addr data h
    exact (List.length_eq_zero_iff.mp (Nat.le_zero.mp h)).symm
  | succ fuel ih =>
    intro addr data h
    rw [chunks]
    split
    · exact List.append_nil _
    · rw [List.flatMap_cons, ih _ _ (by rw [List.length_drop]; omega)]
      exact List.take_append_drop 128 data

/-- Data is cut into one piece for every 128 bytes begun. -/
theorem chunks_length (tag : TxnTag) : ∀ (fuel addr : Nat) (data : List Byte), 0 < data.length → data.length ≤ 128 * fuel →
    (chunks tag fuel addr data).length = (data.length + 127) / 128 := by
  intro fuel
  induction fuel with
  | zero => intro addr data h0 h; omega
  | succ fuel ih =>
    intro addr data h0 h
    rw [chunks]
    split
    · simp only [List.length_singleton]; omega
    · rw [List.length_cons, ih _ _ (by rw [List.length_drop]; omega) (by rw [List.length_drop]; omega), List.length_drop]
      omega

theorem chunks_tag (tag : TxnTag) : ∀ (fuel addr : Nat) (data : List Byte), ∀ t ∈ chunks tag fuel addr data, t.tag = tag := by
  intro fuel
  induction fuel with
  | zero => intro addr data t ht; cases ht
  | succ fuel ih =>
    intro addr data t ht
    rw [chunks] at ht
    split at ht
    · rw [List.mem_singleton.mp ht]; rfl
    · rcases List.mem_cons.mp ht with rfl | ht
      · rfl
      · exact ih _ _ t ht

theorem pageTxns_data (image : List Byte) (addr : Nat) : (pageTxns addr image).flatMap (·.data) = image := by
  have hbody := chunks_data .page 8 (addr + 8) ((image.drop 8).take 1008) (by simp)
  simp only [pageTxns, List.flatMap_cons, List.flatMap_append, hbody, List.flatMap_nil, Txn.full, List.append_nil]
  have hend : image.drop 1016 = (image.drop 8).drop 1008 := by rw [List.drop_drop]
  rw [hend, List.take_append_drop, List.take_append_drop]

theorem pageTxns_length {image : List Byte} (himage : image.length = 1024) (addr : Nat) : (pageTxns addr image).length = 10 := by
  have hlen : ((image.drop 8).take 1008).length = 1008 := by simp [himage]
  have hbody := chunks_length .page 8 (addr + 8) ((image.drop 8).take 1008) (by omega) (by omega)
  rw [hlen] at hbody
  simp only [pageTxns, List.length_cons, List.length_append, List.length_nil, hbody]

theorem pageTxns_tags {image : List Byte} (himage : image.length = 1024) (addr : Nat) :
    (pageTxns addr image).map (·.tag) = List.replicate 10 .page := by
  refine List.eq_replicate_iff.mpr ⟨by rw [List.length_map, pageTxns_length himage addr], fun tag ht => ?_⟩
  obtain ⟨t, hmem, rfl⟩ := List.mem_map.mp ht
  rcases List.mem_cons.mp hmem with rfl | hmem
  · rfl
  · rcases List.mem_append.mp hmem with hmem | hmem
    · exact chunks_tag _ _ _ _ t hmem
    · rw [List.mem_singleton.mp hmem]; rfl

/-! ### The bytes of a page -/

theorem zeros_length (n : Nat) : (zeros n).length = n := List.length_replicate

/-- The length of an image whose fields stand in order and end within it. -/
theorem layout_length {size : Nat} {parts : List (Nat × List Byte)} : ∀ {pos : Nat}, pos ≤ size →
    inLayoutOrder pos parts = true → (∀ p ∈ parts, p.1 + p.2.length ≤ size) → (layout size pos parts).length = size - pos := by
  induction parts with
  | nil => intro pos _ _ _; exact zeros_length _
  | cons part rest ih =>
    obtain ⟨o, bytes⟩ := part
    intro pos hpos ho hend
    simp only [inLayoutOrder, Bool.and_eq_true, decide_eq_true_eq] at ho
    have hfit : o + bytes.length ≤ size := hend _ List.mem_cons_self
    simp only [layout, List.length_append, zeros_length,
      ih hfit ho.2 fun p hp => hend p (List.mem_cons_of_mem _ hp)]
    omega

/-- A byte of an image outside every field that is not all zero is zero. -/
theorem layoutByte_zero {parts : List (Nat × List Byte)} {i : Nat}
    (h : ∀ p ∈ parts, i < p.1 ∨ p.1 + p.2.length ≤ i ∨ ∃ n, p.2 = zeros n) : layoutByte parts i = 0 := by
  induction parts with
  | nil => rfl
  | cons part rest ih =>
    obtain ⟨o, bytes⟩ := part
    rw [layoutByte]
    split
    · rfl
    · split
      · rcases h _ List.mem_cons_self with h | h | ⟨n, h⟩
        · omega
        · simp only at h; omega
        · simp only at h
          rw [h, zeros_getD]
      · exact ih fun p hp => h p (List.mem_cons_of_mem _ hp)

/-- The fields of the status page with their offsets (chapter 11.6). -/
def State.pageParts (s : State) (seq : Word32) : List (Nat × List Byte) :=
  [(0x000, le 4 seq.toNat), (0x008, s.cmd.page), (0x058, s.path.page), (0x078, s.travel.page),
   (0x090, allLanes.flatMap (fun k => lanePage s.lanes[k] s.engine.lanes[k])), (0x1D0, s.engine.page),
   (0x1D8, s.asm.page), (0x208, s.planner.page), (0x238, s.strike.page), (0x268, s.grading.page), (0x280, s.shift.page),
   (0x2A0, s.writer.page s.cmd.seen), (0x3F8, le 4 seq.toNat)]

theorem State.pageImage_eq (s : State) (seq : Word32) : s.pageImage seq = layout 1024 0 (s.pageParts seq) := rfl

theorem flagByte_length (b : Bool) : (flagByte b).length = 1 := rfl

theorem leSigned_length (n : Nat) (v : Int) : (leSigned n v).length = n := le_length n _

theorem leAll_length (n : Nat) (vs : List Nat) : (leAll n vs).length = n * vs.length := by
  simp [leAll, List.length_flatMap, Nat.mul_comm]

theorem groupStatus_length {α : Type} (c : Command) (g : GroupId) (k : Copies α) : (groupStatus c g k).length = 12 := by
  simp [groupStatus, flagByte_length, zeros_length]

theorem Command.page_length (c : Command) : c.page.length = 76 := by
  simp [Command.page, groupStatus_length, leAll_length]

theorem Path.page_length (p : Path) : p.page.length = 28 := by
  simp [Path.page, flagByte_length, zeros_length, leAll_length]

theorem Travel.page_length (t : Travel) : t.page.length = 22 := by
  simp [Travel.page, flagByte_length, leAll_length]

theorem lanePage_length (l : Lane) (e : EngineLane) : (lanePage l e).length = 40 := by
  simp [lanePage, layout, flagByte_length, zeros_length, leAll_length]

theorem lanePages_length (s : State) :
    (allLanes.flatMap fun k => lanePage s.lanes[k] s.engine.lanes[k]).length = 320 := by
  simp only [List.length_flatMap, lanePage_length]
  rfl

theorem Engine.page_length (e : Engine) : e.page.length = 2 := by
  simp [Engine.page, flagByte_length]

theorem Assembler.page_length (a : Assembler) : a.page.length = 44 := by
  cases h : a.overflow <;> simp [Assembler.page, h, flagByte_length, zeros_length, leAll_length]

theorem Planner.page_length (p : Planner) : p.page.length = 44 := by
  cases h : p.openPiece <;> simp [Planner.page, h, flagByte_length, zeros_length, leSigned_length]

theorem Strike.page_length (t : Strike) : t.page.length = 44 := by
  cases h : t.gates.getLast? <;> simp [Strike.page, h, flagByte_length, zeros_length, leAll_length]

theorem Grading.page_length (g : Grading) : g.page.length = 20 := by
  simp [Grading.page, flagByte_length, zeros_length, leAll_length]

theorem Shift.page_length (t : Shift) : t.page.length = 32 := by
  simp [Shift.page, flagByte_length, zeros_length, leAll_length, leSigned_length]

theorem LogState.page_length (l : LogState) : l.page.length = 16 := by
  simp [LogState.page, leAll_length]

theorem Writer.page_length (w : Writer) (seen : Word32) : (w.page seen).length = 80 := by
  simp [Writer.page, LogState.page_length, leAll_length, allLogs]

/-- The fields of the page stand in order and end within it. -/
theorem State.pageParts_fit (s : State) (seq : Word32) :
    inLayoutOrder 0 (s.pageParts seq) = true ∧ ∀ p ∈ s.pageParts seq, p.1 + p.2.length ≤ 1024 := by
  constructor
  · simp only [State.pageParts, inLayoutOrder, le_length, Command.page_length, Path.page_length, Travel.page_length,
      lanePages_length, Engine.page_length, Assembler.page_length, Planner.page_length, Strike.page_length,
      Grading.page_length, Shift.page_length, Writer.page_length]
    decide
  · simp only [State.pageParts, List.forall_mem_cons, le_length, Command.page_length, Path.page_length, Travel.page_length,
      lanePages_length, Engine.page_length, Assembler.page_length, Planner.page_length, Strike.page_length,
      Grading.page_length, Shift.page_length, Writer.page_length]
    decide

theorem State.pageImage_length (s : State) (seq : Word32) : (s.pageImage seq).length = 1024 :=
  layout_length (Nat.zero_le _) (s.pageParts_fit seq).1 (s.pageParts_fit seq).2

/-- The page begins with its sequence word (R176). -/
theorem State.pageImage_take (s : State) (seq : Word32) : (s.pageImage seq).take 4 = le 4 seq.toNat := by
  rw [State.pageImage_eq, State.pageParts, layout, Nat.sub_self, zeros, List.replicate_zero, List.nil_append]
  exact List.take_left' (le_length 4 _)

/-! ### The end of a reset -/

/-- While the internal queue has room for all of them, writes join it at once (R157). -/
theorem State.placeWrites_room (ts : List Txn) : ∀ s : State, s.writer.waiting = [] →
    s.path.internal.length + ts.length ≤ Config.internalQueueLimit →
    (s.placeWrites ts).path.internal = s.path.internal ++ ts := by
  induction ts with
  | nil => intro s _ _; exact (List.append_nil _).symm
  | cons t ts ih =>
    intro s hw hroom
    rw [List.length_cons] at hroom
    have hplace : s.placeWrite t = s.takeIn t := if_pos ⟨by omega, by rw [hw]; rfl⟩
    show ((s.placeWrite t).placeWrites ts).path.internal = _
    rw [hplace, ih (s.takeIn t) hw (by simp only [State.takeIn, List.length_append, List.length_singleton]; omega)]
    simp only [State.takeIn, List.append_assoc, List.singleton_append]

theorem State.writePageOf_pageSeq (s : State) (shown : State → State) :
    (s.writePageOf shown).writer.pageSeq = s.writer.pageSeq + 1 := by
  simp only [State.writePageOf, State.placeWrites_pageSeq]

/-- A page that finds room in the internal queue joins it at once, with the sequence it has counted (R171, R157). -/
theorem State.writePageOf_room (s : State) (shown : State → State) (hw : s.writer.waiting = [])
    (hroom : s.path.internal.length + 10 ≤ Config.internalQueueLimit) :
    (s.writePageOf shown).path.internal = s.path.internal ++ pageTxns (s.path.anchorBase + pageAt)
      ((shown { s with writer := { s.writer with pageSeq := s.writer.pageSeq + 1 } }).pageImage (s.writer.pageSeq + 1)) := by
  unfold State.writePageOf
  dsimp only
  rw [State.placeWrites_room]
  · exact hw
  · rw [pageTxns_length (State.pageImage_length _ _)]
    exact hroom

/-- Requests held off are taken until none is left or the queue is full (R143). -/
theorem takeHeldOff_room (hs : List HeldOff) (s : State) :
    (takeHeldOff hs s).path.heldOff = [] ∨ 32 ≤ (takeHeldOff hs s).path.queue.length := by
  induction hs generalizing s with
  | nil => exact .inl rfl
  | cons h rest ih =>
    rw [takeHeldOff]
    split
    · exact ih _
    · rename_i hfull
      exact .inr (Nat.not_lt.mp hfull)

/-- The part as RESET_END finds the straps and the levels, before its first words are written (R146, R16, R142). -/
def State.sampled (s : State) (sel : Fin 16) (a b : Bool) : State :=
  { s with
    inReset := false
    travel := { s.travel with refA := a, refB := b }
    path := { s.path with anchorBase := anchorBaseOf sel }
    shift := s.shift.openTally .reset
    writer := { s.writer with calendar := s.shift.calendar, clockValid := s.shift.valid } }

/-- The write of completion word 0 at the end of a reset (R176). -/
def firstWord (sel : Fin 16) : Txn := Txn.full (.completionWord 0) (anchorBaseOf sel + completionAt) (completionBeat 0)

theorem resetEnd_eq (sel : Fin 16) (a b : Bool) (s : State) :
    resetEnd sel a b s =
      (((s.sampled sel a b).placeWrite (firstWord sel)).writePageOf State.shownAtResetEnd).takeHeld := rfl

theorem exec_resetEnd {s : State} (hr : s.inReset = true) (sel : Fin 16) (a b : Bool) :
    exec (.resetEnd sel a b) s = .next (resetEnd sel a b s) := congrArg Host.Outcome.next (if_pos hr)

/-- The values the first page shows after a reset that left the internal queue empty. -/
def State.firstShown (s : State) (sel : Fin 16) (a b : Bool) : State :=
  let u := (s.sampled sel a b).takeIn (firstWord sel)
  State.shownAtResetEnd { u with writer := { u.writer with pageSeq := s.writer.pageSeq + 1 } }

/-- The first writes after a reset: completion word 0, and the page (R176). -/
theorem resetEnd_internal {s : State} (hq : s.path.internal = []) (hw : s.writer.waiting = []) (sel : Fin 16) (a b : Bool) :
    (resetEnd sel a b s).path.internal =
      firstWord sel ::
        pageTxns (anchorBaseOf sel + pageAt) ((s.firstShown sel a b).pageImage (s.writer.pageSeq + 1)) := by
  have hplace : (s.sampled sel a b).placeWrite (firstWord sel) = (s.sampled sel a b).takeIn (firstWord sel) :=
    if_pos ⟨show s.path.internal.length < 16 by rw [hq]; decide, show s.writer.waiting.length = 0 by rw [hw]; rfl⟩
  have hinternal : ((s.sampled sel a b).takeIn (firstWord sel)).path.internal = [firstWord sel] :=
    congrArg (· ++ [firstWord sel]) hq
  have hpage := State.writePageOf_room ((s.sampled sel a b).takeIn (firstWord sel)) State.shownAtResetEnd hw
    (by rw [hinternal, List.length_singleton]; decide)
  rw [hinternal] at hpage
  rw [resetEnd_eq, hplace]
  simp only [State.takeHeld_frame]
  exact hpage

/-- What the first words leave of the part as the end of a reset samples it. -/
theorem resetEnd_sampled (s : State) (sel : Fin 16) (a b : Bool) :
    let t := resetEnd sel a b s
    let u := s.sampled sel a b
    t.inReset = u.inReset ∧ t.path.anchorBase = u.path.anchorBase ∧ t.travel = u.travel ∧ t.shift = u.shift ∧
      t.writer.calendar = u.writer.calendar ∧ t.writer.clockValid = u.writer.clockValid ∧
      t.writer.pageSeq = u.writer.pageSeq + 1 := by
  simp only [resetEnd_eq, State.takeHeld_frame, State.writePageOf_frame, State.placeWrite_frame,
    State.writePageOf_pageSeq, State.placeWrite_pageSeq, and_self]

theorem resetEnd_heldOff (s : State) (sel : Fin 16) (a b : Bool) :
    (resetEnd sel a b s).path.heldOff = [] ∨ 32 ≤ (resetEnd sel a b s).path.queue.length := by
  rw [resetEnd_eq, State.takeHeld]
  exact takeHeldOff_room _ _

/-! ### The first page -/

/-- A power-on is a warm reset of a part that holds power-on values (R142, R173). -/
theorem powerOn_eq_warmReset (s : State) :
    powerOn s = warmReset { State.reset with pending := s.pending, mem := s.mem } := rfl

theorem lanePages_powerOn :
    (allLanes.flatMap fun k => lanePage (Vector.replicate 8 Lane.powerOn)[k] Engine.powerOn.lanes[k]) = zeros 320 := by
  decide +kernel

section
variable (s : State) (sel : Fin 16) (a b : Bool)

/-- What the first page after a warm reset shows: power-on values, with zero in the motion, next flaw, next piece and next
sequence fields (R176). -/
theorem firstShown_warmReset :
    let w := (warmReset s).firstShown sel a b
    w.cmd = Command.powerOn ∧ w.lanes = Vector.replicate 8 Lane.powerOn ∧ w.engine = Engine.powerOn ∧
      w.grading = Grading.powerOn ∧ w.travel.page = Travel.page { Travel.powerOn with motion := .moving } ∧
      w.asm.page = Assembler.page { Assembler.powerOn with nextFlaw := 0 } ∧
      w.planner.page = Planner.page { Planner.powerOn with nextPiece := 0 } ∧ w.strike.page = Strike.powerOn.page ∧
      w.writer.page w.cmd.seen = Writer.page { Writer.powerOn with logs := Writer.powerOn.logs.map fun l =>
        { l with nextSeq := if l.fields.isSome then l.nextSeq else 0 } } 0 :=
  ⟨rfl, rfl, rfl, rfl, rfl, rfl, rfl, rfl, rfl⟩

/-- The first page after a warm reset shows zero in every byte of the blocks but the sequence words, the Path Unit and the
Shift Unit (R176). -/
theorem firstShown_byte {i : Nat}
    (hi : (0x008 ≤ i ∧ i < 0x058) ∨ (0x078 ≤ i ∧ i < 0x280) ∨ (0x2A0 ≤ i ∧ i < 0x3F8)) (seq : Word32) :
    layoutByte (((warmReset s).firstShown sel a b).pageParts seq) i = 0 := by
  obtain ⟨hcmd, hlanes, hengine, hgrading, htravel, hasm, hplanner, hstrike, hwriter⟩ := firstShown_warmReset s sel a b
  refine layoutByte_zero ?_
  simp only [State.pageParts, List.forall_mem_cons, hwriter]
  simp only [hcmd, hlanes, hengine, hgrading, htravel, hasm, hplanner, hstrike, Path.page_length, Shift.page_length,
    le_length]
  refine ⟨by omega, .inr (.inr ⟨76, by decide +kernel⟩), by omega, .inr (.inr ⟨22, by decide +kernel⟩),
    .inr (.inr ⟨320, lanePages_powerOn⟩), .inr (.inr ⟨2, by decide +kernel⟩), .inr (.inr ⟨44, by decide +kernel⟩),
    .inr (.inr ⟨44, by decide +kernel⟩), .inr (.inr ⟨44, by decide +kernel⟩), .inr (.inr ⟨20, by decide +kernel⟩), by omega,
    .inr (.inr ⟨80, by decide +kernel⟩), by omega, nofun⟩

/-- The first page after a warm reset (R176). -/
theorem firstPage_zero {i : Nat}
    (hi : (0x008 ≤ i ∧ i < 0x058) ∨ (0x078 ≤ i ∧ i < 0x280) ∨ (0x2A0 ≤ i ∧ i < 0x3F8)) (seq : Word32) :
    (((warmReset s).firstShown sel a b).pageImage seq)[i]? = some 0 := by
  have hlt : i < (((warmReset s).firstShown sel a b).pageImage seq).length := by
    rw [State.pageImage_length]; omega
  have hbyte := layout_getD 1024 _ 0 i (Nat.zero_le i) (State.pageParts_fit ((warmReset s).firstShown sel a b) seq).1
  rw [firstShown_byte s sel a b hi, Nat.sub_zero, ← State.pageImage_eq, List.getD_eq_getElem _ _ hlt] at hbyte
  rw [List.getElem?_eq_getElem hlt, hbyte]

end

/-- Settles O16: what RESET_END samples, the first writes it places, and the bytes of the page among them. -/
theorem resetEndSamplesStrapsAndLevels : Obligations.ResetEndSamplesStrapsAndLevels := by
  refine ⟨fun sel a b s hr hst => ⟨resetEnd sel a b s, exec_resetEnd hr sel a b, ?_⟩, ?_⟩
  · obtain ⟨hreset, hbase, htravel, hshift, hcal, hvalid, hseq⟩ := resetEnd_sampled s sel a b
    refine ⟨hreset, hbase, htravel, ?_, hcal, hvalid, hseq, fun hq hw => ?_, resetEnd_heldOff s sel a b⟩
    · rw [hshift]
      simp only [State.sampled, Shift.openTally, Shift.runsAtOpening, hst, RunState.counting, Bool.false_eq_true, if_false]
    · rw [resetEnd_internal hq hw, hbase]
      exact ⟨congrArg (TxnTag.completionWord 0 :: ·) (pageTxns_tags (State.pageImage_length _ _) _), rfl⟩
  · have hpage (sel : Fin 16) (a b : Bool) (s : State) :
        let page := ((resetEnd sel a b (warmReset s)).path.internal.drop 1).flatMap (·.data)
        page.length = 1024 ∧ page.take 4 = le 4 1 ∧
          ∀ i, (0x008 ≤ i ∧ i < 0x058) ∨ (0x078 ≤ i ∧ i < 0x280) ∨ (0x2A0 ≤ i ∧ i < 0x3F8) → page[i]? = some 0 := by
      rw [resetEnd_internal rfl rfl, List.drop_one, List.tail_cons, pageTxns_data]
      exact ⟨State.pageImage_length _ _, State.pageImage_take _ _, fun i hi => firstPage_zero s sel a b hi _⟩
    intro sel a b s₀ s hs
    have hs' : ∃ u : State, s = warmReset u := by
      rcases hs with h | h
      · exact ⟨_, (Host.Outcome.next.inj h).symm.trans (powerOn_eq_warmReset s₀)⟩
      · exact ⟨s₀, (Host.Outcome.next.inj h).symm⟩
    obtain ⟨u, rfl⟩ := hs'
    exact ⟨_, exec_resetEnd rfl sel a b, hpage sel a b u⟩

end Sys2Proof.Machine
end

section
/-! The run reset, RESET_RUN and the end of a run. -/

namespace Sys2Proof.Machine

/-! ### Pages leave the Command Unit and the wires -/

theorem State.placeWrites_cmd (ts : List Txn) (s : State) : (s.placeWrites ts).cmd = s.cmd := by
  refine foldl_keeps State.placeWrite State.cmd (fun s t => ?_) ts s
  unfold State.placeWrite
  split <;> rfl

theorem pageTxns_no_rewrite (addr : Nat) (image : List Byte) : ∀ t ∈ pageTxns addr image, ∀ i p, t.tag ≠ .rewrite i p := by
  intro t ht i p
  have htag : t.tag = .page := by
    rcases List.mem_cons.mp ht with rfl | ht
    · rfl
    · rcases List.mem_append.mp ht with ht | ht
      · exact chunks_tag _ _ _ _ t ht
      · rw [List.mem_singleton.mp ht]; rfl
  rw [htag]
  exact TxnTag.noConfusion

theorem State.writePage_cmd (s : State) : s.writePage.cmd = s.cmd := by
  simp only [State.writePage, State.writePageOf, State.placeWrites_cmd]

theorem State.writePage_wires (s : State) : s.writePage.wires = s.wires := by
  unfold State.writePage State.writePageOf
  exact State.placeWrites_wires _ _ (pageTxns_no_rewrite _ _)

/-- Pages leave the Command Unit and every message between blocks (R171, R157). -/
theorem State.writePages_keeps (n : Nat) : ∀ s : State,
    (State.writePages n s).cmd = s.cmd ∧ (State.writePages n s).wires = s.wires := by
  induction n with
  | zero => exact fun s => ⟨rfl, rfl⟩
  | succ n ih =>
    intro s
    obtain ⟨hcmd, hwires⟩ := ih s.writePage
    exact ⟨hcmd.trans s.writePage_cmd, hwires.trans s.writePage_wires⟩

/-- What pages leave of the blocks, the fields of `State.writePages_frame` that a run's end is stated with. -/
theorem State.writePages_blocks (n : Nat) (s : State) :
    (State.writePages n s).epoch = s.epoch ∧ (State.writePages n s).travel = s.travel ∧
      (State.writePages n s).lanes = s.lanes ∧ (State.writePages n s).engine = s.engine ∧
      (State.writePages n s).asm = s.asm ∧ (State.writePages n s).planner = s.planner ∧
      (State.writePages n s).strike = s.strike ∧ (State.writePages n s).grading = s.grading ∧
      (State.writePages n s).shift = s.shift ∧ (State.writePages n s).path.runState = s.path.runState ∧
      (State.writePages n s).writer.logs = s.writer.logs := by
  simp only [State.writePages_frame, and_self]

/-! ### The run reset block by block -/

/-- The increments a run reset sends: one for each piece not yet graded (R80, R128). -/
def State.abandonments (s : State) : List (Sender × Increment) :=
  List.replicate s.planner.abandonedCount (.planner, .abandoned) ++
    List.replicate s.grading.abandonedCount (.grading, .abandoned)

theorem Grading.abandonedCount_eq (g : Grading) :
    g.abandonedCount = g.queue.length + (match g.state with | .gathering _ => 1 | _ => 0) := by
  unfold Grading.abandonedCount
  cases g.state <;> rfl

theorem State.runReset_wires (s : State) :
    s.runReset.wires = { s.wires with increments := s.wires.increments ++ s.abandonments } := by
  have h : s.runReset.wires = { s.wires with increments :=
      s.wires.increments ++ (List.replicate s.planner.abandonedCount Increment.abandoned).map (fun i => (Sender.planner, i)) ++
        (List.replicate s.grading.abandonedCount Increment.abandoned).map (fun i => (Sender.grading, i)) } := rfl
  rw [h, List.map_replicate, List.map_replicate, List.append_assoc]
  rfl

theorem State.append_abandonments (incs : List (Sender × Increment)) (s : State) :
    incs ++ s.abandonments = incs ++
      List.replicate ((s.planner.pieces.filter fun q =>
          decide (q.state = .planned) || decide (q.state = .committed)).length +
        (if s.planner.openPiece.isSome then 1 else 0)) (.planner, .abandoned) ++
      List.replicate (s.grading.queue.length + (match s.grading.state with | .gathering _ => 1 | _ => 0))
        (.grading, .abandoned) := by
  rw [State.abandonments, ← List.append_assoc, Grading.abandonedCount_eq]
  rfl

/-- What a run reset makes of the blocks that keep nothing of the run (R16, R79, R101, R114, R128). -/
theorem State.runReset_blocks (s : State) :
    s.runReset.epoch = s.epoch + 1 ∧ s.runReset.travel = s.travel.runReset ∧ s.runReset.engine = s.engine.runReset ∧
      s.runReset.asm = s.asm.runReset ∧ s.runReset.planner = s.planner.runReset ∧
      s.runReset.strike = s.strike.runReset ∧ s.runReset.grading = s.grading.runReset := by
  simp [State.runReset, State.writerRunReset, State.gradingRunReset, State.plannerRunReset]

theorem State.runReset_lane (s : State) (k : LaneId) :
    s.runReset.lanes[k] = s.lanes[k].runReset s.lanes[k].runState := by
  show (s.lanes.map fun l => l.runReset l.runState)[k] = _
  simp

theorem Engine.runReset_lane (e : Engine) (k : LaneId) :
    e.runReset.lanes[k] = { e.lanes[k] with join := [], crowded := 0 } :=
  foldl_upd_allLanes (fun _ (st : EngineLane) => { st with join := [], crowded := 0 }) e.lanes k

theorem LogId.idx_ne_plate : ∀ l : LogId, l ≠ .plate → l.idx ≠ LogId.plate.idx := by
  intro l
  cases l <;> decide

/-- A run reset clears the refused mark of the Plate Log alone (R169). -/
theorem State.runReset_log (s : State) (l : LogId) :
    s.runReset.writer.logs[l.idx] =
      if l = .plate then { s.writer.logs[l.idx] with refused := false } else s.writer.logs[l.idx] := by
  show (upd s.writer.logs LogId.plate.idx fun _ => { s.writer.logs[LogId.plate.idx] with refused := false })[l.idx] = _
  split
  · rename_i h
    subst h
    exact upd_same _ _ _
  · rename_i h
    exact upd_other _ _ _ _ (LogId.idx_ne_plate l h)

/-! ### Run states handed on -/

theorem State.handRunState_lane (s : State) (st : RunState) (k : LaneId) :
    (s.handRunState st).lanes[k] = { s.lanes[k] with runState := st } := by
  show (s.lanes.map fun l => { l with runState := st })[k] = _
  simp

/-- A run state that every block holds already is handed on without effect (R162). -/
theorem State.handRunState_self {s : State} (h : s.runStatesAgree) : s.handRunState s.cmd.runState = s := by
  obtain ⟨hlanes, hshift, hpath⟩ := h
  have hl : (s.handRunState s.cmd.runState).lanes = s.lanes :=
    vector_ext_fin fun k => by rw [State.handRunState_lane, ← hlanes k]
  have hs : (s.handRunState s.cmd.runState).shift = s.shift := by simp only [State.handRunState, ← hshift]
  have hp : (s.handRunState s.cmd.runState).path = s.path := by simp only [State.handRunState, ← hpath]
  show { s.handRunState s.cmd.runState with lanes := (s.handRunState s.cmd.runState).lanes
                                            shift := (s.handRunState s.cmd.runState).shift
                                            path := (s.handRunState s.cmd.runState).path } = s
  rw [hl, hs, hp]
  rfl

theorem State.runReset_runStatesAgree {s : State} (h : s.runStatesAgree) : s.runReset.runStatesAgree := by
  obtain ⟨hlanes, hshift, hpath⟩ := h
  refine ⟨fun k => ?_, ?_, ?_⟩
  · rw [State.runReset_lane]
    simp only [State.runReset_frame]
    exact hlanes k
  · simpa only [State.runReset_frame] using hshift
  · simpa only [State.runReset_frame] using hpath

/-- RESET_RUN outside TRANSPARENT: the run reset, CONFIGURED in every block that holds the run state, and the pages (R164). -/
theorem resetRun_eq {s : State} (hst : s.cmd.runState ≠ .transparent) (h : s.runStatesAgree) :
    ∃ n, resetRun s = (none, State.writePages n (s.runReset.handRunState .configured)) := by
  unfold resetRun
  split
  · rename_i htr
    exact absurd htr hst
  · rename_i hcf
    have hself := State.handRunState_self (State.runReset_runStatesAgree h)
    simp only [State.runReset_frame, hcf] at hself
    exact ⟨0, by rw [hself]; rfl⟩
  all_goals exact ⟨s.activeLanes + 1, rfl⟩

theorem exec_resetRun {s : State} {n : Nat} {bytes : List Byte} (hr : s.inReset = false)
    (he : s.cmd.execution = some { slot := n, phase := .ready bytes }) (hk : byteAt bytes 0 = 4) :
    exec .resetRun s = .next ((resetRun s).2.finishCommand n (resetRun s).1) :=
  congrArg Host.Outcome.next (onCommand_taken hr he (by simp [commandKind, hk]))

/-! ### The end of a run -/

/-- The snaps of a closed track not yet given are given as one pulse each (R112). -/
theorem Strike.closeEntries_pulses (es : List TrackEntry) (t : Strike) :
    (es.foldl Strike.closeEntry t).snap.asserted =
      t.snap.asserted + (es.filter fun e => decide (e.snap = .waiting)).length := by
  induction es generalizing t with
  | nil => rfl
  | cons e rest ih =>
    rw [List.foldl_cons, ih, Strike.closeEntry]
    by_cases h : e.snap = .waiting
    · rw [if_pos h, List.filter_cons_of_pos (by simpa using h)]
      simp only [OutputLine.pulse, List.length_cons]
      omega
    · rw [if_neg h, List.filter_cons_of_neg (by simpa using h)]

/-- The Strike Unit closed: empty, its outputs released, and a pulse of SNAP for each snap not yet given (R112). -/
theorem Strike.close_state (t : Strike) :
    t.close.track = [] ∧ t.close.gates = [] ∧ t.close.offered = none ∧ t.close.claiming = none ∧
      t.close.score.level = false ∧ t.close.snap.level = false ∧ t.close.gate.level = false ∧
      t.close.snap.asserted = t.snap.asserted + (t.track.filter fun e => decide (e.snap = .waiting)).length :=
  ⟨rfl, rfl, rfl, rfl, rfl, rfl, rfl, Strike.closeEntries_pulses t.track t⟩

theorem exec_runEndCompletion {s : State} {rest : List (Tagged Unit)} (hr : s.inReset = false)
    (hw : s.wires.runEnds = { epoch := s.epoch, msg := () } :: rest) :
    exec .runEndCompletion s = .next (takeRunEnd { s with wires := { s.wires with runEnds := rest } }) :=
  congrArg Host.Outcome.next (receive_taken hr hw)

theorem takeRunEnd_draining {s : State} (h : s.cmd.runState = .draining) :
    takeRunEnd s = State.writePages 1 { s.handRunState .configured with
      strike := s.strike.close, planner := { s.planner with runEnd := .none } } := by
  simp only [takeRunEnd, h]
  rfl

theorem takeRunEnd_discarded {s : State} (h : s.cmd.runState ≠ .draining) : takeRunEnd s = s := by
  unfold takeRunEnd
  split
  · exact absurd ‹_› h
  all_goals rfl

/-- Settles O56: RESET_RUN is the run reset of every block, the run state handed on and the pages (`resetRun_eq`); the run end
is the Strike Unit closed (`Strike.close_state`). -/
theorem runsAreResetAndEnd : Obligations.RunsAreResetAndEnd := by
  refine ⟨fun n bytes s hr he hk hst hagree => ?_, fun rest s hr hw => ?_⟩
  · obtain ⟨m, hreset⟩ := resetRun_eq hst hagree
    obtain ⟨hepoch, htravel, hengine, hasm, hplanner, hstrike, hgrading⟩ := s.runReset_blocks
    obtain ⟨hcmd, hwires⟩ := State.writePages_keeps m (s.runReset.handRunState .configured)
    refine ⟨_, exec_resetRun hr he hk, ?_⟩
    rw [hreset]
    obtain ⟨pepoch, ptravel, planes, pengine, pasm, pplanner, pstrike, pgrading, pshift, ppath, plogs⟩ :=
      State.writePages_blocks m (s.runReset.handRunState .configured)
    have hlanes := fun k : LaneId => (State.handRunState_lane s.runReset .configured k).trans
      (congrArg (fun l : Lane => { l with runState := .configured }) (s.runReset_lane k))
    refine ⟨?_, pshift.trans rfl, ppath, pepoch.trans hepoch, ptravel.trans htravel, fun k => ⟨?_, ?_⟩, ?_, ?_,
      pasm.trans hasm, pplanner.trans hplanner, pstrike.trans hstrike, pgrading.trans hgrading, fun l => ?_, ?_⟩
    · exact congrArg (fun c : Command => { c with execution := some { slot := n, phase := .finished none } }) hcmd
    · exact (congrArg (·[k]) planes).trans (hlanes k)
    · exact (congrArg (fun e : Engine => e.lanes[k]) (pengine.trans hengine)).trans (Engine.runReset_lane _ k)
    · exact congrArg Engine.analysis (pengine.trans hengine)
    · exact congrArg Engine.ready (pengine.trans hengine)
    · exact (congrArg (·[l.idx]) plogs).trans (s.runReset_log l)
    · exact (hwires.trans s.runReset_wires).trans (by rw [State.append_abandonments] <;> rfl)
  · rw [exec_runEndCompletion hr hw]
    split
    · rename_i hdr
      rw [takeRunEnd_draining (s := { s with wires := { s.wires with runEnds := rest } }) hdr]
      obtain ⟨htrack, hgates, hoff, hclaim, hscore, hsnap, hgate, hpulses⟩ := s.strike.close_state
      refine ⟨_, rfl, ?_, ?_, ?_, ?_, fun k => ?_, ?_, ?_, ?_, ?_, ?_, ?_, ?_, ?_, ?_, ?_⟩
      · simp [State.writePages_keeps, State.handRunState]
      all_goals simp [State.writePages_keeps, State.handRunState, State.writePages_pageSeq, *]
    · rename_i hdr
      rw [takeRunEnd_discarded (s := { s with wires := { s.wires with runEnds := rest } }) hdr]

end Sys2Proof.Machine
end

section
/-! START_RUN: the run reset, the new run number, the eligible copies and the entry to RUNNING (R164). -/

namespace Sys2Proof.Machine

theorem Copies.activate_activate {α : Type} (c : Copies α) : c.activate.activate = c.activate := by
  unfold Copies.activate
  cases h : c.eligible <;> simp [h]

/-! ### The blocks as a run finds them -/

/-- A lane just reset enters RUNNING: WAITING when it is enabled, OFF when not (R31, R37). -/
theorem Lane.enterRun_runReset (st : RunState) (l : Lane) :
    (l.runReset st).enterRun.lane =
      { Lane.powerOn with enabled := l.enabled, runState := .running, state := if l.enabled then .waiting else .off } := by
  cases h : l.enabled <;> simp [Lane.enterRun, Lane.runReset, Lane.step, LaneStep.enter, Lane.powerOn, h]

/-- The Planner as a run begins: the LEAD piece with its cut at 0, the open piece at 0, and Cf one reach below 0 (R85). -/
def Planner.begun (p : Planner) (reach : Nat) (g : PlanGroup) : Planner :=
  { pieces := [{ number := 1, kind := .lead, head := none, tail := 0, state := .planned, sizes := g }]
    openPiece := some { head := 0, sizes := g }
    cuts := [{ pos := 0, kind := .runStart, committed := false }]
    nextPiece := 2, frontier := 0, cf := some (-(reach : Int)), overdue := false,
    runEnd := .none, markedLate := [], markedUnplanned := [], numbersPast := p.numbersPast }

/-- A Planner just reset enters RUNNING: the LEAD piece placed, its cut offered, and the open piece scanned (R85, R103). -/
theorem PlanStep.enterRun_runReset (c : PlanContext) (p : Planner) {plan : Copies PlanGroup} {g : PlanGroup}
    (h : plan.activate.inUse = some g) :
    PlanStep.enterRun c { p := p.runReset, plan := plan, toAsm := [], toStrike := [], incs := [] } =
      { p := p.begun c.reach g, plan := plan.activate, toAsm := [.scan 0 g.l1 g.level], toStrike := [.offer (some 0)]
        incs := [] } := by
  simp [PlanStep.enterRun, h, PlanStep.place, PlanStep.createOpen, PlanStep.change, PlanStep.offerChange, Planner.headCut,
    Planner.place, Planner.countPiece, nextNumber, Planner.runReset, Planner.powerOn, Planner.begun, PieceKind.cutKind]

/-! ### START_RUN -/

/-- The state a START_RUN enters RUNNING from: reset, under the next run number, with every eligible copy active (R164). -/
def State.runBegun (s : State) : State :=
  (s.runReset.setShift s.shift.newRun).setCmd { s.cmd.activateAll with run := s.shift.run + 1 }

/-- The entry to RUNNING before the Planner takes it: run state, travel and lanes (R17, R31, R162). -/
def State.runEntered (s : State) (sh : Shadow) : State :=
  (State.stepLanes { s.handRunState .running with travel := s.travel.enter sh.travel } Lane.enterRun).1

/-- The Planner's part in the entry to RUNNING: the first piece and its cut, the open piece scanned, the cut offered (R85). -/
def State.planBegun (s : State) (p : Planner) (reach : Nat) (g : PlanGroup) : State :=
  { s with
    planner := p.begun reach g
    cmd := { s.cmd with plan := s.cmd.plan.activate }
    wires := { s.wires with
      plannerAsm := s.wires.plannerAsm ++ [s.tag (.scan 0 g.l1 g.level)]
      plannerStrike := s.wires.plannerStrike ++ [s.tag (.offer (some 0))] } }

theorem State.finishPlan_enterRun {s : State} {p : Planner} {g : PlanGroup} (sh : Shadow) (hp : s.planner = p.runReset)
    (hg : s.cmd.plan.activate.inUse = some g) :
    s.finishPlan (s.planStep.enterRun (s.planContext sh)) = s.planBegun p (sh.dCut - sh.dCommit) g := by
  rw [State.planStep, hp, PlanStep.enterRun_runReset _ p hg]
  simp [State.finishPlan, State.sendIncrements, State.wire, State.planBegun, State.tagAll, State.planContext]

theorem State.runEntered_plan (s : State) (sh : Shadow) :
    (s.runBegun.runEntered sh).cmd.plan.activate = s.cmd.plan.activate :=
  Copies.activate_activate _

theorem startRun_eq {s : State} {sh : Shadow} {g : PlanGroup} (hst : s.cmd.runState = .configured)
    (hsh : s.cmd.shadow = some sh) (hg : s.cmd.plan.activate.inUse = some g) :
    ∃ n, startRun s = (none, State.writePages n
      ((s.runBegun.runEntered sh).planBegun s.planner (sh.dCut - sh.dCommit) g)) := by
  have hstart : startRun s = (none, s.runBegun.enterRunning sh) := by
    unfold startRun
    rw [hst, hsh]
    rfl
  rw [hstart, ← State.finishPlan_enterRun (s := s.runBegun.runEntered sh) sh rfl (s.runEntered_plan sh ▸ hg)]
  exact ⟨_, rfl⟩

theorem exec_startRun {s : State} {n : Nat} {bytes : List Byte} (hr : s.inReset = false)
    (he : s.cmd.execution = some { slot := n, phase := .ready bytes }) (hk : byteAt bytes 0 = 2) :
    exec .startRun s = .next ((startRun s).2.finishCommand n (startRun s).1) :=
  congrArg Host.Outcome.next (onCommand_taken hr he (by simp [commandKind, hk]))

/-! ### The blocks once the run has begun -/

theorem State.runEntered_lane (s : State) (sh : Shadow) (k : LaneId) :
    (s.runBegun.runEntered sh).lanes[k] =
      { Lane.powerOn with
        enabled := s.lanes[k].enabled, runState := .running, state := if s.lanes[k].enabled then .waiting else .off } := by
  have h : (s.runBegun.runEntered sh).lanes = ((s.runReset.handRunState .running).lanes.map Lane.enterRun).map (·.lane) := rfl
  simp only [h, Fin.getElem_fin, Vector.getElem_map]
  have hk := State.handRunState_lane s.runReset .running k
  rw [State.runReset_lane] at hk
  simp only [Fin.getElem_fin] at hk
  rw [hk]
  exact Lane.enterRun_runReset .running s.lanes[k]

theorem State.runEntered_travel (s : State) (sh : Shadow) :
    (s.runBegun.runEntered sh).travel = s.travel.runReset.enter sh.travel := rfl

/-- The Shift Unit takes the run number before the run state, and its tally sees the run (R138, R164). -/
theorem State.runEntered_shift (s : State) (sh : Shadow) :
    (s.runBegun.runEntered sh).shift = { s.shift with
      runState := .running, run := s.shift.run + 1
      tally := { s.shift.tally with
        runs := some
          { first := match s.shift.tally.runs with | none => s.shift.run + 1 | some r => r.first,
            last := s.shift.run + 1 } } } := by
  have h : (s.runBegun.runEntered sh).shift = { s.shift.newRun with runState := .running } := rfl
  rw [h, Shift.newRun]
  cases s.shift.tally.runs <;> rfl

theorem State.runEntered_wires (s : State) (sh : Shadow) :
    (s.runBegun.runEntered sh).wires = { s.wires with increments := s.wires.increments ++ s.abandonments } :=
  s.runReset_wires

theorem State.planBegun_wires (s : State) (sh : Shadow) (reach : Nat) (g : PlanGroup) :
    ((s.runBegun.runEntered sh).planBegun s.planner reach g).wires = { s.wires with
      plannerAsm := s.wires.plannerAsm ++
        [((s.runBegun.runEntered sh).planBegun s.planner reach g).tag (.scan 0 g.l1 g.level)]
      plannerStrike := s.wires.plannerStrike ++
        [((s.runBegun.runEntered sh).planBegun s.planner reach g).tag (.offer (some 0))]
      increments := s.wires.increments ++ s.abandonments } := by
  simp only [State.planBegun, State.tag, s.runEntered_wires]

theorem State.tag_finishCommand {α : Type} (s : State) (n : Nat) (r : Option Reason) (x : α) :
    (s.finishCommand n r).tag x = s.tag x := rfl

theorem State.tag_writePages {α : Type} (n : Nat) (s : State) (x : α) : (State.writePages n s).tag x = s.tag x := by
  simp only [State.tag, State.writePages_frame]

end Sys2Proof.Machine
end

section
/-! The flush of the open blobs: the order of closure, and the flaws of a row of closures (R69 to R73, R76). -/

namespace Sys2Proof.Machine

/-! ### Lists kept in order -/

theorem insertBy_perm {α : Type} (before : α → α → Bool) (a : α) (l : List α) : (insertBy before a l).Perm (a :: l) := by
  induction l with
  | nil => exact .refl _
  | cons b rest ih =>
    unfold insertBy
    split
    · exact .refl _
    · exact (ih.cons b).trans (.swap a b rest)

theorem sortBy_perm {α : Type} (before : α → α → Bool) (l : List α) : (sortBy before l).Perm l := by
  induction l with
  | nil => exact .refl _
  | cons a rest ih => exact (insertBy_perm before a _).trans (ih.cons a)

/-- An item goes in before the first that comes after it, so an order that the rank test decides is kept. -/
theorem insertBy_pairwise {α : Type} {before : α → α → Bool} {R : α → α → Prop} (htrans : ∀ a b c, R a b → R b c → R a c)
    (hyes : ∀ a b, before a b = true → R a b) (hno : ∀ a b, ¬ before a b = true → R b a) (a : α) {l : List α}
    (hl : l.Pairwise R) : (insertBy before a l).Pairwise R := by
  induction l with
  | nil => exact List.pairwise_singleton R a
  | cons b rest ih =>
    obtain ⟨hb, hrest⟩ := List.pairwise_cons.mp hl
    unfold insertBy
    split
    · rename_i h
      have hab := hyes a b h
      exact List.pairwise_cons.mpr
        ⟨List.forall_mem_cons.mpr ⟨hab, fun c hc => htrans a b c hab (hb c hc)⟩, hl⟩
    · rename_i h
      refine List.pairwise_cons.mpr ⟨fun c hc => ?_, ih hrest⟩
      rcases List.mem_cons.mp ((insertBy_perm before a rest).mem_iff.mp hc) with rfl | hc
      · exact hno c b h
      · exact hb c hc

theorem sortBy_pairwise {α : Type} {before : α → α → Bool} {R : α → α → Prop} (htrans : ∀ a b c, R a b → R b c → R a c)
    (hyes : ∀ a b, before a b = true → R a b) (hno : ∀ a b, ¬ before a b = true → R b a) (l : List α) :
    (sortBy before l).Pairwise R := by
  induction l with
  | nil => exact .nil
  | cons a rest ih => exact insertBy_pairwise htrans hyes hno a ih

/-- The order in which a flush closes the open blobs (R69). -/
def Blob.notLater (b o : Blob) : Prop := b.first < o.first ∨ (b.first = o.first ∧ b.id ≤ o.id)

theorem sortBy_earlier_pairwise (bs : List Blob) : (sortBy Blob.earlier bs).Pairwise Blob.notLater :=
  sortBy_pairwise (fun a b c => by unfold Blob.notLater; omega)
    (fun a b h => by simp only [Blob.earlier, Bool.or_eq_true, Bool.and_eq_true, decide_eq_true_eq] at h
                     unfold Blob.notLater; omega)
    (fun a b h => by simp only [Blob.earlier, Bool.or_eq_true, Bool.and_eq_true, decide_eq_true_eq] at h
                     unfold Blob.notLater; omega) bs

theorem insertBy_before_inOrder (f : FlawEntry) {table : List FlawEntry} (h : table.Pairwise FlawEntry.inOrder) :
    (insertBy FlawEntry.before f table).Pairwise FlawEntry.inOrder :=
  insertBy_pairwise (fun a b c => by unfold FlawEntry.inOrder; omega)
    (fun a b h => by simp only [FlawEntry.before, Bool.or_eq_true, Bool.and_eq_true, decide_eq_true_eq] at h
                     unfold FlawEntry.inOrder; omega)
    (fun a b h => by simp only [FlawEntry.before, Bool.or_eq_true, Bool.and_eq_true, decide_eq_true_eq] at h
                     unfold FlawEntry.inOrder; omega) f h

/-! ### One closure -/

/-- The flaw that a blob becomes when the assembler closes it (R70 to R72). -/
def Assembler.flawOf (c : JoinContext) (a : Assembler) (b : Blob) : FlawRecord :=
  b.flushedAs c.pitch c.detect c.run a.nextFlaw (disposition c a b ((b.first * c.pitch + (b.front + 1) * c.pitch) / 2))

/-- The assembler once a flaw is counted: a HELD one in the table, an UNHELD one in the overflow span (R70, R73, R76). -/
def Assembler.takeFlaw (a : Assembler) (r : FlawRecord) : Assembler :=
  { a.countFlaw with
    table := if r.disposition = .held then insertBy FlawEntry.before r.entry a.table else a.table
    overflow := if r.disposition = .unheld then some (widen a.overflow r.midpoint) else a.overflow }

theorem polarityOf_eq (dark bright : Bool) :
    polarityOf dark bright = if dark = true ∧ bright = true then .mixed else if bright = true then .bright else .dark := by
  cases dark <;> cases bright <;> rfl

theorem AsmStep.close_eq (c : JoinContext) (r : AsmStep) (b : Blob) :
    r.close c b =
      { asm := r.asm.takeFlaw (r.asm.flawOf c b)
        planner := r.planner ++
          (if (r.asm.flawOf c b).disposition = .held then [.heldFlaw (r.asm.flawOf c b).entry] else [])
        records := r.records ++ [r.asm.flawOf c b]
        incs := r.incs ++ [(r.asm.flawOf c b).increment] } := by
  unfold AsmStep.close Assembler.flawOf
  dsimp only
  rw [polarityOf_eq]
  generalize disposition c r.asm b _ = d
  cases d <;> rfl

/-! ### A row of closures -/

/-- The flaws of blobs closed in order (R70 to R72). -/
def Assembler.flawsOf (c : JoinContext) : Assembler → List Blob → List FlawRecord
  | _, [] => []
  | a, b :: rest => a.flawOf c b :: (a.takeFlaw (a.flawOf c b)).flawsOf c rest

/-- The HELD flaws among records. -/
def heldAmong (rs : List FlawRecord) : List FlawRecord := rs.filter fun r => decide (r.disposition = .held)

theorem AsmStep.foldl_close (c : JoinContext) (bs : List Blob) : ∀ r : AsmStep,
    bs.foldl (AsmStep.close c) r =
      { asm := (r.asm.flawsOf c bs).foldl Assembler.takeFlaw r.asm
        planner := r.planner ++ (heldAmong (r.asm.flawsOf c bs)).map fun x => .heldFlaw x.entry
        records := r.records ++ r.asm.flawsOf c bs
        incs := r.incs ++ (r.asm.flawsOf c bs).map FlawRecord.increment } := by
  induction bs with
  | nil => intro r; simp [Assembler.flawsOf, heldAmong]
  | cons b rest ih =>
    intro r
    rw [List.foldl_cons, ih, AsmStep.close_eq]
    by_cases h : (r.asm.flawOf c b).disposition = .held <;> simp [Assembler.flawsOf, heldAmong, h]

theorem Assembler.flawsOf_length (c : JoinContext) (bs : List Blob) : ∀ a : Assembler,
    (a.flawsOf c bs).length = bs.length := by
  induction bs with
  | nil => exact fun _ => rfl
  | cons b rest ih => exact fun a => congrArg (· + 1) (ih _)

/-- Each flaw is the one its blob becomes once the flaws before it are counted. -/
theorem Assembler.flawsOf_getElem? (c : JoinContext) : ∀ (bs : List Blob) (a : Assembler) {i : Nat} {b : Blob} {r : FlawRecord},
    bs[i]? = some b → (a.flawsOf c bs)[i]? = some r →
      r = (((a.flawsOf c bs).take i).foldl Assembler.takeFlaw a).flawOf c b := by
  intro bs
  induction bs with
  | nil => intro a i b r hb; simp at hb
  | cons b' rest ih =>
    intro a i b r hb hr
    cases i with
    | zero =>
      simp only [Assembler.flawsOf, List.getElem?_cons_zero, Option.some.injEq] at hb hr
      rw [← hr, ← hb]
      rfl
    | succ i =>
      simp only [Assembler.flawsOf, List.getElem?_cons_succ] at hb hr
      exact ih _ hb hr

/-! ### The assembler after a row of flaws -/

/-- Counting flaws touches the numbering, the table and the overflow span alone. -/
theorem Assembler.foldl_takeFlaw_frame (rs : List FlawRecord) : ∀ a : Assembler,
    rs.foldl Assembler.takeFlaw a = { a with
      nextFlaw := (rs.foldl Assembler.takeFlaw a).nextFlaw
      table := (rs.foldl Assembler.takeFlaw a).table
      overflow := (rs.foldl Assembler.takeFlaw a).overflow
      numbersPast := (rs.foldl Assembler.takeFlaw a).numbersPast } := by
  induction rs with
  | nil => exact fun _ => rfl
  | cons r rest ih => exact fun a => ih (a.takeFlaw r)

theorem Assembler.foldl_takeFlaw_perm (rs : List FlawRecord) : ∀ a : Assembler,
    (rs.foldl Assembler.takeFlaw a).table.Perm ((heldAmong rs).map FlawRecord.entry ++ a.table) := by
  induction rs with
  | nil => exact fun a => .refl _
  | cons r rest ih =>
    intro a
    refine (ih (a.takeFlaw r)).trans ?_
    by_cases h : r.disposition = .held
    · have htable : (a.takeFlaw r).table = insertBy FlawEntry.before r.entry a.table := if_pos h
      rw [htable, heldAmong, heldAmong, List.filter_cons_of_pos (by simpa using h), List.map_cons, List.cons_append]
      exact ((insertBy_perm _ _ _).append_left _).trans List.perm_middle
    · have htable : (a.takeFlaw r).table = a.table := if_neg h
      rw [htable, heldAmong, heldAmong, List.filter_cons_of_neg (by simpa using h)]

theorem Assembler.foldl_takeFlaw_inOrder (rs : List FlawRecord) : ∀ {a : Assembler},
    a.table.Pairwise FlawEntry.inOrder → (rs.foldl Assembler.takeFlaw a).table.Pairwise FlawEntry.inOrder := by
  induction rs with
  | nil => exact fun h => h
  | cons r rest ih =>
    intro a h
    refine ih (a := a.takeFlaw r) ?_
    unfold Assembler.takeFlaw
    dsimp only
    split
    · exact insertBy_before_inOrder r.entry h
    · exact h

/-- The UNHELD flaws widen the overflow span in turn (R76). -/
theorem Assembler.foldl_takeFlaw_overflow (rs : List FlawRecord) : ∀ a : Assembler,
    (rs.foldl Assembler.takeFlaw a).overflow =
      (rs.filter fun r => decide (r.disposition = .unheld)).foldl (fun o r => some (widen o r.midpoint)) a.overflow := by
  induction rs with
  | nil => exact fun _ => rfl
  | cons r rest ih =>
    intro a
    refine (ih (a.takeFlaw r)).trans ?_
    by_cases h : r.disposition = .unheld
    · have hspan : (a.takeFlaw r).overflow = some (widen a.overflow r.midpoint) := if_pos h
      rw [hspan, List.filter_cons_of_pos (by simpa using h), List.foldl_cons]
    · have hspan : (a.takeFlaw r).overflow = a.overflow := if_neg h
      rw [hspan, List.filter_cons_of_neg (by simpa using h)]

/-- Flaws are numbered one after another up to the last 32-bit number (R70). -/
theorem Assembler.foldl_takeFlaw_nextFlaw (rs : List FlawRecord) : ∀ a : Assembler,
    a.nextFlaw + rs.length ≤ max32 → (rs.foldl Assembler.takeFlaw a).nextFlaw = a.nextFlaw + rs.length := by
  induction rs with
  | nil => exact fun _ _ => rfl
  | cons r rest ih =>
    intro a h
    rw [List.length_cons] at h ⊢
    have hnext : (a.takeFlaw r).nextFlaw = a.nextFlaw + 1 := if_pos (by omega)
    rw [List.foldl_cons, ih _ (by omega), hnext]
    omega

end Sys2Proof.Machine
end

section
/-! STOP_RUN: lanes OFF, the engine emptied, the open blobs flushed, DRAINING entered (R31, R43, R69, R164); and with it O55. -/

namespace Sys2Proof.Machine

/-! ### The flush -/

/-- The flaws of the flush: one of each open blob, in the order of closure (R69). -/
def Assembler.flushed (c : JoinContext) (a : Assembler) : List FlawRecord :=
  Assembler.flawsOf c { a with blobs := [] } (sortBy Blob.earlier a.blobs)

theorem Assembler.flush_eq (c : JoinContext) (a : Assembler) :
    a.flush c =
      { asm := { (a.flushed c).foldl Assembler.takeFlaw { a with blobs := [] } with markers := [] }
        planner := ((heldAmong (a.flushed c)).map FlawRecord.entry).map AsmMsg.heldFlaw ++ [.flushEnd]
        records := a.flushed c
        incs := (a.flushed c).map FlawRecord.increment } := by
  simp [Assembler.flush, AsmStep.foldl_close, Assembler.step, Assembler.flushed, Function.comp_def]

/-- The flush empties the open blobs and the markers, counts its flaws, and leaves the rest of the assembler (R69). -/
theorem Assembler.flush_asm {c : JoinContext} {a x : Assembler} (h : x = (a.flush c).asm) :
    x = { a with
      blobs := [], markers := [], nextFlaw := x.nextFlaw, table := x.table
      overflow := ((a.flushed c).filter fun r => decide (r.disposition = .unheld)).foldl
        (fun o r => some (widen o r.midpoint)) a.overflow
      numbersPast := x.numbersPast } := by
  rw [h, Assembler.flush_eq, Assembler.foldl_takeFlaw_frame, Assembler.foldl_takeFlaw_overflow]

/-- Each flaw of the flush is its blob's, with the next number and the disposition that the flaws before it leave (R70 to R72). -/
theorem Assembler.flushed_getElem? (c : JoinContext) (a : Assembler) {i : Nat} {b : Blob} {r : FlawRecord}
    (hb : (sortBy Blob.earlier a.blobs)[i]? = some b) (hr : (a.flushed c)[i]? = some r) :
    r = b.flushedAs c.pitch c.detect c.run r.number
        (if b.hi < c.netLo ∨ c.netHi < b.lo then .edge
         else if a.gradedTail.any (fun x => decide (r.midpoint < x)) then .orphan
         else if a.table.length + (heldAmong ((a.flushed c).take i)).length < 512 then .held
         else .unheld) ∧
      (a.nextFlaw + i ≤ max32 → r.number = a.nextFlaw + i) := by
  let before := (a.flushed c).take i
  let u := before.foldl Assembler.takeFlaw { a with blobs := [] }
  have hlen : before.length = i := by
    have hi : i < (a.flushed c).length := (List.getElem?_eq_some_iff.mp hr).1
    exact List.length_take_of_le hi.le
  have hflaw : r = u.flawOf c b := Assembler.flawsOf_getElem? c _ _ hb hr
  have hframe := Assembler.foldl_takeFlaw_frame before { a with blobs := [] }
  have htail : u.gradedTail = a.gradedTail := (congrArg Assembler.gradedTail hframe :)
  have htable : u.table.length = a.table.length + (heldAmong before).length := by
    have hperm := (Assembler.foldl_takeFlaw_perm before { a with blobs := [] }).length_eq
    rw [List.length_append, List.length_map] at hperm
    exact hperm.trans (Nat.add_comm _ _)
  have hnumber : r.number = u.nextFlaw := by rw [hflaw]; rfl
  refine ⟨?_, fun h => ?_⟩
  · have hmid : r.midpoint = (b.first * c.pitch + (b.front + 1) * c.pitch) / 2 := by rw [hflaw]; rfl
    rw [hnumber, hmid]
    refine hflaw.trans (congrArg (Blob.flushedAs b c.pitch c.detect c.run u.nextFlaw) ?_)
    unfold disposition
    rw [htail, htable]
    cases a.gradedTail <;> rfl
  · rw [hnumber, ← hlen]
    exact Assembler.foldl_takeFlaw_nextFlaw before { a with blobs := [] } (hlen.symm ▸ h)

/-! ### The lanes -/

/-- A value of a lane that its two buffers do not enter is kept when one is replaced. -/
theorem Lane.setBuffer_keeps {β : Type} (f : Lane → β) (hf : ∀ (l : Lane) a b, f { l with bufA := a, bufB := b } = f l)
    (l : Lane) (i : BufferId) (v : Buffer) : f (l.setBuffer i v) = f l := by
  cases i
  · exact hf l v l.bufB
  · exact hf l l.bufA v

/-- Leaving RUNNING a lane is OFF with no line in progress, and keeps what it has settled and counted (R31). -/
theorem Lane.leaveRun_lane (st : RunState) (l : Lane) :
    (l.leaveRun st).lane.state = .off ∧ (l.leaveRun st).lane.line = none ∧ (l.leaveRun st).lane.runState = st ∧
      (l.leaveRun st).lane.settled = l.settled ∧ (l.leaveRun st).lane.counters = l.counters := by
  have hab : l.abandon.line = none ∧ l.abandon.settled = l.settled ∧ l.abandon.counters = l.counters := by
    unfold Lane.abandon
    split
    · exact ⟨‹_›, rfl, rfl⟩
    · exact ⟨rfl, Lane.setBuffer_keeps Lane.settled (fun _ _ _ => rfl) _ _ _,
        Lane.setBuffer_keeps Lane.counters (fun _ _ _ => rfl) _ _ _⟩
  obtain ⟨hline, hsettled, hcounters⟩ := hab
  unfold Lane.leaveRun LaneStep.enter
  split
  · exact ⟨‹_›, hline, rfl, hsettled, hcounters⟩
  · exact ⟨rfl, hline, rfl, hsettled, hcounters⟩

/-- The buffers of a lane list's lines freed (R43). -/
def freeBuffers (es : List ReadyEntry) (lanes : Vector Lane 8) : Vector Lane 8 :=
  es.foldl (fun v e => upd v e.lane (·.freed e.buffer)) lanes

theorem State.freeOutstanding_eq (s : State) :
    s.freeOutstanding = { s with lanes := freeBuffers s.engine.outstanding s.lanes } := by
  unfold State.freeOutstanding freeBuffers
  generalize s.engine.outstanding = es
  induction es generalizing s with
  | nil => rfl
  | cons e rest ih => exact ih _

/-- What freeing one buffer leaves of a lane, freeing any number leaves. -/
theorem freeBuffers_keeps {β : Type} {f : Lane → β} (hf : ∀ l i, f (Lane.freed l i) = f l) (k : LaneId) :
    ∀ (es : List ReadyEntry) (lanes : Vector Lane 8), f (freeBuffers es lanes)[k] = f lanes[k] := by
  intro es
  induction es with
  | nil => exact fun _ => rfl
  | cons e rest ih =>
    intro lanes
    refine (ih _).trans ?_
    by_cases h : k = e.lane
    · rw [h, upd_same, hf]
    · rw [upd_other _ _ _ _ h]

theorem Lane.freed_buffer (l : Lane) (i : BufferId) : (l.freed i).buffer i = Buffer.empty := by
  cases i <;> rfl

theorem Lane.freed_keeps_empty (l : Lane) (i j : BufferId) (h : l.buffer j = Buffer.empty) :
    (l.freed i).buffer j = Buffer.empty := by
  match i, j with
  | .a, .a => rfl
  | .b, .b => rfl
  | .a, .b => exact h
  | .b, .a => exact h

theorem freeBuffers_keeps_empty {k : LaneId} {j : BufferId} : ∀ (es : List ReadyEntry) (lanes : Vector Lane 8),
    lanes[k].buffer j = Buffer.empty → (freeBuffers es lanes)[k].buffer j = Buffer.empty := by
  intro es
  induction es with
  | nil => exact fun _ h => h
  | cons e rest ih =>
    intro lanes h
    refine ih _ ?_
    by_cases hk : k = e.lane
    · rw [hk, upd_same]
      exact Lane.freed_keeps_empty _ _ _ (hk ▸ h)
    · rw [upd_other _ _ _ _ hk]
      exact h

/-- The buffer of every line in the list is empty once they are freed (R43). -/
theorem freeBuffers_empty : ∀ (es : List ReadyEntry) (lanes : Vector Lane 8), ∀ e ∈ es,
    (freeBuffers es lanes)[e.lane].buffer e.buffer = Buffer.empty := by
  intro es
  induction es with
  | nil => intro _ e he; exact absurd he List.not_mem_nil
  | cons e' rest ih =>
    intro lanes e he
    rcases List.mem_cons.mp he with rfl | he
    · refine freeBuffers_keeps_empty rest _ ?_
      rw [upd_same]
      exact Lane.freed_buffer _ _
    · exact ih _ e he

theorem Engine.leaveRun_lane (e : Engine) (k : LaneId) :
    e.leaveRun.lanes[k] = { e.lanes[k] with join := [] } :=
  foldl_upd_allLanes (fun _ (st : EngineLane) => { st with join := [] }) e.lanes k

theorem Engine.outstanding_eq (e : Engine) : e.outstanding = (e.analysis.map (·.entry)).toList ++ e.ready := by
  unfold Engine.outstanding
  cases e.analysis <;> rfl

/-! ### STOP_RUN -/

/-- The state a STOP_RUN flushes the open blobs from (R31, R43, R162). -/
def State.runLeft (s : State) : State :=
  { s.handRunState .draining with
    lanes := freeBuffers s.engine.outstanding
      (((s.handRunState .draining).lanes.map (Lane.leaveRun .draining)).map (·.lane))
    engine := s.engine.leaveRun }

theorem stopRun_eq {s : State} {sh : Shadow} {d : DetectGroup} (hst : s.cmd.runState = .running)
    (hsh : s.cmd.shadow = some sh) (hd : s.cmd.detect.inUse = some d) :
    ∃ n, stopRun s = (none, State.writePages n (s.runLeft.finishAsm (s.asm.flush (s.joinContext sh d)))) := by
  have hstop : stopRun s = (none, s.leaveRunning) := by
    unfold stopRun
    rw [hst]
  have hflush : flushBlobs s.runLeft = s.runLeft.finishAsm (s.asm.flush (s.joinContext sh d)) := by
    unfold flushBlobs
    have h1 : s.runLeft.cmd.shadow = some sh := hsh
    have h2 : s.runLeft.cmd.detect.inUse = some d := hd
    rw [h1, h2]
    rfl
  rw [hstop, ← hflush]
  refine ⟨(State.stepLanes (s.handRunState .draining) (Lane.leaveRun .draining)).2 + 1, ?_⟩
  unfold State.leaveRunning
  dsimp only
  rw [State.freeOutstanding_eq]
  rfl

theorem exec_stopRun {s : State} {n : Nat} {bytes : List Byte} (hr : s.inReset = false)
    (he : s.cmd.execution = some { slot := n, phase := .ready bytes }) (hk : byteAt bytes 0 = 3) :
    exec .stopRun s = .next ((stopRun s).2.finishCommand n (stopRun s).1) :=
  congrArg Host.Outcome.next (onCommand_taken hr he (by simp [commandKind, hk]))

/-- A value of a lane that its two buffers do not enter is, after STOP_RUN, as the lane left RUNNING with it. -/
theorem State.runLeft_keeps {β : Type} (f : Lane → β) (hf : ∀ (l : Lane) a b, f { l with bufA := a, bufB := b } = f l)
    (s : State) (k : LaneId) :
    f s.runLeft.lanes[k] = f (Lane.leaveRun .draining { s.lanes[k] with runState := .draining }).lane := by
  refine (freeBuffers_keeps (fun l i => Lane.setBuffer_keeps f hf l i Buffer.empty) k _ _).trans (congrArg f ?_)
  have hk := s.handRunState_lane .draining k
  simp only [Fin.getElem_fin, Vector.getElem_map] at hk ⊢
  rw [hk]

theorem State.runLeft_lane (s : State) (k : LaneId) :
    s.runLeft.lanes[k].state = .off ∧ s.runLeft.lanes[k].line = none ∧ s.runLeft.lanes[k].runState = .draining ∧
      s.runLeft.lanes[k].settled = s.lanes[k].settled ∧ s.runLeft.lanes[k].counters = s.lanes[k].counters := by
  obtain ⟨hstate, hline, hrun, hsettled, hcounters⟩ :=
    Lane.leaveRun_lane .draining { s.lanes[k] with runState := .draining }
  exact ⟨(s.runLeft_keeps Lane.state (fun _ _ _ => rfl) k).trans hstate,
    (s.runLeft_keeps Lane.line (fun _ _ _ => rfl) k).trans hline,
    (s.runLeft_keeps Lane.runState (fun _ _ _ => rfl) k).trans hrun,
    (s.runLeft_keeps Lane.settled (fun _ _ _ => rfl) k).trans hsettled,
    (s.runLeft_keeps Lane.counters (fun _ _ _ => rfl) k).trans hcounters⟩

/-- Settles O55: START_RUN is its run reset, entry and first piece (`startRun_eq`), STOP_RUN the lanes left and the flush
(`stopRun_eq`, `Assembler.flush_eq`); the pages that follow leave every block. -/
theorem runsBeginAndFlush : Obligations.RunsBeginAndFlush := by
  refine ⟨fun n bytes s sh g hr he hk hst hsh hg => ?_, fun n bytes s sh d hr he hk hst hsh hd => ?_⟩
  · obtain ⟨m, hstart⟩ := startRun_eq hst hsh hg
    let u := (s.runBegun.runEntered sh).planBegun s.planner (sh.dCut - sh.dCommit) g
    obtain ⟨hepoch, htravel, hengine, hasm, hplanner, hstrike, hgrading⟩ := s.runReset_blocks
    obtain ⟨hcmd, hwires⟩ := State.writePages_keeps m u
    obtain ⟨pepoch, ptravel, planes, pengine, pasm, pplanner, pstrike, pgrading, pshift, ppath, plogs⟩ :=
      State.writePages_blocks m u
    refine ⟨_, exec_startRun hr he hk, ?_⟩
    rw [hstart]
    refine ⟨?_, pshift.trans (s.runEntered_shift sh), ppath, ptravel.trans (s.runEntered_travel sh), fun k => ⟨?_, ?_⟩, ?_, ?_,
      pasm.trans hasm, pplanner, pstrike.trans hstrike, pgrading.trans hgrading, fun l => ?_, pepoch.trans hepoch, ?_⟩
    · refine (congrArg (fun c : Command => { c with execution := some { slot := n, phase := .finished none } }) hcmd).trans ?_
      show { (s.runBegun.runEntered sh).cmd with
        plan := (s.runBegun.runEntered sh).cmd.plan.activate
        execution := some { slot := n, phase := .finished none } } = _
      rw [s.runEntered_plan]
      rfl
    · exact (congrArg (·[k]) planes).trans (s.runEntered_lane sh k)
    · exact (congrArg (fun e : Engine => e.lanes[k]) (pengine.trans hengine)).trans (Engine.runReset_lane _ k)
    · exact congrArg Engine.analysis (pengine.trans hengine)
    · exact congrArg Engine.ready (pengine.trans hengine)
    · exact (congrArg (·[l.idx]) plogs).trans (s.runReset_log l)
    · refine hwires.trans ?_
      simp only [State.tag_finishCommand, State.tag_writePages]
      exact (s.planBegun_wires sh _ g).trans (by rw [State.append_abandonments] <;> rfl)
  · obtain ⟨m, hstop⟩ := stopRun_eq hst hsh hd
    let c := s.joinContext sh d
    obtain ⟨hcmd, hwires⟩ := State.writePages_keeps m (s.runLeft.finishAsm (s.asm.flush c))
    obtain ⟨pepoch, ptravel, planes, pengine, pasm, pplanner, pstrike, pgrading, pshift, ppath, plogs⟩ :=
      State.writePages_blocks m (s.runLeft.finishAsm (s.asm.flush c))
    refine ⟨_, sortBy Blob.earlier s.asm.blobs, s.asm.flushed c, exec_stopRun hr he hk, ?_⟩
    rw [hstop]
    refine ⟨?_, pshift, ppath, ptravel, pplanner, pstrike, pgrading, fun k => ?_, ?_, ?_, fun e hmem => ?_,
      sortBy_perm _ _, sortBy_earlier_pairwise _, Assembler.flawsOf_length _ _ _, fun i b r hb hrec => ?_, ?_⟩
    · exact congrArg (fun c : Command => { c with execution := some { slot := n, phase := .finished none } }) hcmd
    · have hlane := congrArg (·[k]) planes
      obtain ⟨hstate, hline, hrun, hsettled, hcounters⟩ := s.runLeft_lane k
      exact ⟨(congrArg Lane.state hlane).trans hstate, (congrArg Lane.line hlane).trans hline,
        (congrArg Lane.runState hlane).trans hrun, (congrArg Lane.settled hlane).trans hsettled,
        (congrArg Lane.counters hlane).trans hcounters,
        (congrArg (fun e : Engine => e.lanes[k]) pengine).trans (s.engine.leaveRun_lane k)⟩
    · exact congrArg Engine.analysis pengine
    · exact congrArg Engine.ready pengine
    · rw [← Engine.outstanding_eq] at hmem
      exact (congrArg (fun v : Vector Lane 8 => v[e.lane].buffer e.buffer) planes).trans (freeBuffers_empty _ _ e hmem)
    · exact Assembler.flushed_getElem? c s.asm hb hrec
    · let flaws := s.asm.flushed c
      let a : Assembler := { s.asm with blobs := [] }
      have hasm := pasm.trans (congrArg AsmStep.asm (Assembler.flush_eq c s.asm))
      have htable := congrArg Assembler.table hasm
      refine ⟨?_, ?_, fun hsorted => ?_, fun hlast => ?_, ?_⟩
      · exact Assembler.flush_asm pasm
      · exact (List.Perm.of_eq htable).trans (Assembler.foldl_takeFlaw_perm flaws a)
      · refine (congrArg (List.Pairwise FlawEntry.inOrder) htable).mpr ?_
        exact Assembler.foldl_takeFlaw_inOrder flaws (a := a) hsorted
      · exact (congrArg Assembler.nextFlaw hasm).trans (Assembler.foldl_takeFlaw_nextFlaw flaws a hlast)
      · refine hwires.trans ((congrArg (fun r => (s.runLeft.finishAsm r).wires) (Assembler.flush_eq c s.asm)).trans ?_)
        simp only [State.finishAsm, State.sendIncrements, State.wire, List.map_map]
        rfl

end Sys2Proof.Machine
end

section
/-! While a reset holds, every event but the resets, the time base and the requests at the C-port is held (R37, R159, R173). -/

namespace Sys2Proof.Machine

/-! ### What a reset holds -/

theorem live_inReset {f : State → State} {s : State} (hr : s.inReset = true) : live f s = s := if_pos hr

theorem receiveWith_inReset {α : Type} {kind : α → Bool} {wire : Wires → List (Tagged α)}
    {put : Wires → List (Tagged α) → Wires} {act stale : α → State → State} {s : State} (hr : s.inReset = true) :
    receiveWith kind wire put act stale s = s := if_pos hr

theorem receiveIf_inReset {α : Type} {kind : α → Bool} {wire : Wires → List (Tagged α)}
    {put : Wires → List (Tagged α) → Wires} {act : α → State → State} {s : State} (hr : s.inReset = true) :
    receiveIf kind wire put act s = s := receiveWith_inReset hr

theorem receivePlainIf_inReset {α : Type} {kind : α → Bool} {wire : Wires → List α} {put : Wires → List α → Wires}
    {act : α → State → State} {s : State} (hr : s.inReset = true) : receivePlainIf kind wire put act s = s := if_pos hr

theorem onCommand_inReset {kind : Option CommandKind} {act : List Byte → State → Option Reason × State} {s : State}
    (hr : s.inReset = true) : onCommand kind act s = s := if_pos hr

/-- Settles O17: each command held is an event of the part, the taking of a message or a command in execution, and a reset
holds all three. -/
theorem resetHoldsEveryOtherEvent : Obligations.ResetHoldsEveryOtherEvent := by
  intro c s hr
  refine ⟨fun _ _ _ => rfl, ?_⟩
  cases c with
  | powerOn | warmReset | resetEnd | tb32kPeriod | secondEnd | busRead | busWrite | postWordWrite | sequenceWordWrite
  | takeViewRead | peekViewRead => trivial
  | encoderEdge | unitTick | stopTimerExpiry | travelSecondTick | writerSecondTick | analysisBegin | analysisCompletion
  | join | gradingBegin | tallyIncrement | fault | commandTake | configure | commandCompletion | mPortSend
  | memoryAnswer => exact congrArg Host.Outcome.next (live_inReset hr)
  | laneLineTrigger | gapLine | settledLine | scan | mark | gather | heldFlaw | scanAnswer | joinedLine | plannerRise
  | flushEnd | strikeClaim | pieceRemoval | waitingLogMove | runEndCompletion | headOffer | strikeRise
  | claimWithdrawal | gatherAnswer | gradeAnswer | stamp | plateOffer | plateAccepted | plateFull
  | plateRoom => exact congrArg Host.Outcome.next (receiveIf_inReset hr)
  | strikeGrant | gradingHandoff => exact congrArg Host.Outcome.next (receiveWith_inReset hr)
  | landingWrite | gradingIncrements | shiftReportOffer | shiftAccepted | shiftFull | shiftRoom | flawRecord
  | releaseRequest | rewriteAnnouncement | seenWordWrite | verdictRequest | verdict =>
    exact congrArg Host.Outcome.next (receivePlainIf_inReset hr)
  | startRun | stopRun | resetRun | setClock | closeShift | laneEnable | laneDisable | manualCut | badCommand =>
    exact congrArg Host.Outcome.next (onCommand_inReset hr)

end Sys2Proof.Machine
end

section
/-! The declarations of a lane: what any number of them in one event do to it (R26 to R28). -/

namespace Sys2Proof.Machine

theorem Lane.abandon_eq (l : Lane) : l.abandon = l.abandoned := by
  unfold Lane.abandon Lane.abandoned
  rcases l with ⟨_, _, _, _, _, _ | ⟨_, _, _ | _, _⟩, _, _, _, _, _, _, _, _⟩ <;> rfl

/-- A value of a lane that its buffers and its line in progress do not enter is kept when the line is abandoned (R26). -/
theorem Lane.abandoned_keeps {β : Type} (f : Lane → β)
    (hf : ∀ (l : Lane) a b p, f { l with bufA := a, bufB := b, line := p } = f l) (l : Lane) : f l.abandoned = f l := by
  unfold Lane.abandoned
  cases hl : l.line with
  | none => rfl
  | some p =>
    obtain ⟨_, _, i, _⟩ := p
    cases i
    · exact hf l Buffer.empty l.bufB none
    · exact hf l l.bufA Buffer.empty none

@[simp] theorem Lane.abandoned_state (l : Lane) : l.abandoned.state = l.state :=
  l.abandoned_keeps Lane.state fun _ _ _ _ => rfl
@[simp] theorem Lane.abandoned_misses (l : Lane) : l.abandoned.misses = l.misses :=
  l.abandoned_keeps Lane.misses fun _ _ _ _ => rfl
@[simp] theorem Lane.abandoned_lock (l : Lane) : l.abandoned.lock = l.lock :=
  l.abandoned_keeps Lane.lock fun _ _ _ _ => rfl
@[simp] theorem Lane.abandoned_counters (l : Lane) : l.abandoned.counters = l.counters :=
  l.abandoned_keeps Lane.counters fun _ _ _ _ => rfl
@[simp] theorem Lane.abandoned_declared (l : Lane) : l.abandoned.declared = l.declared :=
  l.abandoned_keeps Lane.declared fun _ _ _ _ => rfl
@[simp] theorem Lane.abandoned_accounted (l : Lane) : l.abandoned.accounted = l.accounted :=
  l.abandoned_keeps Lane.accounted fun _ _ _ _ => rfl
@[simp] theorem Lane.abandoned_trigger (l : Lane) : l.abandoned.trigger = l.trigger :=
  l.abandoned_keeps Lane.trigger fun _ _ _ _ => rfl
@[simp] theorem Lane.abandoned_settled (l : Lane) : l.abandoned.settled = l.settled :=
  l.abandoned_keeps Lane.settled fun _ _ _ _ => rfl
@[simp] theorem Lane.abandoned_runState (l : Lane) : l.abandoned.runState = l.runState :=
  l.abandoned_keeps Lane.runState fun _ _ _ _ => rfl

@[simp] theorem Lane.abandoned_line (l : Lane) : l.abandoned.line = none := by
  unfold Lane.abandoned
  cases hl : l.line with
  | none => exact hl
  | some p =>
    obtain ⟨_, _, i, _⟩ := p
    cases i <;> rfl

/-- The lines that an event gives up with a lane's line in progress: that line, if there is one, with a cause. -/
def Lane.inProgress (l : Lane) (given : GapCause) : List (Nat × GapCause) := l.line.toList.map fun p => (p.line, given)

/-- What a lane's event appends to the declared lines for each line it declares, with the cause the event gives it (R28). -/
def Lane.declarations (stall : Nat) : Lane → List (Nat × GapCause) → List DeclaredLine
  | _, [] => []
  | l, g :: gs => { line := g.1, cause := l.state.cause g.2 } :: (l.declaring stall 1).declarations stall gs

/-- A lane once an event has declared lines, each with the cause the event gives it (R28). -/
def Lane.declareAll (stall : Nat) (l : Lane) (gs : List (Nat × GapCause)) : Lane :=
  { l.declaring stall gs.length with declared := l.declared ++ l.declarations stall gs }

/-- How many times n declarations change a lane's state: once when they bring it from TRACKING to DROPOUT (R28). -/
def Lane.stalls (stall n : Nat) (l : Lane) : Nat := if (l.declaring stall n).state = l.state then 0 else 1

section
variable (stall : Nat) (l : Lane)

/-! ### Declarations one after another -/

theorem Lane.declaring_zero : l.declaring stall 0 = l := by simp [Lane.declaring]

theorem Lane.declaring_add (m n : Nat) : (l.declaring stall m).declaring stall n = l.declaring stall (m + n) := by
  rcases Nat.eq_zero_or_pos m with rfl | hm
  · rw [Lane.declaring_zero, Nat.zero_add]
  rcases Nat.eq_zero_or_pos n with rfl | hn
  · rw [Lane.declaring_zero, Nat.add_zero]
  have hcount : ∀ x, min 4294967295 (min 4294967295 (x + m) + n) = min 4294967295 (x + (m + n)) := fun x => by omega
  have hmiss : l.misses + m + n = l.misses + (m + n) := Nat.add_assoc _ _ _
  unfold Lane.declaring
  simp only [hm.ne', hn.ne', Nat.add_eq_zero_iff, and_self, if_false]
  cases hst : l.state with
  | tracking =>
    by_cases hlt : l.misses + m < stall
    · simp only [hlt, if_true, hcount, hmiss]
    · simp only [hlt, if_false, hcount, show ¬ l.misses + (m + n) < stall by omega]
  | locking | off | waiting | dropout | faulted => simp only [hcount]

/-- Declarations read the state, the misses, the lock counter and the counters, and change nothing else. -/
theorem Lane.declaring_congr {m : Lane} (n : Nat) (hstate : m.state = l.state) (hmisses : m.misses = l.misses)
    (hlock : m.lock = l.lock) (hcounters : m.counters = l.counters) :
    m.declaring stall n = { m with
      state := (l.declaring stall n).state, misses := (l.declaring stall n).misses
      lock := (l.declaring stall n).lock, counters := (l.declaring stall n).counters } := by
  cases l
  cases m
  dsimp only at hstate hmisses hlock hcounters
  subst hstate hmisses hlock hcounters
  unfold Lane.declaring
  dsimp only
  by_cases hn : n = 0
  · simp only [hn, if_true]
  · simp only [hn, if_false]
    split
    · rfl
    · split <;> rfl
    · rfl

/-- Declarations leave all but the state, the misses, the lock counter and the counters. -/
theorem Lane.declaring_frame (n : Nat) :
    l.declaring stall n = { l with
      state := (l.declaring stall n).state, misses := (l.declaring stall n).misses
      lock := (l.declaring stall n).lock, counters := (l.declaring stall n).counters } :=
  l.declaring_congr stall n rfl rfl rfl rfl

theorem Lane.declaring_misses (n : Nat) :
    (l.declaring stall n).misses =
      if l.state = .tracking then if n ≠ 0 ∧ stall ≤ l.misses + n then 0 else l.misses + n else l.misses := by
  unfold Lane.declaring
  by_cases hn : n = 0
  · simp [hn]
  cases hst : l.state with
  | tracking =>
    by_cases hlt : l.misses + n < stall
    · simp [hn, hlt]
    · simp [hn, hlt, Nat.le_of_not_lt hlt]
  | locking | off | waiting | dropout | faulted => simp [hn]

theorem Lane.stalls_zero : l.stalls stall 0 = 0 := by rw [Lane.stalls, Lane.declaring_zero, if_pos rfl]

/-- Declarations change a lane's state from TRACKING to DROPOUT alone. -/
theorem Lane.declaring_state (n : Nat) :
    (l.declaring stall n).state = if l.state = .tracking ∧ n ≠ 0 ∧ stall ≤ l.misses + n then .dropout else l.state := by
  unfold Lane.declaring
  by_cases hn : n = 0
  · simp [hn]
  cases hst : l.state with
  | tracking =>
    by_cases hlt : l.misses + n < stall
    · simp [hn, hlt]
    · simp [hn, hlt, Nat.le_of_not_lt hlt]
  | locking | off | waiting | dropout | faulted => simp [hn]

theorem Lane.stalls_eq (n : Nat) :
    l.stalls stall n = if l.state = .tracking ∧ n ≠ 0 ∧ stall ≤ l.misses + n then 1 else 0 := by
  rw [Lane.stalls, Lane.declaring_state]
  by_cases h : l.state = .tracking ∧ n ≠ 0 ∧ stall ≤ l.misses + n
  · rw [if_pos h, h.1]
    simp [h.2]
  · simp [h]

theorem Lane.stalls_add (m n : Nat) :
    l.stalls stall m + (l.declaring stall m).stalls stall n = l.stalls stall (m + n) := by
  rcases Nat.eq_zero_or_pos m with rfl | hm
  · rw [Lane.stalls_zero, Lane.declaring_zero, Nat.zero_add, Nat.zero_add]
  simp only [Lane.stalls_eq, Lane.declaring_state]
  by_cases ht : l.state = .tracking
  · by_cases hlt : l.misses + m < stall
    · have hmisses : (l.declaring stall m).misses = l.misses + m := by
        simp [Lane.declaring_misses, ht, hlt]
      simp only [ht, hmisses, hm.ne', hlt.not_ge, true_and, ne_eq, not_false_eq_true, if_false, Nat.zero_add,
        Nat.add_eq_zero_iff, false_and, Nat.add_assoc]
      by_cases hn : n = 0
      · subst hn
        simp [hlt]
      · simp [hn]
    · simp [ht, hm.ne', show stall ≤ l.misses + m by omega, show stall ≤ l.misses + (m + n) by omega]
  · simp [ht]

/-! ### The lines declared -/

theorem Lane.declarations_congr (gs : List (Nat × GapCause)) : ∀ {l m : Lane}, m.state = l.state → m.misses = l.misses →
    m.declarations stall gs = l.declarations stall gs := by
  induction gs with
  | nil => exact fun _ _ => rfl
  | cons g gs ih =>
    intro l m hstate hmisses
    have hstate' : (m.declaring stall 1).state = (l.declaring stall 1).state := by
      rw [Lane.declaring_state, Lane.declaring_state, hstate, hmisses]
    have hmisses' : (m.declaring stall 1).misses = (l.declaring stall 1).misses := by
      rw [Lane.declaring_misses, Lane.declaring_misses, hstate, hmisses]
    simp only [Lane.declarations, hstate, ih hstate' hmisses']

theorem Lane.declarations_append (xs ys : List (Nat × GapCause)) : ∀ l : Lane,
    l.declarations stall (xs ++ ys) = l.declarations stall xs ++ (l.declaring stall xs.length).declarations stall ys := by
  induction xs with
  | nil => intro l; rw [List.length_nil, Lane.declaring_zero]; rfl
  | cons x xs ih =>
    intro l
    simp only [List.cons_append, Lane.declarations, ih, Lane.declaring_add, List.length_cons, Nat.add_comm 1]

/-- The cause of a declaration, once one declaration has been made (R28). -/
theorem Lane.declaredCause_declaring (given : GapCause) (i : Nat) :
    (l.declaring stall 1).declaredCause stall ((l.declaring stall 1).state.cause given) i =
      l.declaredCause stall (l.state.cause given) (i + 1) := by
  unfold Lane.declaredCause
  rw [Lane.declaring_state, Lane.declaring_misses]
  cases hst : l.state with
  | tracking =>
    by_cases hlt : l.misses + 1 < stall
    · simp [hlt.not_ge, LaneState.cause, Nat.add_assoc, Nat.add_comm 1]
    · simp [show stall ≤ l.misses + 1 by omega, show ¬ l.misses + (i + 1) < stall by omega]
  | locking | off | waiting | dropout | faulted => simp [LaneState.cause]

/-- The causes of an event's declarations, one after another: DROPOUT once the lane is in DROPOUT (R28). -/
theorem Lane.declarations_eq (gs : List (Nat × GapCause)) : ∀ {l : Lane}, (l.state = .tracking → l.misses < stall) →
    l.declarations stall gs =
      gs.mapIdx fun i g => { line := g.1, cause := l.declaredCause stall (l.state.cause g.2) i } := by
  induction gs with
  | nil => exact fun _ => rfl
  | cons g gs ih =>
    intro l h
    have hfirst : l.declaredCause stall (l.state.cause g.2) 0 = l.state.cause g.2 := by
      unfold Lane.declaredCause
      cases hst : l.state with
      | tracking => simp [h hst]
      | locking | off | waiting | dropout | faulted => rfl
    have hnext : (l.declaring stall 1).state = .tracking → (l.declaring stall 1).misses < stall := by
      rw [Lane.declaring_state, Lane.declaring_misses]
      by_cases hlt : l.misses + 1 < stall
      · by_cases ht : l.state = .tracking <;> simp [ht, hlt, hlt.not_ge]
      · by_cases ht : l.state = .tracking <;> simp [ht, show stall ≤ l.misses + 1 by omega]
    rw [Lane.declarations, ih hnext, List.mapIdx_cons, hfirst]
    simp only [Lane.declaredCause_declaring]

theorem Lane.declareAll_nil : l.declareAll stall [] = l := by
  rw [Lane.declareAll, List.length_nil, Lane.declaring_zero, Lane.declarations, List.append_nil]

theorem Lane.declareAll_declareAll (xs ys : List (Nat × GapCause)) :
    (l.declareAll stall xs).declareAll stall ys = l.declareAll stall (xs ++ ys) := by
  have hring : (l.declareAll stall xs).declaring stall ys.length =
      { (l.declaring stall xs.length).declaring stall ys.length with
        declared := l.declared ++ l.declarations stall xs } := by
    rw [Lane.declaring_congr (m := l.declareAll stall xs) (l := l.declaring stall xs.length) stall ys.length rfl rfl rfl rfl,
      Lane.declaring_frame (l := l.declaring stall xs.length) stall ys.length]
    rfl
  have hdecl : (l.declareAll stall xs).declarations stall ys = (l.declaring stall xs.length).declarations stall ys :=
    Lane.declarations_congr stall ys rfl rfl
  rw [Lane.declareAll, hring, hdecl, Lane.declaring_add, ← List.length_append]
  rw [Lane.declareAll, Lane.declareAll, Lane.declarations_append, List.append_assoc]

/-! ### What declarations leave -/

@[simp] theorem Lane.declareAll_enabled (gs : List (Nat × GapCause)) : (l.declareAll stall gs).enabled = l.enabled :=
  (congrArg Lane.enabled (l.declaring_frame stall gs.length) :)
@[simp] theorem Lane.declareAll_accounted (gs : List (Nat × GapCause)) : (l.declareAll stall gs).accounted = l.accounted :=
  (congrArg Lane.accounted (l.declaring_frame stall gs.length) :)
@[simp] theorem Lane.declareAll_trigger (gs : List (Nat × GapCause)) : (l.declareAll stall gs).trigger = l.trigger :=
  (congrArg Lane.trigger (l.declaring_frame stall gs.length) :)
@[simp] theorem Lane.declareAll_runState (gs : List (Nat × GapCause)) : (l.declareAll stall gs).runState = l.runState :=
  (congrArg Lane.runState (l.declaring_frame stall gs.length) :)
@[simp] theorem Lane.declareAll_line (gs : List (Nat × GapCause)) : (l.declareAll stall gs).line = l.line :=
  (congrArg Lane.line (l.declaring_frame stall gs.length) :)
@[simp] theorem Lane.declareAll_bufA (gs : List (Nat × GapCause)) : (l.declareAll stall gs).bufA = l.bufA :=
  (congrArg Lane.bufA (l.declaring_frame stall gs.length) :)
@[simp] theorem Lane.declareAll_bufB (gs : List (Nat × GapCause)) : (l.declareAll stall gs).bufB = l.bufB :=
  (congrArg Lane.bufB (l.declaring_frame stall gs.length) :)
@[simp] theorem Lane.declareAll_seeded (gs : List (Nat × GapCause)) : (l.declareAll stall gs).seeded = l.seeded :=
  (congrArg Lane.seeded (l.declaring_frame stall gs.length) :)
@[simp] theorem Lane.declareAll_settled (gs : List (Nat × GapCause)) : (l.declareAll stall gs).settled = l.settled :=
  (congrArg Lane.settled (l.declaring_frame stall gs.length) :)

/-- Declarations pass over a change of all that they do not read. -/
theorem Lane.declareAll_congr {m : Lane} (gs : List (Nat × GapCause)) (hstate : m.state = l.state)
    (hmisses : m.misses = l.misses) (hlock : m.lock = l.lock) (hcounters : m.counters = l.counters)
    (hdeclared : m.declared = l.declared) :
    m.declareAll stall gs = { m with
      state := (l.declareAll stall gs).state, misses := (l.declareAll stall gs).misses
      lock := (l.declareAll stall gs).lock, counters := (l.declareAll stall gs).counters
      declared := (l.declareAll stall gs).declared } := by
  rw [Lane.declareAll, Lane.declaring_congr stall l gs.length hstate hmisses hlock hcounters,
    Lane.declarations_congr stall gs hstate hmisses, hdeclared]
  rfl

theorem Lane.declareAll_frame (gs : List (Nat × GapCause)) :
    l.declareAll stall gs = { l with
      state := (l.declareAll stall gs).state, misses := (l.declareAll stall gs).misses
      lock := (l.declareAll stall gs).lock, counters := (l.declareAll stall gs).counters
      declared := (l.declareAll stall gs).declared } :=
  l.declareAll_congr stall gs rfl rfl rfl rfl rfl

end

/-! ### The declarations of an event -/

theorem LaneStep.declare_eq (stall : Nat) (given : GapCause) (r : LaneStep) (x : Nat) :
    r.declare stall given x = { r with
      lane := r.lane.declareAll stall [(x, given)], changes := r.changes + r.lane.stalls stall 1 } := by
  rw [Lane.stalls_eq]
  unfold LaneStep.declare Lane.declareAll Lane.declaring
  cases hst : r.lane.state with
  | tracking =>
    by_cases hlt : r.lane.misses + 1 < stall
    · simp [LaneStep.miss, Lane.record, hst, hlt, hlt.not_ge, Lane.declarations, bump, satAdd]
    · simp [LaneStep.miss, LaneStep.enter, Lane.record, hst, hlt, show stall ≤ r.lane.misses + 1 by omega,
        Lane.declarations, bump, satAdd]
  | locking | off | waiting | dropout | faulted => simp [Lane.record, hst, Lane.declarations, bump, satAdd]

/-- Several declarations of one event (R28). -/
theorem LaneStep.foldl_declare (stall : Nat) (given : GapCause) (xs : List Nat) : ∀ r : LaneStep,
    xs.foldl (LaneStep.declare stall given) r = { r with
      lane := r.lane.declareAll stall (xs.map fun x => (x, given))
      changes := r.changes + r.lane.stalls stall xs.length } := by
  induction xs with
  | nil =>
    intro r
    simp only [List.foldl_nil, List.map_nil, Lane.declareAll_nil, List.length_nil, Lane.stalls_zero, Nat.add_zero]
  | cons x xs ih =>
    intro r
    have hstalls : (r.lane.declareAll stall [(x, given)]).stalls stall xs.length =
        (r.lane.declaring stall 1).stalls stall xs.length := by
      rw [Lane.stalls_eq, Lane.stalls_eq]
      rfl
    rw [List.foldl_cons, ih, LaneStep.declare_eq]
    simp only [Lane.declareAll_declareAll, hstalls, Nat.add_assoc, Lane.stalls_add, List.length_cons, Nat.add_comm 1]
    rfl

/-- The lines above the accounted line, up to n, declared with a cause (R27). -/
def Lane.upTo (l : Lane) (given : GapCause) (n : Nat) : List (Nat × GapCause) :=
  (List.range' (l.accounted + 1) (n - l.accounted)).map fun x => (x, given)

theorem LaneStep.declareUpTo_eq (stall : Nat) (given : GapCause) (r : LaneStep) (n : Nat) :
    r.declareUpTo stall given n = { r with
      lane := { r.lane.declareAll stall (r.lane.upTo given n) with accounted := max r.lane.accounted n }
      changes := r.changes + r.lane.stalls stall (n - r.lane.accounted) } := by
  unfold LaneStep.declareUpTo Lane.upTo
  by_cases h : r.lane.accounted < n
  · rw [if_pos h, LaneStep.foldl_declare, List.length_range', Nat.max_eq_right h.le]
  · rw [if_neg h, Nat.sub_eq_zero_of_le (Nat.le_of_not_lt h), Nat.max_eq_left (Nat.le_of_not_lt h), List.range'_zero,
      List.map_nil, Lane.declareAll_nil, Lane.stalls_zero]
    rfl

theorem LaneStep.abandonDeclared_eq (stall : Nat) (given : GapCause) (r : LaneStep) :
    r.abandonDeclared stall given = { r with
      lane := r.lane.abandoned.declareAll stall (r.lane.inProgress given)
      changes := r.changes + r.lane.stalls stall (r.lane.inProgress given).length } := by
  unfold LaneStep.abandonDeclared Lane.inProgress
  cases hline : r.lane.line with
  | none =>
    have hab : r.lane.abandoned = r.lane := by simp only [Lane.abandoned, hline]
    simp only [Option.toList_none, List.map_nil, hab, Lane.declareAll_nil, List.length_nil, Lane.stalls_zero, Nat.add_zero]
  | some p =>
    simp only [LaneStep.declare_eq, Lane.abandon_eq, Lane.stalls_eq, Lane.abandoned_state, Lane.abandoned_misses]
    rfl

theorem Lane.upTo_length (l : Lane) (given : GapCause) (n : Nat) : (l.upTo given n).length = n - l.accounted := by
  rw [Lane.upTo, List.length_map, List.length_range']

/-- The line in progress and then every line above the accounted line given up (R20, R27, R30). -/
theorem LaneStep.giveUp_eq (stall : Nat) (mine given : GapCause) (r : LaneStep) (n : Nat) :
    (r.abandonDeclared stall mine).declareUpTo stall given n = { r with
      lane := { r.lane.abandoned.declareAll stall (r.lane.inProgress mine ++ r.lane.upTo given n) with
        accounted := max r.lane.accounted n }
      changes := r.changes + r.lane.stalls stall (r.lane.inProgress mine ++ r.lane.upTo given n).length } := by
  have hupTo : (r.lane.abandoned.declareAll stall (r.lane.inProgress mine)).upTo given n = r.lane.upTo given n := by
    simp only [Lane.upTo, Lane.declareAll_accounted, Lane.abandoned_accounted]
  have hstalls : (r.lane.abandoned.declareAll stall (r.lane.inProgress mine)).stalls stall (n - r.lane.accounted) =
      (r.lane.declaring stall (r.lane.inProgress mine).length).stalls stall (n - r.lane.accounted) := by
    simp only [Lane.stalls_eq, Lane.declareAll, Lane.declaring_state, Lane.declaring_misses, Lane.abandoned_state,
      Lane.abandoned_misses]
  rw [LaneStep.abandonDeclared_eq, LaneStep.declareUpTo_eq]
  simp only [hupTo, Lane.declareAll_declareAll, Lane.declareAll_accounted, Lane.abandoned_accounted, hstalls,
    Nat.add_assoc, Lane.stalls_add, List.length_append, Lane.upTo_length]

/-! ### Lines in a row -/

/-- The first line that a lane has not closed: its line in progress, or the line above the accounted line. -/
def Lane.firstOpen (l : Lane) : Nat :=
  match l.line with
  | none => l.accounted + 1
  | some p => p.line

/-- The causes that an event gives the lines from the first open one on: one to the line in progress, MISSED to the others. -/
def Lane.openCause (l : Lane) (mine : GapCause) (i : Nat) : GapCause := if i = 0 ∧ l.line ≠ none then mine else .missed

/-- With the line in progress at the accounted line, the lines given up follow one another (R23, R27). -/
theorem Lane.givenUp_range {l : Lane} (hline : ∀ p, l.line = some p → p.line = l.accounted) (mine : GapCause) {n : Nat}
    (hn : l.accounted ≤ n) :
    l.inProgress mine ++ l.upTo .missed n =
      (List.range (n + 1 - l.firstOpen)).map fun i => (l.firstOpen + i, l.openCause mine i) := by
  unfold Lane.inProgress Lane.upTo Lane.firstOpen Lane.openCause
  cases hp : l.line with
  | none =>
    simp [List.range'_eq_map_range, Nat.add_sub_add_right, Function.comp_def]
  | some p =>
    obtain ⟨m, rfl⟩ := Nat.exists_eq_add_of_le hn
    simp only [hline p hp, show l.accounted + m + 1 - l.accounted = m + 1 by omega, List.range_succ_eq_map,
      List.range'_eq_map_range]
    simp [hline p hp, Function.comp_def, Nat.add_assoc, Nat.add_comm 1]

/-- In a capturing state the cause an event gives is the one recorded until S_stall is reached (R28). -/
theorem Lane.declaredCause_capturing {l : Lane} (h : l.state ∈ [.waiting, .locking, .tracking, .dropout]) (stall : Nat)
    (given : GapCause) (i : Nat) : l.declaredCause stall (l.state.cause given) i = l.declaredCause stall given i := by
  simp only [List.mem_cons, List.not_mem_nil, or_false] at h
  unfold Lane.declaredCause
  rcases h with h | h | h | h <;> simp only [h, LaneState.cause]

theorem Lane.declarations_range {l : Lane} {stall : Nat} (h : l.state ∈ [.waiting, .locking, .tracking, .dropout])
    (hstall : l.misses < stall) (first n : Nat) (given : Nat → GapCause) :
    l.declarations stall ((List.range n).map fun i => (first + i, given i)) =
      (List.range n).map fun i => { line := first + i, cause := l.declaredCause stall (given i) i } := by
  rw [Lane.declarations_eq stall _ fun _ => hstall]
  refine List.ext_getElem? fun i => ?_
  simp only [List.getElem?_mapIdx, List.getElem?_map, Option.map_map, Lane.declaredCause_capturing h, Function.comp_def]
  rcases Nat.lt_or_ge i n with hi | hi
  · simp only [List.getElem?_range hi, Option.map_some]
  · simp only [List.getElem?_eq_none (List.length_range.trans_le hi), Option.map_none]

theorem Lane.firstOpen_bounds {l : Lane} (hline : ∀ p, l.line = some p → p.line = l.accounted) :
    l.accounted ≤ l.firstOpen ∧ l.firstOpen ≤ l.accounted + 1 := by
  unfold Lane.firstOpen
  cases hp : l.line with
  | none => exact ⟨Nat.le_succ _, Nat.le_refl _⟩
  | some p => exact ⟨(hline p hp).ge, (hline p hp).le.trans (Nat.le_succ _)⟩

/-- The lines given up by a lane that has settled all below them, as it records them (R28). -/
theorem Lane.declareAll_declared_range {l : Lane} {stall n : Nat} (h : l.state ∈ [.waiting, .locking, .tracking, .dropout])
    (hstall : l.misses < stall) (hline : ∀ p, l.line = some p → p.line = l.accounted)
    (hbelow : l.settledBelow l.firstOpen) (mine : GapCause) (hn : l.accounted ≤ n) :
    (l.abandoned.declareAll stall (l.inProgress mine ++ l.upTo .missed n)).declared =
      (List.range (n + 1 - l.firstOpen)).map fun i =>
        { line := l.settled + 1 + i, cause := l.declaredCause stall (l.openCause mine i) i } := by
  obtain ⟨_, _, _, hdecl, hfirst⟩ := hbelow
  have hcongr := Lane.declarations_congr stall (l.inProgress mine ++ l.upTo .missed n) l.abandoned_state l.abandoned_misses
  rw [Lane.declareAll, hcongr, Lane.abandoned_declared, hdecl, Lane.givenUp_range hline mine hn,
    Lane.declarations_range h hstall, List.nil_append, hfirst]

/-- A buffer freed with the line in progress is not READY (R26). -/
theorem Lane.abandoned_not_ready (l : Lane) :
    (l.bufA.state ≠ .ready → l.abandoned.bufA.state ≠ .ready) ∧ (l.bufB.state ≠ .ready → l.abandoned.bufB.state ≠ .ready) := by
  rcases l with ⟨_, _, _, _, _, _ | ⟨_, _, _ | _, _⟩, _, _, _, _, _, _, _, _⟩
  · exact ⟨id, id⟩
  · exact ⟨fun _ => BufferState.noConfusion, id⟩
  · exact ⟨id, fun _ => BufferState.noConfusion⟩

end Sys2Proof.Machine
end

section
/-! The settled line of a lane re-evaluated, and what the end of its event sends (R29, R32, R33, R35, R38). -/

namespace Sys2Proof.Machine

theorem upd_self {α : Type} {n : Nat} (v : Vector α n) (k : Fin n) : upd v k (fun a => a) = v :=
  vector_ext_fin fun j => by
    by_cases h : j = k
    · rw [h, upd_same]
    · rw [upd_other _ _ _ _ h]

/-! ### The settled line -/

/-- The re-evaluation of the settled line changes that line and the declared lines alone (R32). -/
theorem Lane.resettle_frame (l : Lane) (a : Option (Nat × Option GapCause)) :
    (l.resettle a).lane = { l with settled := (l.resettle a).lane.settled, declared := (l.resettle a).lane.declared } := by
  unfold Lane.resettle
  dsimp only
  split <;> rfl

theorem Lane.resettle_running {l : Lane} (h : l.runState = .running) (a : Option (Nat × Option GapCause)) :
    (l.resettle a).lane = { l with
      settled := max l.settled l.settledNow
      declared := if l.settled < l.settledNow then l.declared.filter fun d => decide (l.settledNow < d.line)
        else l.declared } := by
  unfold Lane.resettle
  dsimp only
  by_cases hlt : l.settled < l.settledNow
  · rw [if_pos ⟨h, hlt⟩, if_pos hlt, Nat.max_eq_right hlt.le]
  · rw [if_neg (fun hc => hlt hc.2), if_neg hlt, Nat.max_eq_left (Nat.le_of_not_lt hlt)]

/-- A settled line that does not rise leaves the lane, as does one re-evaluated outside RUNNING (R31, R32). -/
theorem Lane.resettle_still {l : Lane} (h : l.runState = .running → l.settledNow ≤ l.settled)
    (a : Option (Nat × Option GapCause)) : (l.resettle a).lane = l := by
  unfold Lane.resettle
  dsimp only
  rw [if_neg (fun hc => absurd hc.2 (h hc.1).not_gt)]

/-- An event with no analysis names no line besides those declared (R33). -/
theorem Lane.resettle_none (l : Lane) : l.resettle none = l.resettle (some (0, none)) := by
  have hcause : l.gapCause none = l.gapCause (some (0, none)) := by
    funext x
    simp only [Lane.gapCause, ite_self]
  unfold Lane.resettle
  rw [hcause]

theorem foldl_min_le (xs : List Nat) : ∀ x, xs.foldl min x ≤ x ∧ ∀ y ∈ xs, xs.foldl min x ≤ y := by
  induction xs with
  | nil => exact fun x => ⟨Nat.le_refl x, fun _ h => absurd h List.not_mem_nil⟩
  | cons y ys ih =>
    intro x
    obtain ⟨hx, hys⟩ := ih (min x y)
    refine ⟨hx.trans (Nat.min_le_left x y), fun z hz => ?_⟩
    rcases List.mem_cons.mp hz with rfl | hz
    · exact hx.trans (Nat.min_le_right x z)
    · exact hys z hz

theorem foldl_min_mem (xs : List Nat) : ∀ x, xs.foldl min x ∈ x :: xs := by
  induction xs with
  | nil => exact fun x => List.mem_cons_self
  | cons y ys ih =>
    intro x
    rcases List.mem_cons.mp (ih (min x y)) with h | h
    · rw [List.foldl_cons, h]
      rcases Nat.le_total x y with hxy | hxy
      · rw [Nat.min_eq_left hxy]
        exact List.mem_cons_self
      · rw [Nat.min_eq_right hxy]
        exact List.mem_cons_of_mem _ List.mem_cons_self
    · exact List.mem_cons_of_mem _ (List.mem_cons_of_mem _ h)

/-- One below the lowest of the pending lines (R32). -/
theorem Lane.settledNow_of_least {l : Lane} {y : Nat} (hy : y ∈ l.pendingLines) (hmin : ∀ z ∈ l.pendingLines, y ≤ z) :
    l.settledNow = y - 1 := by
  unfold Lane.settledNow
  cases hp : l.pendingLines with
  | nil => rw [hp] at hy; exact absurd hy List.not_mem_nil
  | cons x xs =>
    rw [hp] at hy hmin
    obtain ⟨hx, hxs⟩ := foldl_min_le xs x
    have hle : xs.foldl min x ≤ y := by
      rcases List.mem_cons.mp hy with rfl | hy
      · exact hx
      · exact hxs y hy
    have hge := hmin _ (foldl_min_mem xs x)
    dsimp only
    omega

/-- No pending line lies at or below the line that would be settled. -/
theorem Lane.settledNow_le_of_pending {l : Lane} {y : Nat} (hy : y ∈ l.pendingLines) : l.settledNow ≤ y - 1 := by
  unfold Lane.settledNow
  cases hp : l.pendingLines with
  | nil => rw [hp] at hy; exact absurd hy List.not_mem_nil
  | cons x xs =>
    rw [hp] at hy
    obtain ⟨hx, hxs⟩ := foldl_min_le xs x
    have hle : xs.foldl min x ≤ y := by
      rcases List.mem_cons.mp hy with rfl | hy
      · exact hx
      · exact hxs y hy
    exact Nat.sub_le_sub_right hle 1

theorem Lane.settledNow_of_none {l : Lane} (h : l.pendingLines = []) : l.settledNow = l.accounted := by
  unfold Lane.settledNow
  rw [h]

theorem Lane.pendingLines_eq (l : Lane) :
    l.pendingLines = (if l.bufA.state = .ready then [l.bufA.line] else []) ++
      (if l.bufB.state = .ready then [l.bufB.line] else []) ++ (l.line.map (·.line)).toList := by
  unfold Lane.pendingLines
  cases l.line <;> rfl

/-- The re-evaluation is the one of R32. -/
theorem Lane.resettle_settlesTo {l : Lane} (h : l.runState = .running) (a : Option (Nat × Option GapCause)) :
    l.settlesTo (l.resettle a).lane := by
  have hrise : l.settled < max l.settled l.settledNow ↔ l.settled < l.settledNow := by omega
  rw [Lane.resettle_running h]
  unfold Lane.settlesTo
  rw [← Lane.pendingLines_eq]
  refine ⟨fun hnone => ?_, fun y hy hmin => ?_, ?_⟩
  · rw [Lane.settledNow_of_none hnone]
  · rw [Lane.settledNow_of_least hy hmin]
  · dsimp only
    by_cases hlt : l.settled < l.settledNow
    · rw [if_pos hlt, if_pos (hrise.mpr hlt), Nat.max_eq_right hlt.le]
    · rw [if_neg hlt, if_neg (fun hc => hlt (hrise.mp hc))]

/-! ### The gap lines -/

/-- The gap lines a lane hands on, those of a lane that does not meet the net range left out (R33). -/
theorem Lane.resettle_gaps (l : Lane) (sh : Shadow) (k : LaneId) (x : Nat) (c : Option GapCause) :
    (if meetsNet sh.lanes[k] sh then (l.resettle (some (x, c))).gaps else []) =
      l.gapsTo sh k x c (l.resettle (some (x, c))).lane.settled := by
  unfold Lane.gapsTo meetsNet
  simp only [Bool.and_eq_true, decide_eq_true_eq]
  split
  · unfold Lane.resettle
    dsimp only
    split
    · rfl
    · simp
  · rfl

theorem Lane.resettle_settle (l : Lane) (a : Option (Nat × Option GapCause)) :
    (l.resettle a).settle =
      if l.settled < (l.resettle a).lane.settled then [(l.resettle a).lane.settled] else [] := by
  unfold Lane.resettle
  dsimp only
  split
  · rename_i h
    rw [if_pos h.2]
  · simp

/-! ### The end of an event -/

section
variable {s : State} {k : LaneId} {r : LaneStep} {sh : Shadow}

/-- The lane of an event but for what the re-evaluation of its settled line leaves. -/
theorem State.finishLane_lane (s : State) (k : LaneId) (r : LaneStep) (a : Option (Nat × Option GapCause)) :
    (s.finishLane k r a).lanes[k] = { r.lane with
      settled := (s.finishLane k r a).lanes[k].settled, declared := (s.finishLane k r a).lanes[k].declared } := by
  rw [State.finishLane_same]
  exact Lane.resettle_frame _ _

/-- A lane that has settled all below its first open line settles nothing more while that line stays open (R32). -/
theorem Lane.settledNow_of_settledBelow {l : Lane} (h : l.settledBelow l.firstOpen) : l.settledNow = l.settled := by
  obtain ⟨_, ha, hb, _, hfirst⟩ := h
  unfold Lane.firstOpen at hfirst
  cases hp : l.line with
  | none =>
    rw [hp] at hfirst
    rw [Lane.settledNow_of_none (by simp [Lane.pendingLines, ha, hb, hp])]
    exact (Nat.succ.inj hfirst).symm
  | some p =>
    rw [hp] at hfirst
    rw [Lane.settledNow_of_least (y := p.line) (by simp [Lane.pendingLines, ha, hb, hp])
      (by simp [Lane.pendingLines, ha, hb, hp])]
    exact Nat.sub_eq_of_eq_add hfirst.symm

theorem State.finishLane_none : s.finishLane k r none = s.finishLane k r (some (0, none)) := by
  unfold State.finishLane
  rw [Lane.resettle_none]

/-- The messages that the end of a lane's event sends (R32, R33, R35). -/
theorem State.finishLane_wires (hsh : s.cmd.shadow = some sh) (x : Nat) (c : Option GapCause) :
    (s.finishLane k r (some (x, c))).wires =
      let top := (r.lane.resettle (some (x, c))).lane.settled
      let gaps := r.lane.gapsTo sh k x c top
      { s.wires with
        laneMsgs := upd s.wires.laneMsgs k fun q => q ++ s.tagAll (r.lane.reports gaps top)
        faults := s.wires.faults ++ r.faults.map fun m => (FaultSender.lane k, m)
        increments := s.wires.increments ++ gaps.map fun g => (.lane k, .gapLine g.2) } := by
  have hgaps := r.lane.resettle_gaps sh k x c
  have hsettle := r.lane.resettle_settle (some (x, c))
  unfold State.finishLane Lane.reports
  simp only [hsh, hgaps, hsettle, State.writePages_keeps, State.sendIncrements, State.wire, State.setLane, List.map_map]
  split <;> rfl

theorem State.finishLane_wires_kept (hsh : s.cmd.shadow = some sh) :
    (s.finishLane k r none).wires.landing = s.wires.landing ∧ (s.finishLane k r none).wires.triggers = s.wires.triggers ∧
      (s.finishLane k r none).wires.faults = s.wires.faults ++ r.faults.map fun m => (FaultSender.lane k, m) := by
  rw [State.finishLane_none, State.finishLane_wires hsh]
  exact ⟨rfl, rfl, rfl⟩

/-- An event after which the settled line does not rise sends its faults alone (R32, R35). -/
theorem State.finishLane_wires_still (hsh : s.cmd.shadow = some sh)
    (hstill : r.lane.runState = .running → r.lane.settledNow ≤ r.lane.settled) :
    (s.finishLane k r none).wires =
      { s.wires with faults := s.wires.faults ++ r.faults.map fun m => (FaultSender.lane k, m) } := by
  have hgaps : r.lane.gapsTo sh k 0 none r.lane.settled = [] := by
    unfold Lane.gapsTo
    simp only [Nat.sub_self, List.range'_zero, List.filterMap_nil, ite_self]
  have hmsgs : upd s.wires.laneMsgs k (fun q => q ++ s.tagAll []) = s.wires.laneMsgs := by
    simp only [State.tagAll, List.map_nil, List.append_nil]
    exact upd_self _ k
  rw [State.finishLane_none, State.finishLane_wires hsh, Lane.resettle_still hstill]
  simp only [hgaps, Lane.reports, Nat.lt_irrefl, if_false, List.map_nil, List.append_nil, hmsgs]

/-- An event that changes no lane state and completes no line changes its lane and the messages alone. -/
theorem State.finishLane_quiet (hchanges : r.changes = 0) (hready : r.ready = []) (a : Option (Nat × Option GapCause)) :
    s.finishLane k r a = { s with
      lanes := upd s.lanes k fun _ => (r.lane.resettle a).lane, wires := (s.finishLane k r a).wires } := by
  unfold State.finishLane
  rw [hchanges, hready]
  simp only [State.writePages, List.map_nil, List.append_nil]
  rfl

theorem State.finishLane_lanes (a : Option (Nat × Option GapCause)) :
    (s.finishLane k r a).lanes = upd s.lanes k fun _ => (r.lane.resettle a).lane := by
  simp only [State.finishLane, State.writePages_frame, State.sendIncrements_lanes]
  rfl

theorem State.finishLane_ready (a : Option (Nat × Option GapCause)) :
    (s.finishLane k r a).engine.ready = s.engine.ready ++ r.ready.map fun e =>
      { lane := k, line := e.1, buffer := e.2.1, mode := e.2.2 } := by
  simp only [State.finishLane, State.writePages_frame]
  rfl

theorem State.finishLane_engine_kept (hready : r.ready = []) (a : Option (Nat × Option GapCause)) :
    (s.finishLane k r a).engine = s.engine := by
  simp only [State.finishLane, State.writePages_frame, State.sendIncrements_engine, hready, List.map_nil, List.append_nil]
  rfl

theorem State.finishLane_pageSeq (a : Option (Nat × Option GapCause)) :
    (s.finishLane k r a).writer.pageSeq = s.writer.pageSeq + BitVec.ofNat 32 r.changes := by
  simp only [State.finishLane, State.writePages_pageSeq]
  rfl

/-- An event in RUNNING re-evaluates the settled line, its faults apart (R32, R33). -/
theorem State.finishLane_settlesAfter (hsh : s.cmd.shadow = some sh) (hrun : r.lane.runState = .running) (x : Nat)
    (c : Option GapCause) :
    ({ s with wires := { s.wires with
      faults := s.wires.faults ++ r.faults.map fun m => (FaultSender.lane k, m) } } : State).settlesAfter
      (s.finishLane k r (some (x, c))) sh k r.lane x c := by
  unfold State.settlesAfter
  rw [State.finishLane_same, State.finishLane_wires hsh]
  exact ⟨Lane.resettle_settlesTo hrun _, rfl⟩

theorem State.finishLane_settlesAfter_faultless (hsh : s.cmd.shadow = some sh) (hrun : r.lane.runState = .running)
    (hfaults : r.faults = []) (x : Nat) (c : Option GapCause) :
    s.settlesAfter (s.finishLane k r (some (x, c))) sh k r.lane x c := by
  have h := State.finishLane_settlesAfter (k := k) hsh hrun x c
  rwa [hfaults, List.map_nil, List.append_nil] at h

/-- An event that only leaves its lane as l, in RUNNING. -/
theorem State.finishLane_step {l : Lane} (hsh : s.cmd.shadow = some sh) (hrun : l.runState = .running) :
    let t := s.finishLane k l.step none
    t = { s with lanes := upd s.lanes k fun _ => t.lanes[k], wires := t.wires } ∧ s.settlesAfter t sh k l 0 none := by
  refine ⟨?_, ?_⟩
  · rw [State.finishLane_same]
    exact State.finishLane_quiet rfl rfl none
  · rw [State.finishLane_none]
    exact State.finishLane_settlesAfter_faultless (r := l.step) hsh hrun rfl 0 none

/-- An event after which the settled line does not rise changes its lane alone, but for what it raises and completes. -/
theorem State.finishLane_still {l : Lane} (hsh : s.cmd.shadow = some sh)
    (hstill : l.runState = .running → l.settledNow ≤ l.settled) :
    s.finishLane k l.step none = { s with lanes := upd s.lanes k fun _ => l } := by
  have hwires := State.finishLane_wires_still (s := s) (k := k) (r := l.step) hsh hstill
  rw [State.finishLane_quiet rfl rfl, Lane.resettle_still (l := l.step.lane) hstill, hwires]
  simp only [Lane.step, List.map_nil, List.append_nil]

/-! ### Lines settled in a row -/

theorem Lane.gapsTo_range {l : Lane} {n : Nat} {c : Nat → GapCause} (x : Nat)
    (hnet : sh.netLo ≤ sh.lanes[k].ownHi ∧ sh.lanes[k].ownLo ≤ sh.netHi)
    (hdecl : l.declared = (List.range n).map fun i => { line := l.settled + 1 + i, cause := c i }) :
    l.gapsTo sh k x none (l.settled + n) = (List.range n).map fun i => (l.settled + 1 + i, c i) := by
  have hfind : ∀ i ∈ List.range n, l.declared.find? (fun d => decide (d.line = l.settled + 1 + i)) =
      some { line := l.settled + 1 + i, cause := c i } := by
    intro i hi
    rw [hdecl, List.find?_map]
    have hat : (List.range n).find? ((fun d : DeclaredLine => decide (d.line = l.settled + 1 + i)) ∘
        fun i => { line := l.settled + 1 + i, cause := c i }) = some i := by
      rw [List.find?_range_eq_some]
      simpa using ⟨List.mem_range.mp hi, fun j hj => Nat.ne_of_lt hj⟩
    rw [hat]
    rfl
  unfold Lane.gapsTo
  rw [if_pos hnet, Nat.add_sub_cancel_left, List.range'_eq_map_range, List.filterMap_map, ← List.filterMap_eq_map]
  refine List.filterMap_congr fun i hi => ?_
  simp only [Function.comp_apply, hfind i hi, Option.map_some]

/-- A lane whose declared lines are all that lies between its settled line and the next pending one settles them all (R32). -/
theorem Lane.resettle_range {l : Lane} {n : Nat} {c : Nat → GapCause} (hrun : l.runState = .running)
    (hnow : l.settledNow = l.settled + n)
    (hdecl : l.declared = (List.range n).map fun i => { line := l.settled + 1 + i, cause := c i })
    (a : Option (Nat × Option GapCause)) :
    (l.resettle a).lane = { l with settled := l.settled + n, declared := [] } := by
  rw [Lane.resettle_running hrun, hnow, Nat.max_eq_right (Nat.le_add_right _ _)]
  rcases Nat.eq_zero_or_pos n with rfl | hn
  · simp only [Nat.add_zero, Nat.lt_irrefl, if_false]
    rw [hdecl]
    rfl
  · rw [if_pos (Nat.lt_add_of_pos_right hn)]
    refine congrArg (fun d => ({ l with settled := l.settled + n, declared := d } : Lane)) ?_
    rw [List.filter_eq_nil_iff, hdecl]
    intro d hd
    obtain ⟨i, hi, rfl⟩ := List.mem_map.mp hd
    have := List.mem_range.mp hi
    simp only [decide_eq_true_eq]
    omega

/-- What such a lane sends: its lines as gap lines in a row, and the settled line (R32, R33). -/
theorem State.finishLane_range {n : Nat} {c : Nat → GapCause} (hsh : s.cmd.shadow = some sh)
    (hnet : sh.netLo ≤ sh.lanes[k].ownHi ∧ sh.lanes[k].ownLo ≤ sh.netHi) (hrun : r.lane.runState = .running)
    (hnow : r.lane.settledNow = r.lane.settled + n)
    (hdecl : r.lane.declared = (List.range n).map fun i => { line := r.lane.settled + 1 + i, cause := c i }) :
    (s.finishLane k r none).lanes[k] = { r.lane with settled := r.lane.settled + n, declared := [] } ∧
      (s.finishLane k r none).wires = { s.wires with
        laneMsgs := upd s.wires.laneMsgs k fun q => q ++
          s.tagAll ((List.range' (r.lane.settled + 1) n).map LaneMsg.gap ++
            if (List.range' (r.lane.settled + 1) n).isEmpty then [] else [.settled (r.lane.settled + n)])
        faults := s.wires.faults ++ r.faults.map fun m => (FaultSender.lane k, m)
        increments := s.wires.increments ++ (List.range n).map fun i => (.lane k, .gapLine (c i)) } := by
  have hlane := Lane.resettle_range hrun hnow hdecl (some (0, none))
  have hmsgs : (if r.lane.settled < r.lane.settled + n then [LaneMsg.settled (r.lane.settled + n)] else []) =
      if (List.range' (r.lane.settled + 1) n).isEmpty then [] else [.settled (r.lane.settled + n)] := by
    cases n <;> simp
  rw [State.finishLane_none, State.finishLane_same, State.finishLane_wires hsh, hlane]
  refine ⟨rfl, ?_⟩
  simp only [Lane.gapsTo_range 0 hnet hdecl, Lane.reports, hmsgs, List.map_map, List.range'_eq_map_range,
    Function.comp_def]

/-- The same, said with the first and the last of the lines. -/
theorem State.finishLane_told {first top n : Nat} {c : Nat → GapCause} (hsh : s.cmd.shadow = some sh)
    (hnet : sh.netLo ≤ sh.lanes[k].ownHi ∧ sh.lanes[k].ownLo ≤ sh.netHi) (hrun : r.lane.runState = .running)
    (hfirst : r.lane.settled + 1 = first) (hnow : r.lane.settledNow = top) (htop : top + 1 = first + n)
    (hdecl : r.lane.declared = (List.range n).map fun i => { line := r.lane.settled + 1 + i, cause := c i }) :
    (s.finishLane k r none).lanes[k].settled = top ∧ (s.finishLane k r none).lanes[k].declared = [] ∧
      (s.finishLane k r none).wires = { s.wires with
        laneMsgs := upd s.wires.laneMsgs k fun q => q ++
          s.tagAll ((List.range' first n).map LaneMsg.gap ++
            if (List.range' first n).isEmpty then [] else [.settled top])
        faults := s.wires.faults ++ r.faults.map fun m => (FaultSender.lane k, m)
        increments := s.wires.increments ++ (List.range (List.range' first n).length).map fun i =>
          (.lane k, .gapLine (c i)) } := by
  have hsum : r.lane.settled + n = top := by omega
  obtain ⟨hlane, hwires⟩ := State.finishLane_range (s := s) hsh hnet hrun (hnow.trans hsum.symm) hdecl
  rw [hfirst, hsum] at hwires
  rw [hlane, List.length_range']
  exact ⟨hsum, rfl, hwires⟩

end
end Sys2Proof.Machine
end

section
/-! The line triggers a lane takes (R26 to R29); and with them O26. -/

namespace Sys2Proof.Machine

/-! ### Declarations in OFF and FAULTED -/

/-- In OFF and FAULTED declarations are counted and recorded alone (R28). -/
theorem Lane.declareAll_stopped {l : Lane} (stall : Nat) {given : GapCause} (h : l.state = .off ∨ l.state = .faulted)
    (hgiven : l.state.cause given = given) (xs : List Nat) (n : Nat) :
    { l.declareAll stall (xs.map fun x => (x, given)) with accounted := max l.accounted n } =
      l.declaredUpTo xs given n := by
  have htracking : l.state ≠ .tracking := by rcases h with h | h <;> rw [h] <;> decide
  have hring : l.declaring stall xs.length = l.declaring 0 xs.length := by
    unfold Lane.declaring
    rcases h with h | h <;> simp only [h]
  have hcause : ∀ i, l.declaredCause stall (l.state.cause given) i = given := by
    intro i
    rw [hgiven]
    unfold Lane.declaredCause
    rcases h with h | h <;> rw [h]
  have hlines : l.declarations stall (xs.map fun x => (x, given)) = xs.map fun x => { line := x, cause := given } := by
    rw [Lane.declarations_eq stall _ (fun ht => absurd ht htracking)]
    exact List.ext_getElem? fun i => by
      simp only [List.getElem?_mapIdx, List.getElem?_map, Option.map_map, Function.comp_def, hcause]
  rw [Lane.declareAll, List.length_map, hring, hlines, Lane.declaredUpTo]

theorem Lane.stalls_stopped {l : Lane} (stall n : Nat) (h : l.state ≠ .tracking) : l.stalls stall n = 0 := by
  rw [Lane.stalls_eq, if_neg (fun hc => h hc.1)]

@[simp] theorem Lane.declaredUpTo_runState (l : Lane) (xs : List Nat) (c : GapCause) (n : Nat) :
    (l.declaredUpTo xs c n).runState = l.runState :=
  (congrArg Lane.runState (l.declaring_frame 0 xs.length) :)

theorem Lane.declaredUpTo_trigger (l : Lane) (xs : List Nat) (c : GapCause) (n t : Nat) :
    ({ l with trigger := t } : Lane).declaredUpTo xs c n = { l.declaredUpTo xs c n with trigger := t } := by
  have hring := Lane.declaring_congr (m := { l with trigger := t }) 0 l xs.length rfl rfl rfl rfl
  unfold Lane.declaredUpTo
  rw [hring]
  conv_rhs => rw [l.declaring_frame 0 xs.length]

/-! ### What a trigger does to its lane -/

/-- The lane that takes a trigger, its trigger count raised (R27). -/
def Lane.triggered (l : Lane) (n : Nat) : Lane := { l with trigger := n }

/-- A trigger in OFF or FAULTED, in RUNNING, declares every line above the accounted line up to it (R27). -/
theorem Lane.takeTrigger_stopped {l : Lane} (tm : LaneTiming) (n : Nat) {given : GapCause}
    (hgiven : given = if l.state = .faulted then .faulted else .disabled)
    (h : l.state = .off ∨ l.state = .faulted) (hrun : l.state = .off → l.runState = .running) :
    l.takeTrigger tm n =
      Lane.step { l.declaredUpTo (List.range' (l.accounted + 1) (n - l.accounted)) given n with trigger := n } := by
  have htracking : l.state ≠ .tracking := by rcases h with h | h <;> rw [h] <;> decide
  have hcause : l.state.cause given = given := by
    rw [hgiven]
    rcases h with h | h <;> rw [h] <;> rfl
  have htake : l.takeTrigger tm n = (l.triggered n).step.declareUpTo tm.stall given n := by
    unfold Lane.takeTrigger
    rcases h with h | h
    · simp [h, hrun h, hgiven, Lane.triggered]
    · simp [h, hgiven, Lane.triggered]
  have hlane := Lane.declareAll_stopped (l := l.triggered n) tm.stall h hcause
    (List.range' (l.accounted + 1) (n - l.accounted)) n
  have hchanges := Lane.stalls_stopped (l := l.triggered n) tm.stall (n - l.accounted) htracking
  rw [htake, LaneStep.declareUpTo_eq, ← l.declaredUpTo_trigger]
  exact congrArg₂ (fun lane changes => ({ lane := lane, faults := [], ready := [], changes := changes } : LaneStep))
    hlane ((Nat.zero_add _).trans hchanges)

theorem Lane.takeTrigger_ignored {l : Lane} (tm : LaneTiming) (n : Nat) (h : l.state = .off)
    (hrun : l.runState ≠ .running) : l.takeTrigger tm n = l.step := by
  simp only [Lane.takeTrigger, h, if_neg hrun]

theorem Lane.takeTrigger_capturing {l : Lane} (tm : LaneTiming) (n : Nat)
    (h : l.state ∈ [.waiting, .locking, .tracking, .dropout]) :
    l.takeTrigger tm n = (l.triggered n).step.deadline tm n := by
  simp only [List.mem_cons, List.not_mem_nil, or_false] at h
  unfold Lane.takeTrigger
  rcases h with h | h | h | h <;> simp only [h, Lane.triggered]

/-- The deadline leaves a line in progress above it (R27). -/
theorem LaneStep.deadline_above {r : LaneStep} {tm : LaneTiming} {n : Nat} (hlag : tm.lag < n)
    (h : ∀ p, r.lane.line = some p → n - tm.lag < p.line) :
    r.deadline tm n = r.declareUpTo tm.stall .missed (n - tm.lag) := by
  unfold LaneStep.deadline
  rw [if_pos hlag]
  cases hp : r.lane.line with
  | none => rfl
  | some p => simp only [if_neg (h p hp).not_ge]

/-- The deadline abandons and declares a line in progress that it has reached (R27). -/
theorem LaneStep.deadline_reached {r : LaneStep} {tm : LaneTiming} {n : Nat} (hlag : tm.lag < n)
    (h : ∀ p, r.lane.line = some p → p.line ≤ n - tm.lag) :
    r.deadline tm n = (r.abandonDeclared tm.stall .missed).declareUpTo tm.stall .missed (n - tm.lag) := by
  unfold LaneStep.deadline
  rw [if_pos hlag]
  cases hp : r.lane.line with
  | none => simp only [LaneStep.abandonDeclared, hp]
  | some p => simp only [if_pos (h p hp)]

theorem LaneStep.deadline_early {r : LaneStep} {tm : LaneTiming} {n : Nat} (hlag : ¬ tm.lag < n) : r.deadline tm n = r :=
  if_neg hlag

/-- The trigger count, the accounted line and the line in progress that a deadline leaves (R27). -/
theorem LaneStep.deadline_lane (r : LaneStep) (tm : LaneTiming) (n : Nat) :
    (r.deadline tm n).lane.trigger = r.lane.trigger ∧
      (r.deadline tm n).lane.accounted = max r.lane.accounted (n - tm.lag) ∧
      ∀ p, r.lane.line = some p →
        (r.deadline tm n).lane.line = if tm.lag < n ∧ p.line ≤ n - tm.lag then none else some p := by
  by_cases hlag : tm.lag < n
  · cases hline : r.lane.line with
    | none =>
      rw [LaneStep.deadline_above hlag (by simp [hline]), LaneStep.declareUpTo_eq]
      exact ⟨Lane.declareAll_trigger _ _ _, rfl, fun p hp => nomatch hp⟩
    | some q =>
      by_cases hq : q.line ≤ n - tm.lag
      · rw [LaneStep.deadline_reached hlag (by simpa [hline] using hq), LaneStep.declareUpTo_eq,
          LaneStep.abandonDeclared_eq]
        simp [hlag, hq]
      · have habove : ∀ p, r.lane.line = some p → n - tm.lag < p.line := by
          rintro p hp
          obtain rfl := Option.some.inj (hline.symm.trans hp)
          exact Nat.lt_of_not_le hq
        rw [LaneStep.deadline_above hlag habove, LaneStep.declareUpTo_eq]
        simp [hline, Nat.lt_of_not_le hq]
  · rw [LaneStep.deadline_early hlag, Nat.sub_eq_zero_of_le (Nat.le_of_not_lt hlag), Nat.max_zero]
    exact ⟨rfl, rfl, fun p hp => by simp [hlag, hp]⟩

/-! ### The taking of a trigger -/

/-- The state once lane k has taken a line trigger from its wire. -/
def State.triggerTaken (s : State) (k : LaneId) (rest : List (Tagged Nat)) : State :=
  { s with wires := { s.wires with triggers := upd s.wires.triggers k fun _ => rest } }

theorem exec_laneLineTrigger {k : LaneId} {n : Nat} {rest : List (Tagged Nat)} {s : State} {sh : Shadow}
    (hr : s.inReset = false) (hw : s.wires.triggers[k] = { epoch := s.epoch, msg := n } :: rest)
    (hsh : s.cmd.shadow = some sh) :
    exec (.laneLineTrigger k) s =
      .next ((s.triggerTaken k rest).finishLane k (s.lanes[k].takeTrigger sh.timing n) none) := by
  refine congrArg Host.Outcome.next ((receive_taken hr hw).trans ?_)
  unfold takeLineTrigger
  simp only [hsh]
  rfl


theorem Lane.triggered_abandoned (l : Lane) (n : Nat) : (l.triggered n).abandoned = { l.abandoned with trigger := n } := by
  rcases l with ⟨_, _, _, _, _, _ | ⟨_, _, _ | _, _⟩, _, _, _, _, _, _, _, _⟩ <;> rfl

/-- A trigger whose deadline reaches the first open line gives up every line up to it (R27). -/
theorem Lane.takeTrigger_givesUp {l : Lane} {tm : LaneTiming} {n : Nat}
    (h : l.state ∈ [.waiting, .locking, .tracking, .dropout]) (hlag : tm.lag < n)
    (hline : ∀ p, l.line = some p → p.line ≤ n - tm.lag) :
    let gs := l.inProgress .missed ++ l.upTo .missed (n - tm.lag)
    l.takeTrigger tm n =
      { lane := { l.abandoned.declareAll tm.stall gs with trigger := n, accounted := max l.accounted (n - tm.lag) }
        faults := [], ready := [], changes := l.stalls tm.stall gs.length } := by
  intro gs
  have hcongr := Lane.declareAll_congr (m := (l.triggered n).abandoned) tm.stall l.abandoned gs
    (by simp [Lane.triggered]) (by simp [Lane.triggered]) (by simp [Lane.triggered]) (by simp [Lane.triggered])
    (by simp [Lane.triggered])
  have hlane : { (l.triggered n).abandoned.declareAll tm.stall gs with accounted := max l.accounted (n - tm.lag) } =
      { l.abandoned.declareAll tm.stall gs with trigger := n, accounted := max l.accounted (n - tm.lag) } := by
    rw [hcongr, Lane.triggered_abandoned, l.abandoned.declareAll_frame]
  have hchanges : (l.triggered n).stalls tm.stall gs.length = l.stalls tm.stall gs.length := by
    rw [Lane.stalls_eq, Lane.stalls_eq]
    rfl
  rw [Lane.takeTrigger_capturing tm n h, LaneStep.deadline_reached hlag hline, LaneStep.giveUp_eq]
  exact congrArg₂ (fun lane changes => ({ lane := lane, faults := [], ready := [], changes := changes } : LaneStep))
    hlane ((Nat.zero_add _).trans hchanges)

/-- The lane that gives up its lines up to the deadline settles them all (R27, R32). -/
theorem Lane.givesUp_settledNow {l : Lane} {n d : Nat} (stall : Nat) (gs : List (Nat × GapCause))
    (hline : ∀ p, l.line = some p → p.line = l.accounted) (hbelow : l.settledBelow l.firstOpen) (hd : l.accounted ≤ d) :
    Lane.settledNow { l.abandoned.declareAll stall gs with trigger := n, accounted := max l.accounted d } =
      l.settled + (d + 1 - l.firstOpen) := by
  obtain ⟨_, ha, hb, _, hfirst⟩ := hbelow
  obtain ⟨hlo, hhi⟩ := Lane.firstOpen_bounds hline
  rw [Lane.settledNow_of_none]
  · dsimp only
    omega
  · simp [Lane.pendingLines, l.abandoned_not_ready.1 ha, l.abandoned_not_ready.2 hb]

theorem State.finishLane_takeTrigger {s : State} {k : LaneId} {l : Lane} {sh : Shadow} {n d : Nat}
    (hsh : s.cmd.shadow = some sh) (h : l.state ∈ [.waiting, .locking, .tracking, .dropout])
    (hmiss : l.misses < sh.timing.stall) (hlag : sh.timing.lag < n) (hd : d = n - sh.timing.lag)
    (hline : ∀ p, l.line = some p → p.line = l.accounted) (hbelow : l.settledBelow l.firstOpen)
    (hfirst : l.firstOpen ≤ d) (hnet : sh.netLo ≤ sh.lanes[k].ownHi ∧ sh.lanes[k].ownLo ≤ sh.netHi) :
    let t := s.finishLane k (l.takeTrigger sh.timing n) none
    let lines := List.range' l.firstOpen (d + 1 - l.firstOpen)
    let after := l.abandoned.declaring sh.timing.stall lines.length
    t.lanes[k] = { after with trigger := n, accounted := d, settled := d } ∧ t.engine = s.engine ∧
      t.wires = { s.wires with
        laneMsgs := upd s.wires.laneMsgs k fun q => q ++ s.tagAll (lines.map LaneMsg.gap ++ [.settled d])
        increments := s.wires.increments ++ (List.range lines.length).map fun i =>
          (.lane k, .gapLine (l.declaredCause sh.timing.stall .missed i)) } ∧
      t.writer.pageSeq = s.writer.pageSeq + (if after.state = l.state then 0 else 1) := by
  intro t lines after
  obtain ⟨hlo, hhi⟩ := Lane.firstOpen_bounds hline
  have hacc : l.accounted ≤ d := hlo.trans hfirst
  have hreach : ∀ p, l.line = some p → p.line ≤ n - sh.timing.lag := fun p hp => hd ▸ (hline p hp).trans_le hacc
  have htake := Lane.takeTrigger_givesUp h hlag hreach
  rw [← hd] at htake
  have hgs : (l.inProgress .missed ++ l.upTo .missed d).length = lines.length := by
    rw [Lane.givenUp_range hline .missed hacc, List.length_map, List.length_range, List.length_range']
  have hcause : l.openCause .missed = fun _ => GapCause.missed := by
    funext i
    simp only [Lane.openCause, ite_self]
  obtain ⟨hrun, _, _, hdecl, hsettled⟩ := id hbelow
  have hstep : (l.takeTrigger sh.timing n).lane.settled = l.settled := by
    rw [htake]
    simp
  obtain ⟨hlane, hwires⟩ := State.finishLane_range (s := s) (r := l.takeTrigger sh.timing n) (n := d + 1 - l.firstOpen)
    (c := fun i => l.declaredCause sh.timing.stall .missed i) hsh hnet
    (by rw [htake]; simpa using hrun)
    (by rw [hstep, htake]; exact Lane.givesUp_settledNow _ _ hline hbelow hacc)
    (by
      rw [hstep, htake]
      have hrange := Lane.declareAll_declared_range h hmiss hline hbelow .missed hacc
      rwa [hcause] at hrange)
  have htop : l.settled + (d + 1 - l.firstOpen) = d := by omega
  refine ⟨?_, State.finishLane_engine_kept (by rw [htake]) none, ?_, ?_⟩
  · have hdeclared : after.declared = [] :=
      (congrArg Lane.declared (l.abandoned.declaring_frame _ _)).trans (l.abandoned_declared.trans hdecl)
    have hafter : l.abandoned.declaring sh.timing.stall (l.inProgress .missed ++ l.upTo .missed d).length = after :=
      congrArg (fun x => l.abandoned.declaring sh.timing.stall x) hgs
    rw [hstep, htop] at hlane
    rw [hlane, htake, Nat.max_eq_right hacc]
    show { l.abandoned.declaring sh.timing.stall (l.inProgress .missed ++ l.upTo .missed d).length with
      trigger := n, accounted := d, settled := d, declared := [] } = _
    rw [hafter, ← hdeclared]
  · rw [hstep, hsettled, htop] at hwires
    have hlast : (if lines.isEmpty then [] else [LaneMsg.settled d]) = [.settled d] := by
      rw [if_neg]
      simp [lines, List.isEmpty_iff]
      omega
    have hfaults : (l.takeTrigger sh.timing n).faults = [] := by rw [htake]
    have hlength : lines.length = d + 1 - l.firstOpen := List.length_range'
    rw [hfaults, List.map_nil, List.append_nil] at hwires
    rw [← hlast, hlength]
    exact hwires
  · have hchanges : (l.takeTrigger sh.timing n).changes = if after.state = l.state then 0 else 1 := by
      rw [htake]
      show l.stalls sh.timing.stall (l.inProgress .missed ++ l.upTo .missed d).length = _
      rw [hgs, Lane.stalls, Lane.declaring_state, Lane.declaring_state, Lane.abandoned_state, Lane.abandoned_misses]
    rw [State.finishLane_pageSeq, hchanges]
    split <;> rfl

/-- Settles O26: the trigger's step by lane state (`Lane.takeTrigger_stopped`, `LaneStep.deadline_lane`), and the end of the
event (`State.finishLane_settlesAfter`, `State.finishLane_range`). -/
theorem lineTriggerAtEveryLaneState : Obligations.LineTriggerAtEveryLaneState := by
  refine ⟨fun k n rest s sh hr hw hsh => ?_, fun k n rest s sh hr hw hsh hst hrun => ?_,
    fun k n rest s sh hr hw hsh hst hmiss hlag hline => ?_⟩
  · refine ⟨_, exec_laneLineTrigger hr hw hsh, ?_, fun j hj => State.finishLane_other _ _ _ _ _ hj, ?_⟩
    · rw [State.finishLane_none, State.finishLane_wires (by exact hsh)]
      rfl
    rw [State.finishLane_same, Lane.resettle_frame]
    have hcapturing : s.lanes[k].state ∈ [.waiting, .locking, .tracking, .dropout] →
        (s.lanes[k].takeTrigger sh.timing n).lane.trigger = n ∧
        (s.lanes[k].takeTrigger sh.timing n).lane.accounted = max s.lanes[k].accounted (n - sh.timing.lag) ∧
        ∀ p, s.lanes[k].line = some p → (s.lanes[k].takeTrigger sh.timing n).lane.line =
          if sh.timing.lag < n ∧ p.line ≤ n - sh.timing.lag then none else some p := fun h => by
      rw [Lane.takeTrigger_capturing sh.timing n h]
      exact LaneStep.deadline_lane (s.lanes[k].triggered n).step sh.timing n
    cases hst : s.lanes[k].state with
    | off =>
      dsimp only
      by_cases hrun : s.lanes[k].runState = .running
      · rw [if_pos hrun, Lane.takeTrigger_stopped sh.timing n rfl (.inl hst) (fun _ => hrun)]
        exact ⟨rfl, rfl⟩
      · rw [if_neg hrun]
        rw [Lane.takeTrigger_ignored sh.timing n hst hrun, State.finishLane_lanes]
        refine (congrArg (fun l => upd s.lanes k fun _ => l) ?_).trans (upd_self s.lanes k)
        exact Lane.resettle_still (fun h => absurd h hrun) none
    | faulted =>
      rw [Lane.takeTrigger_stopped sh.timing n rfl (.inr hst) (fun h => by rw [hst] at h; cases h)]
      exact ⟨rfl, rfl⟩
    | waiting | locking | tracking | dropout => exact hcapturing (by rw [hst]; decide)
  · refine ⟨_, exec_laneLineTrigger hr hw hsh, ?_⟩
    rw [Lane.takeTrigger_stopped sh.timing n rfl hst fun _ => hrun]
    exact State.finishLane_step (s := s.triggerTaken k rest) hsh (by simpa using hrun)
  · intro _ first _ hbelow hfirst hlo hhi _ _
    obtain ⟨hlane, hengine, hwires, hpage⟩ := State.finishLane_takeTrigger (s := s.triggerTaken k rest) hsh hst hmiss hlag rfl hline
      hbelow hfirst ⟨hlo, hhi⟩
    exact ⟨_, exec_laneLineTrigger hr hw hsh, hlane, hengine, hwires, hpage⟩

end Sys2Proof.Machine
end

section
/-! What a landing write does to its lane (R20 to R25). -/

namespace Sys2Proof.Machine

/-! ### The line a start means -/

/-- The lines of the lag window above 0 that land in a slot (R22). -/
def inWindow (lag slots trigger slot m : Nat) : Prop := m ≤ trigger ∧ trigger < m + lag ∧ m % slots = slot

theorem slotLine_inWindow {lag slots trigger slot m : Nat} (h : slotLine lag slots trigger slot = some m) :
    inWindow lag slots trigger slot m := by
  unfold slotLine at h
  split at h
  · cases h
  · rename_i d hd
    obtain rfl := Option.some.inj h
    have hp := List.find?_some hd
    have hmem := List.mem_range.mp (List.mem_of_find?_eq_some hd)
    simp only [Bool.and_eq_true, decide_eq_true_eq] at hp
    exact ⟨Nat.sub_le _ _, by omega, hp.2⟩

/-- With no more lines in the window than slots, one line of the window lands in a slot (R22). -/
theorem slotLine_of_inWindow {lag slots trigger slot m : Nat} (hm : 0 < m) (hlag : lag ≤ slots)
    (h : inWindow lag slots trigger slot m) : slotLine lag slots trigger slot = some m := by
  obtain ⟨hle, hlt, hslot⟩ := h
  have hfind : (List.range lag).find? (fun d => decide (d < trigger) && decide ((trigger - d) % slots = slot)) =
      some (trigger - m) := by
    rw [List.find?_range_eq_some]
    refine ⟨?_, List.mem_range.mpr (by omega), fun j hj => ?_⟩
    · simp only [Bool.and_eq_true, decide_eq_true_eq]
      exact ⟨by omega, by rw [Nat.sub_sub_self hle, hslot]⟩
    · simp only [Bool.not_and, Bool.or_eq_true, Bool.not_eq_true', decide_eq_false_iff_not]
      refine .inr fun hc => ?_
      have hcong : (trigger - j) % slots = m % slots := hc.trans hslot.symm
      have hdvd := (Nat.modEq_iff_dvd' (show m ≤ trigger - j by omega)).mp hcong.symm
      exact absurd (Nat.le_of_dvd (by omega) hdvd) (by omega)
  unfold slotLine
  rw [hfind]
  dsimp only
  rw [Nat.sub_sub_self hle]

/-! ### A write sorted -/

section
variable {l : Lane} {g : LaneGeometry} {tm : LaneTiming} {k : LaneId} {w : LandingCopy} {slot offset : Nat} {r : LaneStep}

theorem Lane.write_capturing (h : l.state ∈ [.waiting, .locking, .tracking, .dropout]) :
    l.write g tm k w = some (
      if (w.addr - g.base + w.span - 1) / g.stride = (w.addr - g.base) / g.stride then
        l.step.sortWrite g tm k ((w.addr - g.base) / g.stride) ((w.addr - g.base) % g.stride) w
      else l.step.slotCross tm.stall k ((w.addr - g.base) / g.stride) w) := by
  simp only [List.mem_cons, List.not_mem_nil, or_false] at h
  unfold Lane.write
  rcases h with h | h | h | h <;> simp only [h]

/-- A write that stays within a slot (R20). -/
theorem Lane.write_within (h : l.state ∈ [.waiting, .locking, .tracking, .dropout]) (hspan : 0 < w.span)
    (haddr : w.addr = g.base + slot * g.stride + offset) (hfits : offset + w.span ≤ g.stride) :
    l.write g tm k w = some (l.step.sortWrite g tm k slot offset w) := by
  have hrel : w.addr - g.base = offset + g.stride * slot := by rw [haddr, Nat.mul_comm slot]; omega
  have hslot : (w.addr - g.base) / g.stride = slot := by
    rw [hrel, Nat.add_mul_div_left _ _ (by omega), Nat.div_eq_of_lt (by omega), Nat.zero_add]
  have hlast : (w.addr - g.base + w.span - 1) / g.stride = slot := by
    rw [hrel, show offset + g.stride * slot + w.span - 1 = (offset + w.span - 1) + g.stride * slot by omega,
      Nat.add_mul_div_left _ _ (by omega), Nat.div_eq_of_lt (by omega), Nat.zero_add]
  have hoffset : (w.addr - g.base) % g.stride = offset := by
    rw [hrel, Nat.add_mul_mod_self_left, Nat.mod_eq_of_lt (by omega)]
  rw [Lane.write_capturing h, hlast, hslot, hoffset, if_pos rfl]

/-- A write that crosses a slot boundary (R20). -/
theorem Lane.write_across (h : l.state ∈ [.waiting, .locking, .tracking, .dropout])
    (hslot : slot = (w.addr - g.base) / g.stride) (hacross : (w.addr - g.base + w.span - 1) / g.stride ≠ slot) :
    l.write g tm k w = some (l.step.slotCross tm.stall k slot w) := by
  rw [Lane.write_capturing h, ← hslot, if_neg hacross]

theorem Lane.write_ignored (h : l.state = .off ∨ l.state = .faulted) : l.write g tm k w = none := by
  unfold Lane.write
  rcases h with h | h <;> simp only [h]

theorem LaneStep.sortWrite_padding (h : g.length ≤ offset) : r.sortWrite g tm k slot offset w = r := if_pos h

/-- A start: the write is at offset 0 with every byte of the line enabled (R21). -/
def LandingCopy.starts (w : LandingCopy) (g : LaneGeometry) (offset : Nat) : Prop :=
  offset = 0 ∧ enabledBelow w offset g.length = true ∧ 0 < g.length

theorem LaneStep.sortWrite_start (h : w.starts g offset) :
    r.sortWrite g tm k slot offset w = r.startWrite g tm k slot w := by
  obtain ⟨hoff, hwhole, hlen⟩ := h
  unfold LaneStep.sortWrite
  rw [if_neg (by omega), if_pos ⟨hoff, hwhole⟩]

theorem LaneStep.sortWrite_orphan (h : ¬ w.starts g offset) (hline : r.lane.line = none) :
    r.sortWrite g tm k slot offset w = r := by
  unfold LaneStep.sortWrite
  split
  · rfl
  · rename_i hlen
    rw [if_neg (fun hc => h ⟨hc.1, hc.2, by omega⟩), hline]

theorem LaneStep.sortWrite_line (h : ¬ w.starts g offset) (hlen : offset < g.length) {p : LineInProgress}
    (hline : r.lane.line = some p) :
    r.sortWrite g tm k slot offset w =
      if p.slot = slot ∧ offset = p.next ∧ enabledBelow w offset g.length = true then
        r.capture tm.lockLines g.length offset w p
      else r.tear tm.stall k w.source := by
  unfold LaneStep.sortWrite
  rw [if_neg (by omega), if_neg (fun hc => h ⟨hc.1, hc.2, by omega⟩), hline]

/-- The lane with one more stale write (R22). -/
def Lane.countStale (l : Lane) : Lane := { l with counters := { l.counters with stale := bump l.counters.stale } }

theorem LaneStep.startWrite_stale
    (h : ∀ m, l.accounted < m → ¬ inWindow tm.lag g.slots l.trigger slot m) :
    l.step.startWrite g tm k slot w = l.countStale.step := by
  unfold LaneStep.startWrite
  split
  · rename_i m hm
    exact if_neg (fun hc => h m hc (slotLine_inWindow hm))
  · rfl

theorem LaneStep.startWrite_due {m : Nat} (hm : r.lane.accounted < m) (hlag : tm.lag ≤ g.slots)
    (h : inWindow tm.lag g.slots r.lane.trigger slot m) :
    r.startWrite g tm k slot w = r.start g tm k slot m w := by
  unfold LaneStep.startWrite
  rw [slotLine_of_inWindow (by omega) hlag h]
  exact if_pos hm

/-! ### Capture -/

/-- The lane with bytes captured into its line in progress (R24). -/
def Lane.captured (l : Lane) (p : LineInProgress) (bytes : List Byte) (next : Nat) : Lane :=
  { l.setBuffer p.buffer { l.buffer p.buffer with pixels := (l.buffer p.buffer).pixels ++ bytes } with
    line := some { p with next := next } }

theorem LaneStep.capture_partial {lockLines lb : Nat} {p : LineInProgress} (h : offset + w.span < lb) :
    r.capture lockLines lb offset w p =
      { r with lane := r.lane.captured p (w.data.take (lb - offset)) (offset + w.span) } := by
  unfold LaneStep.capture
  rw [Nat.min_eq_left h.le, if_neg h.ne]
  rfl

theorem LaneStep.capture_last {lockLines lb : Nat} {p : LineInProgress} (h : lb ≤ offset + w.span) :
    r.capture lockLines lb offset w p =
      LaneStep.complete lockLines { p with next := lb }
        { r with lane := r.lane.captured p (w.data.take (lb - offset)) lb } := by
  unfold LaneStep.capture
  rw [Nat.min_eq_right h, if_pos rfl]
  rfl

/-! ### A completed line -/

/-- The capture mode of a line completed in a lane state (R25). -/
def Lane.captureMode (l : Lane) : Mode :=
  match l.state with
  | .tracking => .track
  | .locking | .dropout => .lock
  | _ => .seed

/-- The lane state, lock counter and seeded flag after a line completed (R25). -/
def Lane.locked (lockLines : Nat) (l : Lane) : Lane :=
  match l.state with
  | .locking => { l with lock := l.lock + 1, state := if lockLines ≤ l.lock + 1 then .tracking else .locking }
  | .tracking => l
  | .dropout => { l with lock := 1, state := .locking }
  | _ => { l with lock := 1, seeded := true, state := .locking }

theorem Lane.locked_frame (lockLines : Nat) (l : Lane) :
    l.locked lockLines = { l with
      state := (l.locked lockLines).state, lock := (l.locked lockLines).lock, seeded := (l.locked lockLines).seeded } := by
  unfold Lane.locked
  cases l.state <;> rfl

theorem LaneStep.lockStep_eq (lockLines : Nat) (r : LaneStep) :
    ∃ n, r.lockStep lockLines = ({ r with lane := r.lane.locked lockLines, changes := n }, r.lane.captureMode) := by
  unfold LaneStep.lockStep Lane.locked Lane.captureMode
  cases hst : r.lane.state with
  | locking =>
    by_cases h : lockLines ≤ r.lane.lock + 1
    · exact ⟨r.changes + 1, by simp [h, LaneStep.enter, hst]⟩
    · exact ⟨r.changes, by simp [h, hst]⟩
  | tracking => exact ⟨r.changes, rfl⟩
  | dropout | waiting | off | faulted => exact ⟨r.changes + 1, by simp [LaneStep.enter, hst]⟩

theorem LaneStep.complete_eq (lockLines : Nat) (p : LineInProgress) (r : LaneStep) :
    ∃ n, r.complete lockLines p = { r with
      lane := { (r.lane.locked lockLines).setBuffer p.buffer { (r.lane.locked lockLines).buffer p.buffer with
          state := .ready, mode := some r.lane.captureMode } with
        line := none, misses := 0
        counters := { (r.lane.locked lockLines).counters with
          completed := bump (r.lane.locked lockLines).counters.completed } }
      ready := r.ready ++ [(p.line, p.buffer, r.lane.captureMode)], changes := n } := by
  obtain ⟨n, hlock⟩ := LaneStep.lockStep_eq lockLines r
  unfold LaneStep.complete
  rw [hlock]
  exact ⟨n, rfl⟩

/-- The lane with its line in progress complete, its last bytes captured (R24, R25). -/
def Lane.completed (lockLines : Nat) (p : LineInProgress) (bytes : List Byte) (l : Lane) : Lane :=
  { (l.locked lockLines).setBuffer p.buffer { l.buffer p.buffer with
      state := .ready, mode := some l.captureMode, pixels := (l.buffer p.buffer).pixels ++ bytes } with
    line := none, misses := 0, counters := { l.counters with completed := bump l.counters.completed } }

theorem LaneStep.capture_completes {lockLines lb : Nat} {p : LineInProgress} (h : lb ≤ offset + w.span) :
    ∃ n, l.step.capture lockLines lb offset w p =
      { lane := l.completed lockLines p (w.data.take (lb - offset)), faults := []
        ready := [(p.line, p.buffer, l.captureMode)], changes := n } := by
  obtain ⟨n, hcomplete⟩ := LaneStep.complete_eq lockLines { p with next := lb }
    { l.step with lane := l.captured p (w.data.take (lb - offset)) lb }
  refine ⟨n, ?_⟩
  rw [LaneStep.capture_last h]
  refine hcomplete.trans ?_
  obtain ⟨_, _, i, _⟩ := p
  rw [Lane.locked_frame]
  unfold Lane.completed
  rw [l.locked_frame]
  cases i <;> cases hst : l.state <;> simp [Lane.captured, Lane.setBuffer, Lane.buffer, Lane.captureMode, Lane.locked, hst, Lane.step]

/-! ### A torn line -/

/-- The lane with one more torn line (R23, R24). -/
def Lane.countTorn (l : Lane) : Lane := { l with counters := { l.counters with torn := bump l.counters.torn } }

theorem Lane.declaring_torn (stall n : Nat) (l : Lane) : (l.declaring stall n).counters.torn = l.counters.torn := by
  unfold Lane.declaring
  split
  · rfl
  · cases l.state with
    | tracking => dsimp only; split <;> rfl
    | locking | off | waiting | dropout | faulted => rfl

theorem Lane.declaring_countTorn (stall n : Nat) (l : Lane) :
    l.countTorn.declaring stall n = (l.declaring stall n).countTorn := by
  unfold Lane.declaring Lane.countTorn
  dsimp only
  split
  · rfl
  · cases l.state with
    | tracking => dsimp only; split <;> rfl
    | locking | off | waiting | dropout | faulted => rfl

theorem Lane.declareAll_countTorn (stall : Nat) (l : Lane) (gs : List (Nat × GapCause)) :
    l.countTorn.declareAll stall gs = (l.declareAll stall gs).countTorn := by
  rw [Lane.declareAll, Lane.declaring_countTorn, Lane.declarations_congr (l := l) (m := l.countTorn) stall gs rfl rfl]
  rfl

/-- The faults of a torn line (R35). -/
def Lane.tornFaults (l : Lane) (src : SourceId) (k : LaneId) : List FaultMsg :=
  match l.line with
  | none => []
  | some p => [tornFault src k p.line]

theorem LaneStep.tear_none (h : r.lane.line = none) (stall : Nat) (src : SourceId) : r.tear stall k src = r := by
  unfold LaneStep.tear
  rw [h]

theorem LaneStep.tear_some {p : LineInProgress} (h : r.lane.line = some p) (stall : Nat) (src : SourceId) :
    r.tear stall k src = { r with
      lane := (r.lane.abandoned.declareAll stall [(p.line, .torn)]).countTorn
      faults := r.faults ++ [tornFault src k p.line]
      changes := r.changes + r.lane.stalls stall 1 } := by
  have hmine : r.lane.inProgress .torn = [(p.line, .torn)] := by simp only [Lane.inProgress, h, Option.toList_some,
    List.map_cons, List.map_nil]
  unfold LaneStep.tear
  simp only [h, LaneStep.abandonDeclared_eq, hmine]
  rfl

/-! ### A start -/

/-- The step of a start up to the taking of a buffer: the line in progress torn, the lines below m declared (R23). -/
def LaneStep.closeBelow (stall : Nat) (k : LaneId) (src : SourceId) (m : Nat) (r : LaneStep) : LaneStep :=
  let r := (r.tear stall k src).declareUpTo stall .missed (m - 1)
  { r with lane := { r.lane with accounted := m } }

/-- The lane once a start of line m has closed the lines below it (R23). -/
def Lane.closedBelow (stall m : Nat) (l : Lane) : Lane :=
  let t := l.abandoned.declareAll stall (l.inProgress .torn ++ l.upTo .missed (m - 1))
  { t with
    accounted := m
    counters := if l.line = none then t.counters else { t.counters with torn := bump l.counters.torn } }

theorem LaneStep.closeBelow_eq (stall m : Nat) (src : SourceId) :
    ∃ n, l.step.closeBelow stall k src m =
      { lane := l.closedBelow stall m, faults := l.tornFaults src k, ready := [], changes := n } := by
  unfold LaneStep.closeBelow Lane.closedBelow Lane.tornFaults
  cases hline : l.line with
  | none =>
    have hab : l.abandoned = l := by simp only [Lane.abandoned, hline]
    rw [LaneStep.tear_none hline, LaneStep.declareUpTo_eq]
    simp only [Lane.inProgress, hline, Option.toList_none, List.map_nil, List.nil_append, hab, if_true, Lane.step]
    exact ⟨_, rfl⟩
  | some p =>
    have hmine : l.inProgress .torn = [(p.line, .torn)] := by
      simp only [Lane.inProgress, hline, Option.toList_some, List.map_cons, List.map_nil]
    have hupTo : (l.abandoned.declareAll stall [(p.line, .torn)]).countTorn.upTo .missed (m - 1) = l.upTo .missed (m - 1) := by
      simp only [Lane.upTo, Lane.countTorn, Lane.declareAll_accounted, Lane.abandoned_accounted]
    have htorn : (l.abandoned.declareAll stall ([(p.line, .torn)] ++ l.upTo .missed (m - 1))).counters.torn =
        l.counters.torn := (Lane.declaring_torn _ _ _).trans (congrArg LaneCounters.torn l.abandoned_counters)
    rw [LaneStep.tear_some (r := l.step) hline, LaneStep.declareUpTo_eq]
    simp only [Lane.step, hupTo, Lane.declareAll_countTorn, Lane.declareAll_declareAll, hmine, reduceCtorEq, if_false,
      ← htorn, List.nil_append]
    exact ⟨_, rfl⟩

/-- A lane with a line started in a free buffer, its first bytes captured (R23, R24). -/
def Lane.started (l : Lane) (i : BufferId) (m slot : Nat) (bytes : List Byte) : Lane :=
  { l.setBuffer i { state := .filling, line := m, mode := none, pixels := bytes } with
    line := some { line := m, slot := slot, buffer := i, next := w.span } }

theorem LaneStep.start_free {m : Nat} {i : BufferId} (hspan : w.span < g.length)
    (hfree : (r.closeBelow tm.stall k w.source m).lane.freeBuffer = some i) :
    r.start g tm k slot m w = { r.closeBelow tm.stall k w.source m with
      lane := (r.closeBelow tm.stall k w.source m).lane.started (w := w) i m slot (w.data.take g.length) } := by
  have hstart : r.start g tm k slot m w = LaneStep.capture tm.lockLines g.length 0 w
      { line := m, slot := slot, buffer := i, next := 0 } { r.closeBelow tm.stall k w.source m with
        lane := (r.closeBelow tm.stall k w.source m).lane.setBuffer i
          { state := .filling, line := m, mode := none, pixels := [] } } := by
    unfold LaneStep.start
    dsimp only
    unfold LaneStep.closeBelow at hfree ⊢
    dsimp only at hfree ⊢
    rw [hfree]
  rw [hstart, LaneStep.capture_partial (by omega)]
  unfold Lane.captured Lane.started
  cases i <;> simp [Lane.setBuffer, Lane.buffer]

theorem LaneStep.start_full {m : Nat} (hfree : (r.closeBelow tm.stall k w.source m).lane.freeBuffer = none) :
    r.start g tm k slot m w =
      (let d := LaneStep.declare tm.stall .overrun (r.closeBelow tm.stall k w.source m) m
       { d with lane := { d.lane with counters := { d.lane.counters with overruns := bump d.lane.counters.overruns } } }) := by
  unfold LaneStep.start
  dsimp only
  unfold LaneStep.closeBelow at hfree ⊢
  dsimp only at hfree ⊢
  rw [hfree]

/-! ### A slot crossed, and a lane disabled -/

/-- A lane in OFF or FAULTED gives up its line in progress and every line up to the trigger count (R20, R30). -/
theorem LaneStep.giveUp_stopped (stall : Nat) {given : GapCause} (h : r.lane.state = .off ∨ r.lane.state = .faulted)
    (hgiven : r.lane.state.cause given = given) :
    (r.abandonDeclared stall given).declareUpTo stall given (r.abandonDeclared stall given).lane.trigger = { r with
      lane := r.lane.abandoned.declaredUpTo r.lane.givenUp given r.lane.trigger } := by
  have htrigger : (r.abandonDeclared stall given).lane.trigger = r.lane.trigger := by
    rw [LaneStep.abandonDeclared_eq]
    simp
  have htracking : r.lane.state ≠ .tracking := by rcases h with h | h <;> rw [h] <;> decide
  have hlines : r.lane.inProgress given ++ r.lane.upTo given r.lane.trigger = r.lane.givenUp.map fun x => (x, given) := by
    unfold Lane.inProgress Lane.upTo Lane.givenUp
    cases r.lane.line <;> simp
  have hlane := Lane.declareAll_stopped (l := r.lane.abandoned) stall (by simpa using h)
    (by simpa using hgiven) r.lane.givenUp r.lane.trigger
  rw [Lane.abandoned_accounted] at hlane
  rw [htrigger, LaneStep.giveUp_eq, hlines, hlane, Lane.stalls_stopped stall _ htracking, Nat.add_zero]

theorem Lane.abandoned_with_state (l : Lane) (st : LaneState) :
    ({ l with state := st } : Lane).abandoned = { l.abandoned with state := st } := by
  rcases l with ⟨_, _, _, _, _, _ | ⟨_, _, _ | _, _⟩, _, _, _, _, _, _, _, _⟩ <;> rfl

theorem LaneStep.slotCross_eq (h : l.state ≠ .faulted) (stall : Nat) :
    l.step.slotCross stall k slot w =
      { lane := Lane.declaredUpTo { l.abandoned with state := .faulted } l.givenUp .faulted l.trigger
        faults := [slotCrossFault w.source k slot l.trigger], ready := [], changes := 1 } := by
  have henter : l.step.enter .faulted =
      { lane := { l with state := .faulted }, faults := [], ready := [], changes := 1 } := if_neg h
  let D := Lane.declaredUpTo { l.abandoned with state := .faulted } l.givenUp .faulted l.trigger
  have hgive := LaneStep.giveUp_stopped (r := { lane := { l with state := .faulted }, faults := [], ready := [], changes := 1 })
    stall (given := .faulted) (.inr rfl) rfl
  rw [Lane.abandoned_with_state] at hgive
  have htrigger : D.trigger = l.trigger :=
    (congrArg Lane.trigger (Lane.declaring_frame 0 _ l.givenUp.length) :).trans l.abandoned_trigger
  unfold LaneStep.slotCross
  dsimp only
  rw [henter, hgive]
  show LaneStep.raise { lane := D, faults := [], ready := [], changes := 1 } (slotCrossFault w.source k slot D.trigger) = _
  rw [htrigger]
  rfl

end
end Sys2Proof.Machine
end

section
/-! The landing writes that start, complete and cross (R20 to R25), and those that are sorted (R21 to R24); with them O27. -/

namespace Sys2Proof.Machine

/-! ### The taking of a landing write -/

/-- The state once lane k has taken a landing write from its wire. -/
def State.landingTaken (s : State) (k : LaneId) (rest : List LandingCopy) : State :=
  { s with wires := { s.wires with landing := upd s.wires.landing k fun _ => rest } }

section
variable {s : State} {k : LaneId} {w : LandingCopy} {rest : List LandingCopy} {sh : Shadow} {r : LaneStep}

theorem exec_landingWrite (hr : s.inReset = false) (hw : s.wires.landing[k] = w :: rest) (hsh : s.cmd.shadow = some sh)
    (hwrite : s.lanes[k].write sh.lanes[k] sh.timing k w = some r) :
    exec (.landingWrite k) s = .next ((s.landingTaken k rest).finishLane k r none) := by
  refine congrArg Host.Outcome.next ((receivePlain_taken hr hw).trans ?_)
  unfold takeLanding
  simp only [hsh, hwrite]
  rfl

theorem exec_landingWrite_ignored (hr : s.inReset = false) (hw : s.wires.landing[k] = w :: rest)
    (h : s.lanes[k].state = .off ∨ s.lanes[k].state = .faulted) :
    exec (.landingWrite k) s = .next (s.landingTaken k rest) := by
  refine congrArg Host.Outcome.next ((receivePlain_taken hr hw).trans ?_)
  unfold takeLanding
  cases hsh : s.cmd.shadow with
  | none => rfl
  | some sh => simp only [Lane.write_ignored h]; rfl

end

/-! ### A start -/

section
variable {l : Lane} {g : LaneGeometry} {tm : LaneTiming} {k : LaneId} {w : LandingCopy} {slot offset m : Nat}

theorem enabledBelow_of_all (h : ∀ e ∈ w.enables, e = true) (off lb : Nat) : enabledBelow w off lb = true := by
  unfold enabledBelow
  exact List.all_eq_true.mpr fun e he => h e (List.mem_of_mem_take he)

theorem Lane.write_start (h : l.state ∈ [.waiting, .locking, .tracking, .dropout]) (hspan : 0 < w.span)
    (haddr : w.addr = g.base + slot * g.stride + offset) (hfits : offset + w.span ≤ g.stride) (hstart : w.starts g offset)
    (hm : l.accounted < m) (hlag : tm.lag ≤ g.slots) (hwindow : inWindow tm.lag g.slots l.trigger slot m) :
    l.write g tm k w = some (l.step.start g tm k slot m w) := by
  rw [Lane.write_within h hspan haddr hfits, LaneStep.sortWrite_start hstart,
    LaneStep.startWrite_due (r := l.step) hm hlag hwindow]

theorem Lane.closedBelow_next (hline : l.line = none) (hm : l.accounted + 1 = m) (stall : Nat) :
    l.closedBelow stall m = { l with accounted := m } := by
  have hab : l.abandoned = l := by simp only [Lane.abandoned, hline]
  have hgs : l.inProgress .torn ++ l.upTo .missed (m - 1) = [] := by
    simp [Lane.inProgress, Lane.upTo, hline, ← hm]
  unfold Lane.closedBelow
  rw [hgs, hab, Lane.declareAll_nil]
  simp only [if_pos hline]

theorem Lane.closedBelow_buffers (stall : Nat) :
    (l.closedBelow stall m).bufA = l.abandoned.bufA ∧ (l.closedBelow stall m).bufB = l.abandoned.bufB :=
  ⟨Lane.declareAll_bufA _ _ _, Lane.declareAll_bufB _ _ _⟩

/-- A start that finds a free buffer (R23). -/
theorem LaneStep.start_of_free {i : BufferId} (hspan : w.span < g.length)
    (hfree : (l.closedBelow tm.stall m).freeBuffer = some i) :
    ∃ n, l.step.start g tm k slot m w =
      { lane := (l.closedBelow tm.stall m).started (w := w) i m slot (w.data.take g.length)
        faults := l.tornFaults w.source k, ready := [], changes := n } := by
  obtain ⟨n, hclose⟩ := LaneStep.closeBelow_eq (l := l) (k := k) tm.stall m w.source
  refine ⟨n, ?_⟩
  rw [LaneStep.start_free hspan (by rw [hclose]; exact hfree), hclose]

/-- The lane once a start of line m has found no buffer (R23). -/
def Lane.overrun (stall m : Nat) (l : Lane) : Lane :=
  let t := l.declareAll stall (l.upTo .missed (m - 1) ++ [(m, .overrun)])
  { t with accounted := m, counters := { t.counters with overruns := bump l.counters.overruns } }

theorem Lane.declaring_overruns (stall n : Nat) (l : Lane) :
    (l.declaring stall n).counters.overruns = l.counters.overruns := by
  unfold Lane.declaring
  split
  · rfl
  · cases l.state with
    | tracking => dsimp only; split <;> rfl
    | locking | off | waiting | dropout | faulted => rfl

theorem LaneStep.start_of_full (hline : l.line = none) (hfree : (l.closedBelow tm.stall m).freeBuffer = none) :
    ∃ n, l.step.start g tm k slot m w = { lane := l.overrun tm.stall m, faults := [], ready := [], changes := n } := by
  obtain ⟨n, hclose⟩ := LaneStep.closeBelow_eq (l := l) (k := k) tm.stall m w.source
  have hab : l.abandoned = l := by simp only [Lane.abandoned, hline]
  have hmine : l.inProgress .torn = [] := by simp only [Lane.inProgress, hline, Option.toList_none, List.map_nil]
  have hfaults : l.tornFaults w.source k = [] := by simp only [Lane.tornFaults, hline]
  let t := l.declareAll tm.stall (l.upTo .missed (m - 1))
  have hclosed : l.closedBelow tm.stall m = { t with accounted := m } := by
    unfold Lane.closedBelow
    rw [hab, hmine]
    simp only [if_pos hline]
    rfl
  have hlane : (l.closedBelow tm.stall m).declareAll tm.stall [(m, .overrun)] =
      { l.declareAll tm.stall (l.upTo .missed (m - 1) ++ [(m, .overrun)]) with accounted := m } := by
    rw [hclosed, Lane.declareAll_congr (l := t) (m := { t with accounted := m }) tm.stall _ rfl rfl rfl rfl rfl, ← Lane.declareAll_declareAll]
    conv_rhs => rw [Lane.declareAll_frame]
  have hcount : ((l.closedBelow tm.stall m).declareAll tm.stall [(m, .overrun)]).counters.overruns = l.counters.overruns := by
    rw [hlane]
    exact Lane.declaring_overruns _ _ _
  rw [LaneStep.start_full (r := l.step) (by rw [hclose]; exact hfree), hclose, hfaults]
  dsimp only
  rw [LaneStep.declare_eq]
  dsimp only
  rw [hcount, hlane]
  exact ⟨_, rfl⟩

end

/-! ### The clauses of O27 -/

section
variable {s : State} {k : LaneId} {w : LandingCopy} {rest : List LandingCopy} {sh : Shadow} {slot offset m : Nat}

theorem exec_landingWrite_starts (hr : s.inReset = false) (hw : s.wires.landing[k] = w :: rest)
    (hsh : s.cmd.shadow = some sh) (hst : s.lanes[k].state ∈ [.waiting, .locking, .tracking, .dropout])
    (hline : s.lanes[k].line = none) (hfree : s.lanes[k].bufA.state = .free) (hm : s.lanes[k].accounted + 1 = m)
    (hspan : 0 < w.span) (haddr : w.addr = sh.lanes[k].base + slot * sh.lanes[k].stride)
    (hfits : w.span ≤ sh.lanes[k].stride) (hshort : w.span < sh.lanes[k].length) (hall : ∀ e ∈ w.enables, e = true)
    (hwindow : inWindow sh.timing.lag sh.lanes[k].slots s.lanes[k].trigger slot m)
    (hlag : sh.timing.lag ≤ sh.lanes[k].slots) :
    ∃ n, exec (.landingWrite k) s = .next ((s.landingTaken k rest).finishLane k
      { lane := ({ s.lanes[k] with accounted := m } : Lane).started (w := w) .a m slot (w.data.take sh.lanes[k].length)
        faults := [], ready := [], changes := n } none) := by
  have hstart : w.starts sh.lanes[k] 0 := ⟨rfl, enabledBelow_of_all hall _ _, by omega⟩
  have hwrite := Lane.write_start (k := k) (offset := 0) hst hspan haddr (by omega) hstart (by omega) hlag hwindow
  have hclosed := Lane.closedBelow_next hline hm sh.timing.stall
  have hbuf : (s.lanes[k].closedBelow sh.timing.stall m).freeBuffer = some .a := by
    rw [hclosed]
    exact if_pos hfree
  obtain ⟨n, hr'⟩ := LaneStep.start_of_free (k := k) (slot := slot) hshort hbuf
  have hfaults : s.lanes[k].tornFaults w.source k = [] := by simp only [Lane.tornFaults, hline]
  rw [hclosed, hfaults] at hr'
  exact ⟨n, exec_landingWrite hr hw hsh (hwrite.trans (congrArg some hr'))⟩

theorem exec_landingWrite_completes {p : LineInProgress} (hr : s.inReset = false) (hw : s.wires.landing[k] = w :: rest)
    (hsh : s.cmd.shadow = some sh) (hline : s.lanes[k].line = some p)
    (hst : s.lanes[k].state ∈ [.waiting, .locking, .tracking, .dropout]) (hspan : 0 < w.span) (hnext : 0 < p.next)
    (hopen : p.next < sh.lanes[k].length) (hlast : sh.lanes[k].length ≤ p.next + w.span)
    (hfits : p.next + w.span ≤ sh.lanes[k].stride)
    (haddr : w.addr = sh.lanes[k].base + p.slot * sh.lanes[k].stride + p.next) (hall : ∀ e ∈ w.enables, e = true) :
    ∃ n, exec (.landingWrite k) s = .next ((s.landingTaken k rest).finishLane k
      { lane := s.lanes[k].completed sh.timing.lockLines p (w.data.take (sh.lanes[k].length - p.next)), faults := []
        ready := [(p.line, p.buffer, s.lanes[k].captureMode)], changes := n } none) := by
  obtain ⟨n, hcapture⟩ := LaneStep.capture_completes (l := s.lanes[k]) (lockLines := sh.timing.lockLines) (p := p) hlast
  have hwrite : s.lanes[k].write sh.lanes[k] sh.timing k w = _ := Lane.write_within hst hspan haddr hfits
  rw [LaneStep.sortWrite_line (r := s.lanes[k].step) (fun hc => hnext.ne' hc.1) hopen hline,
    if_pos ⟨rfl, rfl, enabledBelow_of_all hall _ _⟩, hcapture] at hwrite
  exact ⟨n, exec_landingWrite hr hw hsh hwrite⟩

end

section
variable {s : State} {k : LaneId} {sh : Shadow} {l : Lane} (hsh : s.cmd.shadow = some sh)
include hsh

/-! ### Writes sorted: what each kind leaves -/

theorem State.finishLane_idle (hl : s.lanes[k] = l) :
    let t := s.finishLane k l.step none
    t.lanes[k] = { l with settled := t.lanes[k].settled, declared := t.lanes[k].declared } ∧ t.engine = s.engine ∧
      t.wires.faults = s.wires.faults ∧ (l.settledBelow l.firstOpen → t = s) := by
  obtain ⟨_, _, hfaults⟩ := State.finishLane_wires_kept (k := k) (r := l.step) hsh
  refine ⟨s.finishLane_lane k l.step none, State.finishLane_engine_kept rfl none, hfaults.trans (List.append_nil _),
    fun hbelow => ?_⟩
  rw [State.finishLane_still hsh fun _ => (Lane.settledNow_of_settledBelow hbelow).le, ← hl]
  exact congrArg (fun v => { s with lanes := v }) (upd_self s.lanes k)

theorem State.finishLane_stale :
    let t := s.finishLane k l.countStale.step none
    t.lanes[k] = { l.countStale with settled := t.lanes[k].settled, declared := t.lanes[k].declared } ∧
      t.engine = s.engine ∧ t.wires.faults = s.wires.faults ∧
      (l.settledBelow l.firstOpen → t.lanes[k].settled = l.settled ∧ t.wires = s.wires) := by
  obtain ⟨_, _, hfaults⟩ := State.finishLane_wires_kept (k := k) (r := l.countStale.step) hsh
  refine ⟨s.finishLane_lane k l.countStale.step none, State.finishLane_engine_kept rfl none,
    hfaults.trans (List.append_nil _), fun hbelow => ?_⟩
  rw [State.finishLane_still (l := l.countStale) hsh fun _ => (Lane.settledNow_of_settledBelow (l := l.countStale) hbelow).le]
  exact ⟨(congrArg Lane.settled (upd_same s.lanes k fun _ => l.countStale) :), rfl⟩

/-- The line is still pending after a continuation, and with it all that was pending before (R24, R32). -/
theorem State.finishLane_continued {p : LineInProgress} (hline : l.line = some p) (bytes : List Byte) (next : Nat) :
    let t := s.finishLane k (l.captured p bytes next).step none
    t.lanes[k] = { l.captured p bytes next with settled := t.lanes[k].settled, declared := t.lanes[k].declared } ∧
      t.engine = s.engine ∧ t.wires.faults = s.wires.faults ∧
      (p.line ≤ l.settled + 1 ∨ (l.bufA.state = .ready ∧ l.bufA.line ≤ l.settled + 1) ∨
          (l.bufB.state = .ready ∧ l.bufB.line ≤ l.settled + 1) →
        t = { s with lanes := upd s.lanes k fun _ => l.captured p bytes next }) := by
  obtain ⟨_, _, hfaults⟩ := State.finishLane_wires_kept (k := k) (r := (l.captured p bytes next).step) hsh
  have hpending : (l.captured p bytes next).pendingLines = l.pendingLines := by
    obtain ⟨_, _, i, _⟩ := p
    cases i <;> simp [Lane.captured, Lane.setBuffer, Lane.buffer, Lane.pendingLines, hline]
  have hsettled : (l.captured p bytes next).settled = l.settled :=
    Lane.setBuffer_keeps Lane.settled (fun _ _ _ => rfl) l p.buffer _
  refine ⟨s.finishLane_lane k (l.captured p bytes next).step none, State.finishLane_engine_kept rfl none,
    hfaults.trans (List.append_nil _), fun hlow => State.finishLane_still hsh fun _ => ?_⟩
  have hle : ∃ y ∈ l.pendingLines, y ≤ l.settled + 1 := by
    rcases hlow with h | ⟨ha, h⟩ | ⟨hb, h⟩
    · exact ⟨p.line, by simp [Lane.pendingLines, hline], h⟩
    · exact ⟨l.bufA.line, by simp [Lane.pendingLines, ha], h⟩
    · exact ⟨l.bufB.line, by simp [Lane.pendingLines, hb], h⟩
  obtain ⟨y, hy, hle⟩ := hle
  have hnow := Lane.settledNow_le_of_pending (hpending ▸ hy)
  omega

omit hsh in
/-- The line in progress leaves a free buffer behind it, so that a start without one finds no line in progress (R23, R26). -/
theorem Lane.line_none_of_full (ha : l.abandoned.bufA.state ≠ .free) (hb : l.abandoned.bufB.state ≠ .free) : l.line = none := by
  rcases l with ⟨_, _, _, _, _, _ | ⟨_, _, _ | _, _⟩, _, _, _, _, _, _, _, _⟩
  · rfl
  · exact absurd rfl ha
  · exact absurd rfl hb

/-- The faults that a start or a torn line sends (R35). -/
def Lane.tornSends (l : Lane) (src : SourceId) (k : LaneId) : List (FaultSender × FaultMsg) :=
  match l.line with
  | none => []
  | some p => [(.lane k, tornFault src k p.line)]

omit hsh in
theorem Lane.map_tornFaults (l : Lane) (src : SourceId) :
    (l.tornFaults src k).map (fun m => (FaultSender.lane k, m)) = l.tornSends src k := by
  unfold Lane.tornFaults Lane.tornSends
  cases l.line <;> rfl

/-- A write that tears the line in progress (R24). -/
theorem State.finishLane_torn {p : LineInProgress} (hline : l.line = some p) (stall : Nat) (src : SourceId) :
    let t := s.finishLane k (l.step.tear stall k src) none
    let after := l.abandoned.declaring stall 1
    t.lanes[k] = { after with
        counters := { after.counters with torn := bump l.counters.torn }
        settled := t.lanes[k].settled, declared := t.lanes[k].declared } ∧
      t.engine = s.engine ∧ t.wires.faults = s.wires.faults ++ [(.lane k, tornFault src k p.line)] := by
  obtain ⟨_, _, hfaults⟩ := State.finishLane_wires_kept (k := k) (r := l.step.tear stall k src) hsh
  have htear := LaneStep.tear_some (r := l.step) (k := k) hline stall src
  refine ⟨?_, State.finishLane_engine_kept (by rw [htear]; rfl) none, hfaults.trans (by rw [htear]; rfl)⟩
  have hlane := s.finishLane_lane k (l.step.tear stall k src) none
  have htorn : (l.abandoned.declareAll stall [(p.line, .torn)]).counters.torn = l.counters.torn :=
    (Lane.declaring_torn _ _ _).trans (congrArg LaneCounters.torn l.abandoned_counters)
  rw [hlane]
  have hstep : (l.step.tear stall k src).lane = (l.abandoned.declareAll stall [(p.line, .torn)]).countTorn := by rw [htear]; rfl
  rw [hstep, ← htorn]
  rfl

/-- The torn line of a lane that has settled all below it is settled and told (R24, R32, R33). -/
theorem State.finishLane_torn_told {p : LineInProgress} (hline : l.line = some p) {stall : Nat} (src : SourceId)
    (hst : l.state ∈ [.waiting, .locking, .tracking, .dropout]) (hstall : l.misses < stall)
    (hacc : ∀ p, l.line = some p → p.line = l.accounted) (hbelow : l.settledBelow l.firstOpen)
    (hnet : sh.netLo ≤ sh.lanes[k].ownHi ∧ sh.lanes[k].ownLo ≤ sh.netHi) :
    let t := s.finishLane k (l.step.tear stall k src) none
    t.lanes[k].settled = p.line ∧ t.lanes[k].declared = [] ∧ t.wires = { s.wires with
      faults := s.wires.faults ++ [(.lane k, tornFault src k p.line)]
      laneMsgs := upd s.wires.laneMsgs k fun q => q ++ s.tagAll ([p.line].map LaneMsg.gap ++ [.settled p.line])
      increments := s.wires.increments ++ [(.lane k, .gapLine (l.declaredCause stall .torn 0))] } := by
  obtain ⟨hrun, ha, hb, _, hfirst⟩ := id hbelow
  have hopen : l.firstOpen = p.line := by simp only [Lane.firstOpen, hline]
  have htear := LaneStep.tear_some (r := l.step) (k := k) hline stall src
  have hgs : l.inProgress .torn ++ l.upTo .missed l.accounted = [(p.line, .torn)] := by
    simp [Lane.inProgress, Lane.upTo, hline]
  have hrange := Lane.declareAll_declared_range hst hstall hacc hbelow .torn (Nat.le_refl l.accounted)
  rw [hgs, hopen, hacc p hline, Nat.add_sub_cancel_left] at hrange
  have hcause : l.openCause .torn 0 = .torn := by simp [Lane.openCause, hline]
  have hstep : (l.step.tear stall k src).lane = (l.abandoned.declareAll stall [(p.line, .torn)]).countTorn := by rw [htear]; rfl
  have hsettled : (l.step.tear stall k src).lane.settled = l.settled := by
    rw [hstep]
    exact (Lane.declareAll_settled _ _ _).trans l.abandoned_settled
  have hnow : (l.step.tear stall k src).lane.settledNow = p.line := by
    rw [hstep, Lane.settledNow_of_none]
    · exact ((Lane.declareAll_accounted _ _ _).trans l.abandoned_accounted).trans (hacc p hline).symm
    · simp [Lane.pendingLines, Lane.countTorn, l.abandoned_not_ready.1 ha, l.abandoned_not_ready.2 hb]
  have htold := State.finishLane_told (s := s) (k := k) (r := l.step.tear stall k src) (first := p.line) (top := p.line) (n := 1)
    (c := fun i => l.declaredCause stall (l.openCause .torn i) i) hsh hnet
    (by rw [hstep]; exact ((Lane.declareAll_runState _ _ _).trans l.abandoned_runState).trans hrun)
    (by rw [hsettled, hfirst, hopen]) hnow rfl
    (by rw [hsettled, hstep, ← hacc p hline] at *; exact hrange)
  have hfaults : (l.step.tear stall k src).faults = [tornFault src k p.line] := by rw [htear]; rfl
  simp only [hfaults, List.range'_one, List.length_singleton, List.range_one, List.map_cons, List.map_nil, hcause,
    List.isEmpty_cons, Bool.false_eq_true, if_false] at htold
  exact htold

omit hsh in
theorem Lane.inProgress_length (l : Lane) (mine : GapCause) :
    (l.inProgress mine).length = if l.line = none then 0 else 1 := by
  unfold Lane.inProgress
  cases l.line <;> rfl

omit hsh in
theorem Lane.closedBelow_eq (stall m : Nat) :
    let after := l.abandoned.declaring stall ((if l.line = none then 0 else 1) + (m - 1 - l.accounted))
    l.closedBelow stall m = { after with
      accounted := m
      counters := if l.line = none then after.counters else { after.counters with torn := bump l.counters.torn }
      declared := (l.closedBelow stall m).declared } := by
  have hlength : (l.inProgress .torn ++ l.upTo .missed (m - 1)).length =
      (if l.line = none then 0 else 1) + (m - 1 - l.accounted) := by
    rw [List.length_append, Lane.inProgress_length, Lane.upTo_length]
  rw [← hlength]
  rfl

/-- A start that finds a free buffer (R23). -/
theorem State.finishLane_started {i : BufferId} {r : LaneStep} {stall m slot : Nat} {w : LandingCopy} {bytes : List Byte}
    (hlane : r.lane = (l.closedBelow stall m).started (w := w) i m slot bytes)
    (hfaults : r.faults = l.tornFaults w.source k) (hready : r.ready = [])
    (hfree : (l.closedBelow stall m).freeBuffer = some i) :
    let t := s.finishLane k r none
    let after := l.abandoned.declaring stall ((if l.line = none then 0 else 1) + (m - 1 - l.accounted))
    let filling : Buffer := { state := .filling, line := m, mode := none, pixels := bytes }
    t.lanes[k] = { after with
        accounted := m
        line := some { line := m, slot := slot, buffer := if l.abandoned.bufA.state = .free then .a else .b, next := w.span }
        bufA := if l.abandoned.bufA.state = .free then filling else l.abandoned.bufA
        bufB := if l.abandoned.bufA.state = .free then l.abandoned.bufB else filling
        counters := if l.line = none then after.counters else { after.counters with torn := bump l.counters.torn }
        settled := t.lanes[k].settled
        declared := t.lanes[k].declared } ∧
      t.engine = s.engine ∧ t.wires.faults = s.wires.faults ++ l.tornSends w.source k := by
  obtain ⟨_, _, hsent⟩ := State.finishLane_wires_kept (k := k) (r := r) hsh
  rw [hfaults, Lane.map_tornFaults] at hsent
  refine ⟨?_, State.finishLane_engine_kept hready none, hsent⟩
  obtain ⟨hbufA, hbufB⟩ := Lane.closedBelow_buffers (l := l) (m := m) stall
  have hid : i = if l.abandoned.bufA.state = .free then .a else .b := by
    unfold Lane.freeBuffer at hfree
    rw [hbufA, hbufB] at hfree
    split at hfree
    · rename_i ha
      rw [if_pos ha]
      exact (Option.some.inj hfree).symm
    · rename_i ha
      rw [if_neg ha]
      split at hfree
      · exact (Option.some.inj hfree).symm
      · cases hfree
  have hl := s.finishLane_lane k r none
  rw [hlane, Lane.started, Lane.closedBelow_eq, hid] at hl
  refine hl.trans ?_
  have hA := (congrArg Lane.bufA (l.abandoned.declaring_frame stall ((if l.line = none then 0 else 1) + (m - 1 - l.accounted))) :)
  have hB := (congrArg Lane.bufB (l.abandoned.declaring_frame stall ((if l.line = none then 0 else 1) + (m - 1 - l.accounted))) :)
  by_cases ha : l.abandoned.bufA.state = .free
  · simp only [ha, if_true, Lane.setBuffer, hB]
  · simp only [ha, if_false, Lane.setBuffer, hA]

theorem State.finishLane_started_told {i : BufferId} {r : LaneStep} {stall m slot : Nat} {w : LandingCopy} {bytes : List Byte}
    (hlane : r.lane = (l.closedBelow stall m).started (w := w) i m slot bytes)
    (hfaults : r.faults = l.tornFaults w.source k) (hm : l.accounted < m)
    (hst : l.state ∈ [.waiting, .locking, .tracking, .dropout]) (hstall : l.misses < stall)
    (hacc : ∀ p, l.line = some p → p.line = l.accounted) (hbelow : l.settledBelow l.firstOpen)
    (hnet : sh.netLo ≤ sh.lanes[k].ownHi ∧ sh.lanes[k].ownLo ≤ sh.netHi) :
    let t := s.finishLane k r none
    let lines := List.range' l.firstOpen (m - l.firstOpen)
    t.lanes[k].settled = m - 1 ∧ t.lanes[k].declared = [] ∧ t.wires = { s.wires with
      faults := s.wires.faults ++ l.tornSends w.source k
      laneMsgs := upd s.wires.laneMsgs k fun q =>
        q ++ s.tagAll (lines.map LaneMsg.gap ++ (if lines.isEmpty then [] else [.settled (m - 1)]))
      increments := s.wires.increments ++ (List.range lines.length).map fun i =>
        (.lane k, .gapLine (l.declaredCause stall (l.openCause .torn i) i)) } := by
  obtain ⟨hrun, ha, hb, _, hfirst⟩ := id hbelow
  obtain ⟨hlo, hhi⟩ := Lane.firstOpen_bounds hacc
  have hrange := Lane.declareAll_declared_range hst hstall hacc hbelow .torn (Nat.le_sub_one_of_lt hm)
  rw [Nat.sub_add_cancel (by omega : 1 ≤ m)] at hrange
  have hkeep : r.lane.settled = l.settled ∧ r.lane.runState = l.runState ∧ r.lane.declared = (l.closedBelow stall m).declared ∧
      r.lane.pendingLines = [m] := by
    obtain ⟨hA, hB⟩ := Lane.closedBelow_buffers (l := l) (m := m) stall
    have hsettled : (l.closedBelow stall m).settled = l.settled := (Lane.declareAll_settled _ _ _).trans l.abandoned_settled
    have hrunState : (l.closedBelow stall m).runState = l.runState :=
      (Lane.declareAll_runState _ _ _).trans l.abandoned_runState
    rw [hlane]
    cases i <;>
      simp [Lane.started, Lane.setBuffer, hsettled, hrunState, Lane.pendingLines, hA, hB, l.abandoned_not_ready.1 ha,
        l.abandoned_not_ready.2 hb]
  obtain ⟨hsettled, hrunState, hdeclared, hpending⟩ := hkeep
  have hnow : r.lane.settledNow = m - 1 :=
    Lane.settledNow_of_least (y := m) (by rw [hpending]; exact List.mem_singleton_self m) (by rw [hpending]; simp)
  have htold := State.finishLane_told (s := s) (k := k) (r := r) (first := l.firstOpen) (top := m - 1) (n := m - l.firstOpen)
    (c := fun i => l.declaredCause stall (l.openCause .torn i) i) hsh hnet (hrunState.trans hrun) (by rw [hsettled, hfirst])
    hnow (by omega) (by rw [hsettled, hdeclared]; exact hrange)
  rw [hfaults, Lane.map_tornFaults] at htold
  exact htold

/-- A start that finds no free buffer (R23). -/
theorem State.finishLane_overrun {r : LaneStep} {stall m : Nat} (hlane : r.lane = l.overrun stall m) (hfaults : r.faults = [])
    (hready : r.ready = []) (hm : l.accounted < m) :
    let t := s.finishLane k r none
    let after := l.declaring stall (m - l.accounted)
    t.lanes[k] = { after with
        accounted := m
        counters := { after.counters with overruns := bump l.counters.overruns }
        settled := t.lanes[k].settled
        declared := t.lanes[k].declared } ∧
      t.engine = s.engine ∧ t.wires.faults = s.wires.faults := by
  obtain ⟨_, _, hsent⟩ := State.finishLane_wires_kept (k := k) (r := r) hsh
  rw [hfaults, List.map_nil, List.append_nil] at hsent
  refine ⟨?_, State.finishLane_engine_kept hready none, hsent⟩
  have hlength : (l.upTo .missed (m - 1) ++ [(m, GapCause.overrun)]).length = m - l.accounted := by
    rw [List.length_append, Lane.upTo_length, List.length_singleton]
    omega
  have hl := s.finishLane_lane k r none
  rw [hlane] at hl
  rw [← hlength]
  exact hl

/-- With both buffers awaiting analysis the settled line stays below the lower of their lines (R23, R32). -/
theorem State.finishLane_overrun_held {r : LaneStep} {stall m : Nat} (hlane : r.lane = l.overrun stall m)
    (hfaults : r.faults = []) (hm : l.accounted < m) (hst : l.state ∈ [.waiting, .locking, .tracking, .dropout])
    (hstall : l.misses < stall) (hline : l.line = none) (ha : l.bufA.state = .ready) (hb : l.bufB.state = .ready)
    (hlow : l.settled + 1 = min l.bufA.line l.bufB.line) :
    let t := s.finishLane k r none
    t.lanes[k].settled = l.settled ∧ t.wires = s.wires ∧
      t.lanes[k].declared = l.declared ++ (List.range' (l.accounted + 1) (m - l.accounted)).map fun x =>
        { line := x, cause := l.declaredCause stall (if x = m then .overrun else .missed) (x - l.accounted - 1) } := by
  let gs := l.upTo .missed (m - 1) ++ [(m, GapCause.overrun)]
  have hgs : gs = (List.range (m - l.accounted)).map fun i =>
      (l.accounted + 1 + i, if l.accounted + 1 + i = m then GapCause.overrun else .missed) := by
    obtain ⟨d, rfl⟩ := Nat.exists_eq_add_of_lt hm
    have hd : l.accounted + d + 1 - l.accounted = d + 1 := by omega
    simp only [gs, Lane.upTo, hd, List.range_succ, List.map_append, List.range'_eq_map_range, List.map_map]
    congr 1
    · simp only [show l.accounted + d + 1 - 1 - l.accounted = d by omega]
      refine List.map_congr_left fun i hi => ?_
      have := List.mem_range.mp hi
      simp only [Function.comp_apply]
      rw [if_neg (by omega)]
    · simp only [List.map_cons, List.map_nil]
      rw [if_pos (by omega), Nat.add_right_comm]
  have hdeclared : r.lane.declared = l.declared ++ l.declarations stall gs := by rw [hlane]; rfl
  have hkeep : r.lane.settled = l.settled ∧ r.lane.settledNow = l.settled := by
    rw [hlane]
    have hA : (l.overrun stall m).bufA = l.bufA := Lane.declareAll_bufA _ _ _
    have hB : (l.overrun stall m).bufB = l.bufB := Lane.declareAll_bufB _ _ _
    have hL : (l.overrun stall m).line = none := (Lane.declareAll_line _ _ _).trans hline
    refine ⟨Lane.declareAll_settled _ _ _, ?_⟩
    simp only [Lane.settledNow, Lane.pendingLines, hA, hB, hL, ha, hb, if_true, List.append_nil, List.singleton_append,
      List.foldl_cons, List.foldl_nil]
    omega
  obtain ⟨hsettled, hnow⟩ := hkeep
  have hstill : r.lane.runState = .running → r.lane.settledNow ≤ r.lane.settled := fun _ => by omega
  intro t
  rw [State.finishLane_same, Lane.resettle_still hstill, State.finishLane_wires_still hsh hstill, hfaults, hdeclared, hgs,
    Lane.declarations_range hst hstall, List.range'_eq_map_range, List.map_map]
  refine ⟨hsettled, by simp only [List.map_nil, List.append_nil], ?_⟩
  congr 1
  refine List.map_congr_left fun i _ => ?_
  simp only [Function.comp_apply, Nat.sub_sub, Nat.add_sub_cancel_left]

end

/-! ### A slot crossed -/

theorem State.finishLane_crossed {s : State} {k : LaneId} {sh : Shadow} {l : Lane} {w : LandingCopy} {slot : Nat}
    (hsh : s.cmd.shadow = some sh) (hst : l.state ≠ .faulted) (stall : Nat) :
    let fault := slotCrossFault w.source k slot l.trigger
    let after := Lane.declaredUpTo { l.abandoned with state := .faulted } l.givenUp .faulted l.trigger
    let told : State := { s with wires := { s.wires with faults := s.wires.faults ++ [(.lane k, fault)] } }
    let t := s.finishLane k (l.step.slotCross stall k slot w) none
    t.engine = s.engine ∧
      t.lanes[k] = { after with settled := t.lanes[k].settled, declared := t.lanes[k].declared } ∧
      t.wires.faults = told.wires.faults ∧ t.writer.pageSeq = s.writer.pageSeq + 1 ∧
      (l.runState = .running → told.settlesAfter t sh k after 0 none) := by
  intro fault after told t
  have hcross : l.step.slotCross stall k slot w = { lane := after, faults := [fault], ready := [], changes := 1 } :=
    LaneStep.slotCross_eq hst stall
  have hrunState : after.runState = l.runState := (Lane.declaredUpTo_runState _ _ _ _).trans l.abandoned_runState
  obtain ⟨_, _, hfaults⟩ := State.finishLane_wires_kept (k := k)
    (r := { lane := after, faults := [fault], ready := [], changes := 1 }) hsh
  have ht : t = s.finishLane k { lane := after, faults := [fault], ready := [], changes := 1 } none :=
    congrArg (fun r => s.finishLane k r none) hcross
  rw [ht]
  refine ⟨State.finishLane_engine_kept rfl none, State.finishLane_lane _ _ _ _, hfaults, State.finishLane_pageSeq none,
    fun hrun => ?_⟩
  rw [State.finishLane_none]
  exact State.finishLane_settlesAfter (r := { lane := after, faults := [fault], ready := [], changes := 1 }) hsh
    (hrunState.trans hrun) 0 none

/-! ### The lanes that complete a line and that find a buffer -/

theorem Lane.completed_fields (l : Lane) (lockLines : Nat) (p : LineInProgress) (bytes : List Byte) :
    let c := l.completed lockLines p bytes
    c.line = none ∧ c.misses = 0 ∧ c.accounted = l.accounted ∧
      c.counters = { l.counters with completed := bump l.counters.completed } ∧
      c.buffer p.buffer = { l.buffer p.buffer with
        state := .ready, mode := some l.captureMode, pixels := (l.buffer p.buffer).pixels ++ bytes } ∧
      c.state = (l.locked lockLines).state ∧ c.lock = (l.locked lockLines).lock ∧
      c.seeded = (l.locked lockLines).seeded := by
  obtain ⟨_, _, i, _⟩ := p
  unfold Lane.completed
  rw [Lane.locked_frame]
  cases i <;> exact ⟨rfl, rfl, rfl, rfl, rfl, rfl, rfl, rfl⟩

theorem Lane.resettled_buffer (l : Lane) (i : BufferId) (x : Nat) (ds : List DeclaredLine) :
    ({ l with settled := x, declared := ds } : Lane).buffer i = l.buffer i := by
  cases i <;> rfl

theorem Lane.closedBelow_freeBuffer {l : Lane} (stall m : Nat)
    (h : l.abandoned.bufA.state = .free ∨ l.abandoned.bufB.state = .free) :
    ∃ i, (l.closedBelow stall m).freeBuffer = some i := by
  obtain ⟨hA, hB⟩ := Lane.closedBelow_buffers (l := l) (m := m) stall
  unfold Lane.freeBuffer
  rw [hA, hB]
  by_cases ha : l.abandoned.bufA.state = .free
  · exact ⟨.a, if_pos ha⟩
  · exact ⟨.b, by rw [if_neg ha, if_pos (h.resolve_left ha)]⟩

theorem Lane.closedBelow_full {l : Lane} (stall m : Nat)
    (h : ¬ (l.abandoned.bufA.state = .free ∨ l.abandoned.bufB.state = .free)) :
    (l.closedBelow stall m).freeBuffer = none := by
  obtain ⟨hA, hB⟩ := Lane.closedBelow_buffers (l := l) (m := m) stall
  unfold Lane.freeBuffer
  rw [hA, hB, if_neg fun ha => h (.inl ha), if_neg fun hb => h (.inr hb)]

/-- Settles O27: each clause is a step of the lane (`LaneStep.start_of_free`, `LaneStep.capture_completes`,
`LaneStep.slotCross_eq`, `LaneStep.sortWrite_line`) and the end of the event that it makes. -/
theorem landingWritesStartCompleteAndCross : Obligations.LandingWritesStartCompleteAndCross := by
  refine ⟨?_, ?_, ?_, ?_, ?_⟩
  · intro k w rest s sh slot m hr hw hsh hst hline hfree hm hspan haddr hfits hshort hall hle hlt hslot hlag
    obtain ⟨n, hexec⟩ := exec_landingWrite_starts hr hw hsh hst hline hfree hm hspan haddr hfits hshort hall
      ⟨hle, hlt, hslot⟩ hlag
    refine ⟨_, hexec, (State.finishLane_wires_kept (s := s.landingTaken k rest) hsh).1, ?_⟩
    rw [State.finishLane_lane]
    exact ⟨rfl, rfl, rfl, rfl, rfl, rfl, fun j hj => State.finishLane_other _ _ _ _ _ hj⟩
  · intro k w rest s sh p hr hw hsh hline hst hspan hnext hopen hlast hfits haddr hall
    obtain ⟨n, hexec⟩ := exec_landingWrite_completes hr hw hsh hline hst hspan hnext hopen hlast hfits haddr hall
    obtain ⟨hnone, hmisses, hacc, hcounters, hbuffer, hstate, hlock, hseeded⟩ :=
      s.lanes[k].completed_fields sh.timing.lockLines p (w.data.take (sh.lanes[k].length - p.next))
    refine ⟨_, hexec, (State.finishLane_wires_kept (s := s.landingTaken k rest) hsh).1, ?_⟩
    obtain ⟨hanalysis, hlanes⟩ := (s.landingTaken k rest).finishLane_engine k _ none
    rw [State.finishLane_lane, Lane.resettled_buffer]
    refine ⟨hnone, hmisses, hacc, hcounters, fun j hj => State.finishLane_other _ _ _ _ _ hj,
      ⟨hbuffer, State.finishLane_ready none, hanalysis, hlanes⟩, ?_⟩
    cases hst' : s.lanes[k].state <;> simp only [Lane.locked, hst'] at hstate hlock hseeded <;>
      exact ⟨hstate, hlock, hseeded⟩
  · intro k w rest s sh slot hr hw hsh hslot hacross
    by_cases hstop : s.lanes[k].state = .off ∨ s.lanes[k].state = .faulted
    · refine ⟨_, exec_landingWrite_ignored hr hw hstop, rfl, ?_⟩
      rcases hstop with h | h <;> rw [h] <;> exact ⟨rfl, rfl, h, rfl, rfl, rfl⟩
    · have hst : s.lanes[k].state ∈ [.waiting, .locking, .tracking, .dropout] := by
        revert hstop
        cases s.lanes[k].state <;> decide
      have hwrite := Lane.write_across (k := k) (tm := sh.timing) hst hslot hacross
      have hcross := State.finishLane_crossed (s := s.landingTaken k rest) (k := k) (slot := slot) (w := w) hsh
        (fun h => hstop (.inr h)) sh.timing.stall
      refine ⟨_, exec_landingWrite hr hw hsh hwrite, (State.finishLane_wires_kept (s := s.landingTaken k rest) hsh).1, ?_⟩
      split
      · exact absurd (.inl ‹_›) hstop
      · exact absurd (.inr ‹_›) hstop
      · exact ⟨fun j hj => State.finishLane_other _ _ _ _ _ hj, hcross⟩
  · intro k w rest s hr hw hst
    exact exec_landingWrite_ignored hr hw hst
  · intro k w rest s sh slot offset hr hw hsh hst hspan haddr hfits
    have hwrite := Lane.write_within (k := k) (tm := sh.timing) hst hspan haddr hfits
    let u := s.landingTaken k rest
    have hu : u.cmd.shadow = some sh := hsh
    let r := s.lanes[k].step.sortWrite sh.lanes[k] sh.timing k slot offset w
    obtain ⟨hanalysis, hlanes⟩ := u.finishLane_engine k r none
    refine ⟨u.finishLane k r none, exec_landingWrite hr hw hsh hwrite, (State.finishLane_wires_kept hu).1,
      fun j hj => State.finishLane_other u _ _ _ _ hj, hanalysis, hlanes, ?_, ?_, ?_, ?_, ?_⟩
    · intro hidle
      have hr' : r = s.lanes[k].step := by
        rcases hidle with h | ⟨hline, hstart⟩
        · exact LaneStep.sortWrite_padding h
        · exact LaneStep.sortWrite_orphan hstart hline
      obtain ⟨hlane, hengine, hfaults, hstill⟩ := State.finishLane_idle (k := k) hu rfl
      rw [hr']
      exact ⟨hlane, hengine, hfaults, fun ⟨_, hbelow, _⟩ => hstill hbelow⟩
    · intro hstart hdue
      have hr' : r = s.lanes[k].countStale.step :=
        (LaneStep.sortWrite_start hstart).trans (LaneStep.startWrite_stale fun m hm hwin => hdue m ⟨hm, hwin⟩)
      obtain ⟨hlane, hengine, hfaults, hstill⟩ := State.finishLane_stale (k := k) (l := s.lanes[k]) hu
      rw [hr']
      exact ⟨hlane, hengine, hfaults, fun ⟨_, hbelow, _⟩ => hstill hbelow⟩
    · intro m hstart ⟨hm, hwin⟩ hlag hshort freed torn tornFaults
      have hr' : r = _ := (LaneStep.sortWrite_start hstart).trans (LaneStep.startWrite_due hm hlag hwin)
      split
      · rename_i hbuffers
        obtain ⟨i, hfree⟩ := Lane.closedBelow_freeBuffer sh.timing.stall m hbuffers
        obtain ⟨n, hstep⟩ := LaneStep.start_of_free (k := k) (slot := slot) hshort hfree
        have hlane' := congrArg LaneStep.lane (hr'.trans hstep)
        have hfaults' := congrArg LaneStep.faults (hr'.trans hstep)
        obtain ⟨hlane, hengine, hfaults⟩ := State.finishLane_started hu hlane' hfaults'
          (congrArg LaneStep.ready (hr'.trans hstep)) hfree
        exact ⟨fun _ => hlane, hengine, hfaults, fun ⟨hacc, hbelow, hlo, hhi, hstall⟩ =>
          State.finishLane_started_told hu hlane' hfaults' hm hst hstall hacc hbelow ⟨hlo, hhi⟩⟩
      · rename_i hbuffers
        have hline := Lane.line_none_of_full (fun ha => hbuffers (.inl ha)) (fun hb => hbuffers (.inr hb))
        obtain ⟨n, hstep⟩ := LaneStep.start_of_full (g := sh.lanes[k]) (k := k) (slot := slot) (w := w) hline
          (Lane.closedBelow_full sh.timing.stall m hbuffers)
        have hlane' := congrArg LaneStep.lane (hr'.trans hstep)
        have hfaults' := congrArg LaneStep.faults (hr'.trans hstep)
        obtain ⟨hlane, hengine, hfaults⟩ := State.finishLane_overrun hu hlane' hfaults'
          (congrArg LaneStep.ready (hr'.trans hstep)) hm
        exact ⟨fun _ => hlane, hengine, hfaults, fun hstall ha hb hlow =>
          State.finishLane_overrun_held hu hlane' hfaults' hm hst hstall hline ha hb hlow⟩
    · intro p hline hstart hlen hother
      have hr' : r = _ := (LaneStep.sortWrite_line (r := s.lanes[k].step) hstart hlen hline).trans (if_neg hother)
      rw [hr']
      obtain ⟨hlane, hengine, hfaults⟩ := State.finishLane_torn hu hline sh.timing.stall w.source
      exact ⟨fun _ => hlane, hengine, hfaults, fun ⟨hacc, hbelow, hlo, hhi, hstall⟩ =>
        State.finishLane_torn_told hu hline w.source hst hstall hacc hbelow ⟨hlo, hhi⟩⟩
    · intro p hline hstart hslot hnext hwhole hpartial
      have hr' : r = _ := ((LaneStep.sortWrite_line (r := s.lanes[k].step) hstart (by omega) hline).trans
        (if_pos ⟨hslot, hnext, hwhole⟩)).trans (LaneStep.capture_partial hpartial)
      have hcontinued := State.finishLane_continued (k := k) hu hline
        (w.data.take (sh.lanes[k].length - offset)) (offset + w.span)
      rw [hr']
      obtain ⟨_, _, i, _⟩ := p
      cases i <;> exact hcontinued

end Sys2Proof.Machine
end

section
/-! The line an analysis begins with (R39), and what the completion of an analysis leaves (R41, R52); with them O28. -/

namespace Sys2Proof.Machine

/-! ### The oldest eligible entry -/

/-- An entry of a ready list that stands after entries of the lanes in older: the oldest of its lane and, for a TRACK line,
with room in its lane's join queue (R39). -/
def Engine.eligible (e : Engine) (older : List LaneId) (ready : List ReadyEntry) (j : Nat) (y : ReadyEntry) : Prop :=
  (y.mode = .track → e.lanes[y.lane].join.length < 8) ∧ y.lane ∉ older ∧
    ∀ m z, m < j → ready[m]? = some z → z.lane ≠ y.lane

theorem Engine.eligible_cons {e : Engine} {older : List LaneId} {x : ReadyEntry} {rest : List ReadyEntry} {j : Nat}
    {y : ReadyEntry} : e.eligible older (x :: rest) (j + 1) y ↔ e.eligible (x.lane :: older) rest j y := by
  unfold Engine.eligible
  refine and_congr_right fun _ => ⟨fun ⟨hold, hbefore⟩ => ⟨?_, fun m z hm hz => ?_⟩, fun ⟨hold, hbefore⟩ => ⟨?_, ?_⟩⟩
  · exact List.not_mem_cons_of_ne_of_not_mem (fun h => hbefore 0 x j.succ_pos rfl h.symm) hold
  · exact hbefore (m + 1) z (Nat.succ_lt_succ hm) hz
  · exact List.not_mem_of_not_mem_cons hold
  · rintro (_ | m) z hm hz
    · obtain rfl := Option.some.inj hz
      exact fun h => List.ne_of_not_mem_cons hold h.symm
    · exact hbefore m z (Nat.lt_of_succ_lt_succ hm) hz

theorem Engine.eligible_head {e : Engine} {older : List LaneId} {x : ReadyEntry} {rest : List ReadyEntry} :
    e.eligible older (x :: rest) 0 x ↔
      (!older.contains x.lane && (decide (x.mode ≠ .track) || decide (e.lanes[x.lane].join.length < Config.joinQueueLimit))) =
        true := by
  have hmode : (x.mode = .track → e.lanes[x.lane].join.length < 8) ↔
      (x.mode ≠ .track ∨ e.lanes[x.lane].join.length < 8) := imp_iff_not_or
  simp only [Engine.eligible, hmode, Nat.not_lt_zero, false_implies, implies_true, and_true, Bool.and_eq_true,
    Bool.or_eq_true, Bool.not_eq_true', decide_eq_true_eq, List.contains_eq_mem, decide_eq_false_iff_not]
  exact and_comm

/-- The arbiter takes the first eligible entry (R39). -/
theorem chooseEntry_first {e : Engine} {x : ReadyEntry} : ∀ {ready : List ReadyEntry} {older : List LaneId} {i : Nat},
    ready[i]? = some x → e.eligible older ready i x →
    (∀ j y, j < i → ready[j]? = some y → ¬ e.eligible older ready j y) →
    chooseEntry e older ready = some (x, ready.eraseIdx i)
  | [], _, _, hx, _, _ => nomatch hx
  | y :: rest, older, 0, hx, hin, _ => by
    obtain rfl := Option.some.inj hx
    exact if_pos (Engine.eligible_head.mp hin)
  | y :: rest, older, i + 1, hx, hin, hbefore => by
    have hrest : chooseEntry e (y.lane :: older) rest = some (x, rest.eraseIdx i) :=
      chooseEntry_first hx (Engine.eligible_cons.mp hin) fun j z hj hz hjz =>
        hbefore (j + 1) z (Nat.succ_lt_succ hj) hz (Engine.eligible_cons.mpr hjz)
    unfold chooseEntry
    rw [if_neg fun h => hbefore 0 y i.succ_pos rfl (Engine.eligible_head.mpr h), hrest]
    rfl

/-! ### The completion of an analysis -/

section
variable {s : State} {a : Analysis} {sh : Shadow}

theorem exec_analysisCompletion (hr : s.inReset = false) (ha : s.engine.analysis = some a) (hsh : s.cmd.shadow = some sh) :
    exec .analysisCompletion s = .next (completeAnalysis a sh s) := by
  refine congrArg Host.Outcome.next ((live_out hr).trans ?_)
  simp only [ha, hsh]

/-- The result of the analysis of a line (R53). -/
def State.analysed (s : State) (a : Analysis) (sh : Shadow) : LineResult :=
  lineResult a sh.lanes[a.entry.lane] (s.lanes[a.entry.lane].buffer a.entry.buffer).pixels s.engine.lanes[a.entry.lane]

/-- The state at the completion of an analysis, before its lane takes the completion. -/
def State.analysisStored (s : State) (a : Analysis) (sh : Shadow) : State :=
  { s with engine := { s.engine with
      analysis := none
      lanes := upd s.engine.lanes a.entry.lane fun _ => s.engine.lanes[a.entry.lane].store a (s.analysed a sh) } }

theorem completeAnalysis_eq : completeAnalysis a sh s = (s.analysisStored a sh).finishLane a.entry.lane
    (s.lanes[a.entry.lane].freed a.entry.buffer).step (some (a.entry.line, analysedCause a (s.analysed a sh))) := rfl

/-- The completion stores the line's result, leaves the engine IDLE and frees the buffer, and settles what has come to be
analysed; no other lane changes (R32, R33, R41). -/
theorem completeAnalysis_leaves (hsh : s.cmd.shadow = some sh) :
    let k := a.entry.lane
    let t := completeAnalysis a sh s
    t.engine = (s.analysisStored a sh).engine ∧ t.lanes[k].buffer a.entry.buffer = Buffer.empty ∧
      t = { s with lanes := t.lanes, engine := t.engine, wires := t.wires } ∧
      (s.lanes[k].runState = .running →
        s.settlesAfter t sh k (s.lanes[k].setBuffer a.entry.buffer Buffer.empty) a.entry.line
          (analysedCause a (s.analysed a sh))) ∧
      ∀ j : LaneId, j ≠ k → t.engine.lanes[j] = s.engine.lanes[j] ∧ t.lanes[j] = s.lanes[j] := by
  rw [completeAnalysis_eq]
  have hengine := State.finishLane_engine_kept (s := s.analysisStored a sh) (k := a.entry.lane)
    (r := (s.lanes[a.entry.lane].freed a.entry.buffer).step) rfl
    (some (a.entry.line, analysedCause a (s.analysed a sh)))
  refine ⟨hengine, ?_, ?_, fun hrun => ?_, fun j hj => ⟨?_, State.finishLane_other _ _ _ _ _ hj⟩⟩
  · have hbuffer : ∀ (l : Lane) (i : BufferId) n d, ({ l with settled := n, declared := d } : Lane).buffer i = l.buffer i :=
      fun _ i _ _ => by cases i <;> rfl
    rw [State.finishLane_lane, hbuffer]
    exact Lane.freed_buffer _ _
  · rw [hengine, State.finishLane_quiet rfl rfl]
    rfl
  · exact State.finishLane_settlesAfter_faultless (s := s.analysisStored a sh)
      (r := (s.lanes[a.entry.lane].freed a.entry.buffer).step) hsh
      ((Lane.setBuffer_keeps Lane.runState (fun _ _ _ => rfl) _ _ _).trans hrun) rfl _ _
  · rw [hengine]
    exact upd_other _ _ _ _ hj

/-- Columns past the line keep their values (R53). -/
theorem getElem?_append_drop {α : Type} {xs ys : List α} {n j : Nat} (hn : xs.length = n) (hj : n ≤ j) :
    (xs ++ ys.drop n)[j]? = ys[j]? := by
  rw [List.getElem?_append_right (hn ▸ hj), hn, List.getElem?_drop, Nat.add_sub_of_le hj]

theorem State.analysisStored_lane :
    (s.analysisStored a sh).engine.lanes[a.entry.lane] = s.engine.lanes[a.entry.lane].store a (s.analysed a sh) :=
  upd_same _ _ _

end

/-- Settles O28: the arbiter's choice by induction over the ready list; a SEED line's store column by column. -/
theorem analysisBeginsAndSeeds : Obligations.AnalysisBeginsAndSeeds := by
  unfold Obligations.AnalysisBeginsAndSeeds
  constructor
  · intro s i x d eligible hr hidle hx hin hbefore hd
    have heligible : ∀ j y, eligible j y ↔ s.engine.eligible [] s.engine.ready j y := fun j y =>
      and_congr_right fun _ => ⟨fun h => ⟨List.not_mem_nil, h⟩, fun h => h.2⟩
    have hchoice : chooseEntry s.engine [] s.engine.ready = some (x, s.engine.ready.eraseIdx i) :=
      chooseEntry_first hx ((heligible i x).mp hin) fun j y hj hy h => hbefore j y hj hy ((heligible j y).mpr h)
    refine congrArg Host.Outcome.next ((live_out hr).trans ?_)
    unfold analysisBegin
    rw [hidle, hchoice]
    simp only [State.takeDetect, hd]
  · intro s a sh hr ha hmode hsh
    obtain ⟨hengine, hbuffer, hframe, hsettles, hothers⟩ := completeAnalysis_leaves (s := s) (a := a) hsh
    have hresult : s.analysed a sh =
        seedLine (s.lanes[a.entry.lane].buffer a.entry.buffer).pixels s.engine.lanes[a.entry.lane] := by
      unfold State.analysed lineResult
      rw [hmode]
    have hcause : analysedCause a (s.analysed a sh) = some .locking := by
      unfold analysedCause
      rw [hmode]
    have hlane : (completeAnalysis a sh s).engine.lanes[a.entry.lane] = { s.engine.lanes[a.entry.lane] with
        background := (s.analysed a sh).background, hold := (s.analysed a sh).hold } := by
      rw [hengine, State.analysisStored_lane]
      unfold EngineLane.store
      rw [hmode]
    refine ⟨_, exec_analysisCompletion hr ha hsh, congrArg Engine.analysis hengine, (congrArg Engine.ready hengine :), ?_⟩
    rw [hcause] at hsettles
    rw [hresult] at hlane
    refine ⟨fun j x hx => ?_, fun j hj => ?_, ?_, ?_, hbuffer, hframe, hsettles, hothers⟩
    · have hlt := (List.getElem?_eq_some_iff.mp hx).1
      rw [hlane]
      refine ⟨?_, ?_⟩
      · exact (List.getElem?_append_left (by simpa using hlt)).trans (by rw [List.getElem?_map, hx]; rfl)
      · exact (List.getElem?_append_left (by simpa using hlt)).trans (by rw [List.getElem?_replicate, if_pos hlt])
    · rw [hlane]
      exact ⟨getElem?_append_drop (by simp) hj, getElem?_append_drop (by simp) hj⟩
    · rw [hlane]
    · rw [hlane]

end Sys2Proof.Machine
end

section
/-! The analysis of a LOCK or TRACK line column by column (R46 to R51) and its place in the join queue (R42); with them O29. -/

namespace Sys2Proof.Machine

/-! ### One column -/

theorem levelOf_eq (v t1 t2 t3 : Nat) :
    levelOf v t1 t2 t3 = if [t1, t2, t3].any (reaches v) then
      some (if reaches v t3 then .reject else if reaches v t2 then .major else .minor) else none := by
  unfold levelOf
  simp only [List.any_cons, List.any_nil]
  by_cases hreject : reaches v t3
  · simp [hreject]
  by_cases hmajor : reaches v t2
  · simp [hreject, hmajor]
  by_cases hminor : reaches v t1 <;> simp [hreject, hmajor, hminor]

/-- The flag of an inspected column: by the factors on its contrast's side, at the highest level reached (R49). -/
theorem columnFlag_eq (d : DetectGroup) (b : Nat) (c : Int) :
    columnFlag d b c =
      let reached : Nat → Bool := fun factor => reaches c.natAbs (threshold b factor)
      if (if c < 0 then [d.d1, d.d2, d.d3] else [d.u1, d.u2, d.u3]).any reached then
        some (if c < 0 then Polarity.dark else .bright,
          if c < 0 then if reached d.d3 then .reject else if reached d.d2 then .major else .minor
          else if reached d.u3 then .reject else if reached d.u2 then .major else .minor)
      else none := by
  have hany : ∀ x y z, [threshold b x, threshold b y, threshold b z].any (reaches c.natAbs) =
      [x, y, z].any fun factor => reaches c.natAbs (threshold b factor) := fun _ _ _ => rfl
  unfold columnFlag
  simp only [levelOf_eq, hany]
  by_cases hc : c < 0
  · simp only [if_pos hc]
    split <;> rfl
  · simp only [if_neg hc]
    split <;> rfl

/-! ### The columns of a line -/

theorem analyseColumns_eq (d : DetectGroup) (g : LaneGeometry) : ∀ (j : Nat) (xs : List Byte) (bs hs : List Nat),
    analyseColumns d g j xs bs hs =
      xs.mapIdx fun i x => analyseColumn d g (j + i) x.toNat (bs.getD i 0) (hs.getD i 0)
  | _, [], _, _ => rfl
  | j, x :: xs, bs, hs => by
    have hhead : ∀ ys : List Nat, ys.headD 0 = ys.getD 0 0 := fun ys => by cases ys <;> rfl
    have htail : ∀ (ys : List Nat) i, ys.tail.getD i 0 = ys.getD (i + 1) 0 := fun ys i => by cases ys <;> rfl
    rw [analyseColumns, analyseColumns_eq d g (j + 1) xs, List.mapIdx_cons]
    simp only [hhead, htail, Nat.add_zero, Nat.add_assoc, Nat.add_comm 1]

section
variable {d : DetectGroup} {g : LaneGeometry} {xs : List Byte} {bs hs : List Nat}

theorem analyseColumns_length : (analyseColumns d g 0 xs bs hs).length = xs.length := by
  rw [analyseColumns_eq, List.length_mapIdx]

theorem analyseColumns_getElem? {j b h : Nat} {x : Byte} (hx : xs[j]? = some x) (hb : bs[j]? = some b)
    (hh : hs[j]? = some h) : (analyseColumns d g 0 xs bs hs)[j]? = some (analyseColumn d g j x.toNat b h) := by
  rw [analyseColumns_eq, List.getElem?_mapIdx, hx, Nat.zero_add, List.getD_eq_getElem?_getD, List.getD_eq_getElem?_getD, hb,
    hh]
  rfl

/-- The owned blind columns of a line (R47). -/
theorem analyseColumns_blinds :
    ((analyseColumns d g 0 xs bs hs).filter (·.blind)).length =
      ((List.range xs.length).filter fun j => owned g j && decide (bs.getD j 0 < d.blindFloor)).length := by
  have hmap : (analyseColumns d g 0 xs bs hs).map (·.blind) =
      (List.range xs.length).map fun j => owned g j && decide (bs.getD j 0 < d.blindFloor) := by
    refine List.ext_getElem? fun i => ?_
    simp only [analyseColumns_eq, List.getElem?_map, List.getElem?_mapIdx, Option.map_map, Nat.zero_add]
    by_cases hi : i < xs.length
    · rw [List.getElem?_eq_getElem hi, List.getElem?_range hi]
      rfl
    · rw [List.getElem?_eq_none (Nat.le_of_not_lt hi), List.getElem?_eq_none (by simpa using hi)]
      rfl
  have hcount := congrArg (List.countP id) hmap
  rwa [List.countP_map, List.countP_map, List.countP_eq_length_filter, List.countP_eq_length_filter] at hcount

/-- A column of the line keeps what its analysis gives, and those past the line what they held (R53). -/
theorem getElem?_map_append_drop {f : ColumnResult → Nat} {ys : List Nat} {j b h : Nat} {x : Byte} (hx : xs[j]? = some x)
    (hb : bs[j]? = some b) (hh : hs[j]? = some h) :
    ((analyseColumns d g 0 xs bs hs).map f ++ ys)[j]? = some (f (analyseColumn d g j x.toNat b h)) := by
  have hlt : j < ((analyseColumns d g 0 xs bs hs).map f).length := by
    rw [List.length_map, analyseColumns_length]
    exact (List.getElem?_eq_some_iff.mp hx).1
  rw [List.getElem?_append_left hlt, List.getElem?_map, analyseColumns_getElem? hx hb hh]
  rfl

end

/-- What the analysis of one column gives, written out (R46 to R51). -/
theorem analyseColumn_spec (d : DetectGroup) (g : LaneGeometry) (j b h : Nat) (x : Byte) :
    let r := analyseColumn d g j x.toNat b h
    let owned : Bool := decide (g.ownLo ≤ g.cross j) && decide (g.cross j ≤ g.ownHi)
    let c : Int := 256 * (x.toNat : Int) - b
    let reached : Nat → Bool := fun factor => decide (1 ≤ b * factor / 256) && decide (b * factor / 256 ≤ c.natAbs)
    let flagged : Bool := owned && decide (d.blindFloor ≤ b) &&
      (if c < 0 then [d.d1, d.d2, d.d3] else [d.u1, d.u2, d.u3]).any reached
    let h' := if flagged then min (h + 1) d.holdLimit else 0
    let level : Severity :=
      if c < 0 then if reached d.d3 then .reject else if reached d.d2 then .major else .minor
      else if reached d.u3 then .reject else if reached d.u2 then .major else .minor
    r.column = j ∧ r.contrast = c ∧
      r.flag = (if flagged then some (if c < 0 then .dark else .bright, level) else none) ∧ r.hold = h' ∧
      r.background = if flagged = false ∨ d.holdLimit ≤ h' then ((b : Int) + c.tdiv (2 ^ d.shift)).toNat else b := by
  intro r owned c reached flagged h' level
  have hblind : (!decide (b < d.blindFloor)) = decide (d.blindFloor ≤ b) := by
    rw [← decide_not]
    exact decide_eq_decide.mpr Nat.not_lt
  have hflag : r.flag = if flagged then some (if c < 0 then .dark else .bright, level) else none := by
    show (if owned && !decide (b < d.blindFloor) then columnFlag d b c else none) = _
    rw [hblind, columnFlag_eq]
    cases hin : owned && decide (d.blindFloor ≤ b) <;> simp only [flagged, hin, Bool.true_and, Bool.false_and] <;> rfl
  have hhold : r.hold = h' := by
    show holdAfter d h r.flag.isSome = h'
    rw [hflag]
    unfold holdAfter
    cases hf : flagged <;> simp only [h', hf] <;> rfl
  refine ⟨rfl, rfl, hflag, hhold, ?_⟩
  show (if r.flag.isNone || decide (d.holdLimit ≤ r.hold) then adapt d b c else b) = _
  rw [hflag, hhold]
  cases hf : flagged <;> simp [adapt]

/-! ### The line -/

section
variable {s : State} {a : Analysis} {sh : Shadow}

theorem State.analysed_of_not_seed (hmode : a.entry.mode ≠ .seed) :
    s.analysed a sh = analyseLine a.detect sh.lanes[a.entry.lane] a.entry
      (s.lanes[a.entry.lane].buffer a.entry.buffer).pixels s.engine.lanes[a.entry.lane] := by
  unfold State.analysed lineResult
  cases hm : a.entry.mode with
  | seed => exact absurd hm hmode
  | lock | track => rfl

theorem analysedCause_of_not_seed (hmode : a.entry.mode ≠ .seed) (r : LineResult) :
    analysedCause a r =
      if a.entry.mode ≠ .track then some .locking else if a.detect.blindLimit < r.blinds then some .blind else none := by
  unfold analysedCause blindVerdict
  cases hm : a.entry.mode with
  | seed => exact absurd hm hmode
  | lock => rfl
  | track => simp

/-- The store of a lane after a line: a TRACK line alone joins the queue, and counts as crowded with a CROWDED run (R42, R56). -/
theorem EngineLane.store_eq (st : EngineLane) (r : LineResult) :
    st.store a r = { st with
      background := r.background
      hold := r.hold
      join := if a.entry.mode = .track then
        st.join ++ [{ line := a.entry.line, blind := blindVerdict a.detect r, runs := r.runs }] else st.join
      crowded := if a.entry.mode = .track ∧ r.runs.any (·.crowded) then bump st.crowded else st.crowded } := by
  unfold EngineLane.store
  cases hm : a.entry.mode with
  | seed | lock => simp
  | track => simp

end

/-- Settles O29: the analysis of one column written out, and the columns of a line as a map over its pixels. -/
theorem analysisUpdatesEachColumn : Obligations.AnalysisUpdatesEachColumn := by
  unfold Obligations.AnalysisUpdatesEachColumn
  intro s a sh hr ha hmode hsh k g d pixels background owned hbackground hhold
  obtain ⟨hengine, hbuffer, hframe, hsettles, hothers⟩ := completeAnalysis_leaves (s := s) (a := a) hsh
  have hblinds : (analyseLine d g a.entry pixels s.engine.lanes[k]).blinds =
    ((List.range pixels.length).filter fun j => owned j && decide (background.getD j 0 < d.blindFloor)).length :=
    analyseColumns_blinds
  have hresult := State.analysed_of_not_seed (s := s) (sh := sh) hmode
  have hstore : (completeAnalysis a sh s).engine.lanes[k] = _ :=
    (congrArg (fun e : Engine => e.lanes[k]) hengine).trans
      (State.analysisStored_lane.trans (EngineLane.store_eq (a := a) s.engine.lanes[k] (s.analysed a sh)))
  have hcause := analysedCause_of_not_seed hmode (s.analysed a sh)
  rw [hresult] at hstore hcause hsettles
  refine ⟨_, exec_analysisCompletion hr ha hsh, congrArg Engine.analysis hengine, (congrArg Engine.ready hengine :), hbuffer,
    fun j b h x hx hb hh => ?_, fun j hj => ?_, ?_, analyseColumns_length, hframe, fun hrun => ?_, hothers⟩
  · obtain ⟨hcolumn, hcontrast, hflag, hheld, hstep⟩ := analyseColumn_spec d g j b h x
    have hat := analyseColumns_getElem? (d := d) (g := g) hx hb hh
    refine ⟨?_, ?_, ?_, ?_, ?_⟩
    · rw [hat]; exact congrArg some hcolumn
    · rw [hat]; exact congrArg some hcontrast
    · rw [hat]; exact congrArg some hflag
    · rw [hstore]; exact (getElem?_map_append_drop hx hb hh).trans (congrArg some hheld)
    · rw [hstore]; exact (getElem?_map_append_drop hx hb hh).trans (congrArg some hstep)
  · rw [hstore]
    exact getElem?_append_drop (by rw [List.length_map, analyseColumns_length]) hj
  · rw [hstore]
    by_cases htrack : a.entry.mode = .track
    · simp only [htrack, if_true, true_and]
      refine ⟨?_, rfl⟩
      rw [← hblinds]
      rfl
    · simp only [htrack, if_false, false_and, and_self]
  · rw [← hblinds]
    have h := hsettles hrun
    rw [hcause] at h
    exact h

end Sys2Proof.Machine
end

section
/-! CONFIGURE: the reads of its area, its refusal, and the configuration applied (R18, R163, R166); with them O54. -/

namespace Sys2Proof.Machine

/-! ### What pages and reads leave -/

/-- Pages touch the internal queue of the Path Unit alone (R157). -/
theorem State.writePages_path (n : Nat) (s : State) :
    (State.writePages n s).path = { s.path with internal := (State.writePages n s).path.internal } := by
  obtain ⟨q, w, c, a, m, h⟩ := State.writePages_requeued n s
  rw [h]
  rfl

theorem State.writePages_collapse (n : Nat) (s : State) : (State.writePages n s).writer.collapse = s.writer.collapse :=
  (State.writePages_requeued n s).keeps (fun u => u.writer.collapse) fun _ _ _ _ _ _ => rfl

theorem State.writePages_mem (n : Nat) (s : State) : (State.writePages n s).mem = s.mem :=
  (State.writePages_requeued n s).keeps State.mem fun _ _ _ _ _ _ => rfl

theorem State.placeWrite_prefix (s : State) (t : Txn) : s.path.internal <+: (s.placeWrite t).path.internal := by
  unfold State.placeWrite
  split
  · exact List.prefix_append _ _
  · exact List.prefix_rfl

theorem State.placeWrites_prefix (ts : List Txn) : ∀ s : State, s.path.internal <+: (s.placeWrites ts).path.internal := by
  induction ts with
  | nil => exact fun _ => List.prefix_rfl
  | cons t ts ih => exact fun s => (s.placeWrite_prefix t).trans (ih _)

theorem State.writePageOf_prefix (s : State) (shown : State → State) :
    s.path.internal <+: (s.writePageOf shown).path.internal := by
  unfold State.writePageOf
  dsimp only
  generalize pageTxns _ _ = ts
  have h := State.placeWrites_prefix ts { s with writer := { s.writer with pageSeq := s.writer.pageSeq + 1 } }
  exact h

theorem State.writePage_prefix (s : State) : s.path.internal <+: s.writePage.path.internal := by
  unfold State.writePage
  exact s.writePageOf_prefix id

/-- What stands in the internal queue stays in front of the pages that join it (R157). -/
theorem State.writePages_prefix (n : Nat) : ∀ s : State, s.path.internal <+: (State.writePages n s).path.internal := by
  induction n with
  | zero => exact fun _ => List.prefix_rfl
  | succ n ih => exact fun s => s.writePage_prefix.trans (ih s.writePage)

/-- A read that is no rewrite announces nothing (R156). -/
theorem State.placeRead_wires (s : State) (t : Txn) (h : ∀ i p, t.tag ≠ .rewrite i p) :
    (s.placeRead t).wires = s.wires := by
  unfold State.placeRead State.takeIn
  split
  · cases ht : t.tag <;> first | rfl | exact absurd ht (h _ _)
  · rfl

theorem State.placeReads_wires (ts : List Txn) : ∀ s : State, (∀ t ∈ ts, ∀ i p, t.tag ≠ .rewrite i p) →
    (s.placeReads ts).wires = s.wires := by
  induction ts with
  | nil => exact fun _ _ => rfl
  | cons t ts ih =>
    intro s h
    exact (ih _ fun u hu => h u (List.mem_cons_of_mem _ hu)).trans (s.placeRead_wires t (h t List.mem_cons_self))

/-! ### The bytes of a group -/

theorem slice_getD (b : List Byte) (n : Nat) : ∀ o i, i < n → (slice b o n).getD i 0 = b.getD (o + i) 0 := by
  induction n with
  | zero => exact fun _ _ h => absurd h (Nat.not_lt_zero _)
  | succ n ih =>
    intro o i h
    cases i with
    | zero => rfl
    | succ i => exact (ih (o + 1) i (Nat.lt_of_succ_lt_succ h)).trans (congrArg (b.getD · 0) (by omega))

theorem slice_slice (b : List Byte) (o m n : Nat) : ∀ i, i + n ≤ m → slice (slice b o m) i n = slice b (o + i) n := by
  induction n with
  | zero => exact fun _ _ => rfl
  | succ n ih =>
    intro i h
    have hhead : (slice b o m).getD i 0 = b.getD (o + i) 0 := slice_getD b m o i (by omega)
    have htail : slice (slice b o m) (i + 1) n = slice b (o + i + 1) n := ih (i + 1) (by omega)
    rw [slice, hhead, htail, slice]

theorem GroupId.base_eq (g : GroupId) : g.base = 0x1000 + 256 * g.idx.val := by cases g <;> rfl

theorem parseSeq_groupImage (b : List Byte) (g : GroupId) :
    parseSeq (groupImage b g) = BitVec.ofNat 32 (field b (0x1000 + 256 * g.idx.val + 0xF8) 4) := by
  have hslice : slice (groupImage b g) 0xF8 4 = slice b (g.base + 0xF8) 4 := slice_slice b g.base 256 4 0xF8 (by decide)
  rw [parseSeq, field, hslice, GroupId.base_eq]
  rfl

/-! ### The logs under new fields -/

/-- A log under new fields: restarted, or kept with its fields replaced (R163). -/
def LogState.under (g : LogState) (f : LogFields) : LogState :=
  if g.restartedBy f then
    { g with fields := some f, producer := 0, consumer := 0, written := 0, nextSeq := 1, refused := false, gen := g.gen + 1 }
  else { g with fields := some f }

section
variable {s : State} {l : LogId} {f : LogFields} {g : LogState}

theorem State.takeLogFields_kept (hg : s.writer.logs[l.idx] = g) (h : g.restartedBy f = false) :
    s.takeLogFields l f = s.setLog l { g with fields := some f } := by
  subst hg
  unfold LogState.restartedBy at h
  refine if_pos ?_
  revert h
  cases s.writer.logs[l.idx].fields <;> simp

theorem State.takeLogFields_restarted (hg : s.writer.logs[l.idx] = g) (h : g.restartedBy f = true) :
    s.takeLogFields l f = { s with
      writer := { s.writer with
        logs := upd s.writer.logs l.idx fun _ => { g with
          fields := some f, producer := 0, consumer := 0, written := 0, nextSeq := 1, refused := false, gen := g.gen + 1 }
        collapse := if l = .fault then Vector.replicate 16 none else s.writer.collapse }
      wires := { s.wires with
        plateAnswers := s.wires.plateAnswers ++ (if l = .plate ∧ g.refused then [s.tag .room] else [])
        shiftAnswers := s.wires.shiftAnswers ++ (if l = .shift ∧ g.refused then [.room] else []) } } := by
  refine (if_neg ?_).trans ?_
  · subst hg
    unfold LogState.restartedBy at h
    revert h
    cases s.writer.logs[l.idx].fields with
    | none => simp
    | some old => simpa using fun h hbase => h.resolve_left fun hne => hne hbase
  · rw [hg]
    cases l
    · simp [State.setLog]
    · cases hrefused : g.refused <;> simp [State.setLog, State.answerPlate, State.wire, State.tag]
    · cases hrefused : g.refused <;> simp [State.setLog, State.answerShift, State.wire]
    · simp [State.setLog]

/-- Taking new fields changes the log, and what its restart calls for: the collapse set emptied, or a room event (R163). -/
theorem State.takeLogFields_eq (hg : s.writer.logs[l.idx] = g) :
    s.takeLogFields l f = { s with
      writer := { s.writer with
        logs := upd s.writer.logs l.idx fun _ => g.under f
        collapse := if l = .fault ∧ g.restartedBy f then Vector.replicate 16 none else s.writer.collapse }
      wires := { s.wires with
        plateAnswers := s.wires.plateAnswers ++ (if l = .plate ∧ g.restartedBy f ∧ g.refused then [s.tag .room] else [])
        shiftAnswers := s.wires.shiftAnswers ++ (if l = .shift ∧ g.restartedBy f ∧ g.refused then [.room] else []) } } := by
  unfold LogState.under
  cases hrestart : g.restartedBy f
  · rw [State.takeLogFields_kept hg hrestart]
    simp [State.setLog]
  · rw [State.takeLogFields_restarted hg hrestart]
    simp

end

theorem upd_logs_getElem {α : Type} (v : Vector α 4) (x : LogId → α) (l : LogId) :
    (upd (upd (upd (upd v LogId.flaw.idx fun _ => x .flaw) LogId.plate.idx fun _ => x .plate) LogId.shift.idx
      fun _ => x .shift) LogId.fault.idx fun _ => x .fault)[l.idx] = x l := by
  cases l <;> simp [upd, LogId.idx]

/-- The Record Writer and the room events once all four logs stand under new fields (R163). -/
theorem State.takeLogs_eq (s : State) (fs : Vector LogFields 4) :
    let restarted : LogId → Bool := fun l => s.writer.logs[l.idx].restartedBy fs[l.idx]
    let t := s.takeLogs fs
    t = { s with
      writer := { s.writer with
        logs := t.writer.logs
        collapse := if restarted .fault then Vector.replicate 16 none else s.writer.collapse
        attn := t.writer.attn }
      wires := { s.wires with
        plateAnswers := s.wires.plateAnswers ++
          (if restarted .plate ∧ s.writer.logs[LogId.plate.idx].refused = true then [s.tag .room] else [])
        shiftAnswers := s.wires.shiftAnswers ++
          (if restarted .shift ∧ s.writer.logs[LogId.shift.idx].refused = true then [.room] else []) } } ∧
    ∀ l : LogId, t.writer.logs[l.idx] = s.writer.logs[l.idx].under fs[l.idx] := by
  intro restarted t
  let g : LogId → LogState := fun l => s.writer.logs[l.idx]
  let u1 := s.takeLogFields .flaw fs[LogId.flaw.idx]
  let u2 := u1.takeLogFields .plate fs[LogId.plate.idx]
  let u3 := u2.takeLogFields .shift fs[LogId.shift.idx]
  let u4 := u3.takeLogFields .fault fs[LogId.fault.idx]
  have h1 : u1 = _ := State.takeLogFields_eq (l := .flaw) (g := g .flaw) rfl
  have g1 : u1.writer.logs[LogId.plate.idx] = g .plate := by rw [h1]; exact upd_other _ _ _ _ (by decide)
  have h2 : u2 = _ := State.takeLogFields_eq (l := .plate) (g := g .plate) g1
  have g2 : u2.writer.logs[LogId.shift.idx] = g .shift := by
    rw [h2, h1]; exact (upd_other _ _ _ _ (by decide)).trans (upd_other _ _ _ _ (by decide))
  have h3 : u3 = _ := State.takeLogFields_eq (l := .shift) (g := g .shift) g2
  have g3 : u3.writer.logs[LogId.fault.idx] = g .fault := by
    rw [h3, h2, h1]
    exact (upd_other _ _ _ _ (by decide)).trans ((upd_other _ _ _ _ (by decide)).trans (upd_other _ _ _ _ (by decide)))
  have h4 : u4 = _ := State.takeLogFields_eq (l := .fault) (g := g .fault) g3
  have ht : t = u4.evalAttn := rfl
  rw [ht, h4, h3, h2, h1]
  refine ⟨?_, fun l => ?_⟩
  · simp [State.evalAttn, g, restarted, State.tag]
  · exact upd_logs_getElem s.writer.logs (fun l => (g l).under fs[l.idx]) l

/-! ### The configuration applied -/

theorem LogState.under_fields (g : LogState) (f : LogFields) : (g.under f).fields = some f := by
  unfold LogState.under
  split <;> rfl

/-- The counts of a log under new fields: kept with the ring, and started anew with another (R163). -/
theorem LogState.under_counts (g : LogState) (f : LogFields) :
    match g.fields with
    | some old =>
      if old.base = f.base ∧ old.entries = f.entries then
        (g.under f).producer = g.producer ∧ (g.under f).consumer = g.consumer ∧ (g.under f).nextSeq = g.nextSeq
      else (g.under f).producer = 0 ∧ (g.under f).consumer = 0 ∧ (g.under f).nextSeq = 1
    | none => (g.under f).producer = 0 ∧ (g.under f).consumer = 0 ∧ (g.under f).nextSeq = 1 := by
  unfold LogState.under LogState.restartedBy
  cases g.fields with
  | none => simp
  | some old =>
    by_cases h : old.base = f.base ∧ old.entries = f.entries
    · simp [h]
    · have hne : (decide (old.base ≠ f.base) || decide (old.entries ≠ f.entries)) = true := by
        simpa [imp_iff_not_or] using h
      simp only [h, hne, if_true, if_false, and_self]

/-- The state a configuration leaves, but for its logs, its run state and its page (R163). -/
def State.configuring (s : State) (a : Area) : State :=
  { s with
    lanes := (s.enableAtStart a.shadow).lanes
    path := { s.path with map := some a.shadow.regionMap }
    cmd := s.cmd.configured a
    shift := s.shift.takeClock a.clock }

/-- The state a configuration makes, before its page (R163). -/
def State.configuredWith (s : State) (a : Area) : State :=
  State.handRunState ((s.configuring a).takeLogs a.shadow.logs) .configured

theorem State.applyConfiguration_eq (s : State) (a : Area) :
    s.applyConfiguration a = State.writePages (if s.cmd.runState ≠ .configured then 1 else 0) (s.configuredWith a) := by
  unfold State.applyConfiguration
  simp only [decide_eq_true_eq]
  rfl

/-- What a configuration applied leaves: each block it reaches, and the rest as it was (R18, R163). -/
theorem State.applyConfiguration_leaves (s : State) (a : Area) :
    let t := s.applyConfiguration a
    let restarted : LogId → Bool := fun l => s.writer.logs[l.idx].restartedBy a.shadow.logs[l.idx]
    t.cmd = { s.cmd.configured a with runState := .configured } ∧
      t.shift = { s.shift.takeClock a.clock with runState := .configured } ∧
      (∀ k : LaneId, t.lanes[k] = { s.lanes[k] with
        enabled := a.shadow.lanes[k].enabledAtStart, runState := .configured }) ∧
      (∀ l : LogId, t.writer.logs[l.idx] = s.writer.logs[l.idx].under a.shadow.logs[l.idx]) ∧ t.mem = s.mem ∧
      t.writer.collapse = (if restarted .fault then Vector.replicate 16 none else s.writer.collapse) ∧
      t.wires = { s.wires with
        plateAnswers := s.wires.plateAnswers ++
          (if restarted .plate ∧ s.writer.logs[LogId.plate.idx].refused = true then [s.tag .room] else [])
        shiftAnswers := s.wires.shiftAnswers ++
          (if restarted .shift ∧ s.writer.logs[LogId.shift.idx].refused = true then [.room] else []) } ∧
      t.path = { s.path with
        map := some a.shadow.regionMap, runState := .configured, internal := t.path.internal } ∧
      s.path.internal <+: t.path.internal ∧
      (s.cmd.runState = .configured → t.path.internal = s.path.internal ∧ t.writer.waiting = s.writer.waiting) := by
  rw [State.applyConfiguration_eq]
  have hpages : s.cmd.runState = .configured → (if s.cmd.runState ≠ .configured then 1 else 0) = 0 :=
    fun h => if_neg (not_not.mpr h)
  generalize (if s.cmd.runState ≠ .configured then 1 else 0) = m at hpages
  obtain ⟨htake, htaken⟩ := (s.configuring a).takeLogs_eq a.shadow.logs
  unfold State.configuredWith
  generalize (s.configuring a).takeLogs a.shadow.logs = v at *
  obtain ⟨pcmd, pwires⟩ := State.writePages_keeps m (v.handRunState .configured)
  obtain ⟨-, -, plane, -, -, -, -, -, pshift, -, plogs⟩ := State.writePages_blocks m (v.handRunState .configured)
  have ppath := State.writePages_path m (v.handRunState .configured)
  have hpath : (v.handRunState .configured).path = { s.path with map := some a.shadow.regionMap, runState := .configured } :=
    congrArg (fun v : State => { v.path with runState := .configured }) htake
  refine ⟨?_, ?_, fun k => ?_, fun l => ?_, ?_, ?_, ?_, ?_, ?_, fun hconfigured => ?_⟩
  · exact pcmd.trans (congrArg (fun v : State => { v.cmd with runState := .configured }) htake)
  · exact pshift.trans (congrArg (fun v : State => { v.shift with runState := .configured }) htake)
  · have hk : v.lanes[k] = { s.lanes[k] with
        enabled := a.shadow.lanes[k].enabledAtStart } :=
      (congrArg (fun v : State => v.lanes[k]) htake).trans (foldl_upd_allLanes
        (fun k (l : Lane) => { l with enabled := a.shadow.lanes[k].enabledAtStart }) s.lanes k)
    exact (congrArg (·[k]) plane).trans ((State.handRunState_lane _ _ k).trans
      (congrArg (fun l : Lane => { l with runState := .configured }) hk))
  · exact (congrArg (·[l.idx]) plogs).trans (htaken l)
  · exact (State.writePages_mem m _).trans (congrArg State.mem htake :)
  · exact (State.writePages_collapse m _).trans (congrArg (fun v : State => v.writer.collapse) htake)
  · exact pwires.trans (congrArg State.wires htake)
  · refine ppath.trans ?_
    rw [hpath]
  · refine List.IsPrefix.trans ?_ (State.writePages_prefix m _)
    rw [hpath]
  · rw [hpages hconfigured]
    exact ⟨(congrArg Path.internal hpath :), (congrArg (fun v : State => v.writer.waiting) htake :)⟩

theorem exec_configure_area {s : State} {n : Nat} {bytes : List Byte} (hr : s.inReset = false)
    (he : s.cmd.execution = some { slot := n, phase := .readingArea bytes }) (hlen : bytes.length = 0x1500) :
    exec .configure s = .next ((configureRead bytes s).2.finishCommand n (configureRead bytes s).1) := by
  refine congrArg Host.Outcome.next ((live_out hr).trans ?_)
  unfold configure
  rw [he]
  exact if_pos hlen

theorem exec_configure_begin {s : State} {n : Nat} {bytes : List Byte} (hr : s.inReset = false)
    (he : s.cmd.execution = some { slot := n, phase := .ready bytes }) (hk : byteAt bytes 0 = 1)
    (hst : s.cmd.runState = .transparent ∨ s.cmd.runState = .configured) :
    exec .configure s = .next (State.placeReads
      (s.setCmd { s.cmd with execution := some { slot := n, phase := .readingArea [] } }) (areaReads s.path.anchorBase)) := by
  have hkind : commandKind bytes = some .configure := by simp [commandKind, hk]
  have hcounting : ¬ s.cmd.runState.counting = true := by rcases hst with h | h <;> rw [h] <;> decide
  refine congrArg Host.Outcome.next ((live_out hr).trans ?_)
  unfold configure
  rw [he]
  exact (if_pos hkind).trans (if_neg hcounting)

theorem areaReads_tag {anchor : Nat} {t : Txn} (ht : t ∈ areaReads anchor) : t.tag = .areaRead := by
  obtain ⟨i, _, rfl⟩ := List.mem_map.mp ht
  rfl

/-- Settles O54: the reads placed in order, the refusal, and the applied state written out (`State.takeLogs_eq` for the logs);
the page of a changed run state touches the queues alone. -/
theorem configureReadsAndApplies : Obligations.ConfigureReadsAndApplies := by
  unfold Obligations.ConfigureReadsAndApplies
  refine ⟨fun n bytes s hr he hk hst => ?_, fun n bytes r s hr he hlen hrefused => ?_,
    fun n bytes s hr he hlen haccepted => ?_⟩
  · let u := s.setCmd { s.cmd with execution := some { slot := n, phase := .readingArea [] } }
    refine ⟨_, exec_configure_begin hr he hk hst, ?_, ?_, ?_, ?_⟩
    · simp only [State.placeReads_frame]; rfl
    · simp only [State.placeReads_frame]; rfl
    · exact State.placeReads_wires _ u fun t ht i p => by rw [areaReads_tag ht]; exact TxnTag.noConfusion
    · rw [State.placeReads_queued]
      rfl
  · refine (exec_configure_area hr he hlen).trans ?_
    unfold configureRead
    simp only [hrefused]
    rfl
  · intro a
    obtain ⟨hcmd, hshift, hlanes, hlogs, hmem, hcollapse, hwires, hpath, hprefix, hquiet⟩ := s.applyConfiguration_leaves a
    have hread : configureRead bytes s = (none, s.applyConfiguration a) := by
      unfold configureRead
      simp only [haccepted]
      rfl
    refine ⟨_, exec_configure_area hr he hlen, ?_⟩
    rw [hread]
    generalize s.applyConfiguration a = t at *
    have hmirror : ∀ g : GroupId, (s.cmd.configured a).mirror[g.idx] =
        some { image := slice bytes (0x1000 + 256 * g.idx.val) 256 } := fun g => by cases g <;> rfl
    have hseq := parseSeq_groupImage bytes
    refine ⟨rfl, congrArg Command.shadow hcmd, congrArg Command.lastReason hcmd, (congrArg Path.map hpath :),
      congrArg Command.runState hcmd, congrArg Shift.runState hshift, (congrArg Path.runState hpath :),
      congrArg (·.detect.inUse) hcmd, congrArg (·.plan.inUse) hcmd,
      congrArg (·.grade.inUse) hcmd, congrArg (·.strike.inUse) hcmd, congrArg (·.clock.inUse) hcmd,
      congrArg (·.detect.eligible) hcmd, congrArg (·.plan.eligible) hcmd, congrArg (·.grade.eligible) hcmd,
      congrArg (·.strike.eligible) hcmd, congrArg (·.clock.eligible) hcmd, congrArg Command.invalid hcmd,
      congrArg Shift.trim hshift, congrArg Shift.table hshift, (congrArg Shift.calendar hshift :), hlanes,
      fun l => ⟨?_, ?_⟩, hmem, fun g => ?_, ?_, hlogs, hcollapse, hwires, hpath, hprefix, hquiet⟩
    · exact (congrArg LogState.fields (hlogs l)).trans (LogState.under_fields _ _)
    · have h := LogState.under_counts s.writer.logs[l.idx] a.shadow.logs[l.idx]
      rw [← hlogs l] at h
      exact h
    · exact (congrArg (fun c : Command => c.mirror[g.idx]) hcmd).trans (hmirror g)
    · refine ⟨?_, ?_, ?_, ?_, ?_⟩
      · exact (congrArg (·.detect.active) hcmd).trans (congrArg (some <| Copy.mk a.detect ·) (hseq .detect))
      · exact (congrArg (·.plan.active) hcmd).trans (congrArg (some <| Copy.mk a.plan ·) (hseq .plan))
      · exact (congrArg (·.grade.active) hcmd).trans (congrArg (some <| Copy.mk a.grade ·) (hseq .grade))
      · exact (congrArg (·.strike.active) hcmd).trans (congrArg (some <| Copy.mk a.strike ·) (hseq .strike))
      · exact (congrArg (·.clock.active) hcmd).trans (congrArg (some <| Copy.mk a.clock ·) (hseq .clock))

end Sys2Proof.Machine
end

section
/-! The commands on the lanes of a mask: LANE_ENABLE and LANE_DISABLE (R28, R30, R32, R33, R165). -/

namespace Sys2Proof.Machine

/-! ### One lane -/

/-- The lane that a LANE_DISABLE in RUNNING leaves before its settled line is re-evaluated (R30). -/
def Lane.disabled (l : Lane) : Lane :=
  Lane.declaredUpTo { l.abandoned with state := .off, enabled := false } l.givenUp .disabled l.trigger

theorem Lane.disable_running {l : Lane} (h : l.runState = .running) (tm : LaneTiming) :
    ∃ n, l.disable tm = { lane := l.disabled, faults := [], ready := [], changes := n } := by
  have henter : ∃ n, (Lane.step { l with enabled := false }).enter .off =
      { lane := { l with enabled := false, state := .off }, faults := [], ready := [], changes := n } := by
    unfold LaneStep.enter Lane.step
    dsimp only
    split
    · rename_i hoff
      exact ⟨0, by rw [← hoff]⟩
    · exact ⟨1, rfl⟩
  obtain ⟨n, hn⟩ := henter
  have hab : ({ l with enabled := false, state := .off } : Lane).abandoned =
      { l.abandoned with state := .off, enabled := false } := by
    rcases l with ⟨_, _, _, _, _, _ | ⟨_, _, _ | _, _⟩, _, _, _, _, _, _, _, _⟩ <;> rfl
  have hgive := LaneStep.giveUp_stopped
    (r := { lane := { l with enabled := false, state := .off }, faults := [], ready := [], changes := n })
    tm.stall (given := .disabled) (.inl rfl) rfl
  rw [hab] at hgive
  refine ⟨n, ?_⟩
  unfold Lane.disable
  dsimp only
  rw [if_pos h, hn, hgive]
  rfl

theorem Lane.disabled_runState (l : Lane) : l.disabled.runState = l.runState :=
  (Lane.declaredUpTo_runState _ _ _ _).trans l.abandoned_runState

theorem Lane.disable_idle {l : Lane} (h : l.runState ≠ .running) (tm : LaneTiming) :
    l.disable tm = Lane.step { l with enabled := false } := if_neg h

theorem Lane.enable_idle {l : Lane} (h : l.runState ≠ .running) : l.enable = Lane.step { l with enabled := true } := if_neg h

theorem Lane.enable_off {l : Lane} (h : l.runState = .running) (hoff : l.state = .off) :
    l.enable.lane = { l with enabled := true, seeded := false, lock := 0, misses := 0, state := .waiting } := by
  have hne : ({ l with enabled := true, seeded := false, lock := 0, misses := 0 } : Lane).state ≠ .waiting := by
    show l.state ≠ .waiting
    rw [hoff]
    decide
  unfold Lane.enable LaneStep.enter
  rw [if_pos h, if_pos hoff]
  exact congrArg LaneStep.lane (if_neg hne)

theorem Lane.enable_on {l : Lane} (h : l.runState = .running) (hon : l.state ≠ .off) : l.enable = l.step := by
  unfold Lane.enable
  rw [if_pos h, if_neg hon]

theorem Lane.disable_quiet (l : Lane) (tm : LaneTiming) : (l.disable tm).faults = [] ∧ (l.disable tm).ready = [] := by
  by_cases h : l.runState = .running
  · obtain ⟨n, hn⟩ := Lane.disable_running h tm
    rw [hn]
    exact ⟨rfl, rfl⟩
  · rw [Lane.disable_idle h]
    exact ⟨rfl, rfl⟩

theorem Lane.resettle_idle {l : Lane} (h : l.runState ≠ .running) (a : Option (Nat × Option GapCause)) :
    l.resettle a = { lane := l, gaps := [], settle := [] } := if_neg fun hc => h hc.1

/-! ### The lanes of a mask, one after another -/

/-- A command on the lanes of a list, one after another. -/
def State.eachLane (f : Lane → LaneStep) (ks : List LaneId) (s : State) : State :=
  ks.foldl (fun s k => s.finishLane k (f s.lanes[k]) none) s

theorem State.finishLane_cmd (s : State) (k : LaneId) (r : LaneStep) (a : Option (Nat × Option GapCause)) :
    (s.finishLane k r a).cmd = s.cmd := by
  unfold State.finishLane
  dsimp only
  rw [(State.writePages_keeps _ _).1]
  rfl

section
variable {f : Lane → LaneStep} {ks : List LaneId}

theorem State.eachLane_cmd (s : State) : (s.eachLane f ks).cmd = s.cmd :=
  foldl_keeps _ State.cmd (fun s k => s.finishLane_cmd k _ none) ks s

theorem State.eachLane_engine (hf : ∀ l, (f l).ready = []) (s : State) : (s.eachLane f ks).engine = s.engine :=
  foldl_keeps _ State.engine (fun _ _ => State.finishLane_engine_kept (hf _) none) ks s

/-- Each lane of the list takes the command once, and the others keep what they hold. -/
theorem State.eachLane_lanes (hks : ks.Nodup) : ∀ (s : State) (k : LaneId),
    (s.eachLane f ks).lanes[k] = if k ∈ ks then ((f s.lanes[k]).lane.resettle none).lane else s.lanes[k] := by
  induction ks with
  | nil => intro s k; rfl
  | cons j rest ih =>
    obtain ⟨hj, hrest⟩ := List.nodup_cons.mp hks
    intro s k
    refine (ih hrest (s.finishLane j (f s.lanes[j]) none) k).trans ?_
    by_cases hk : k = j
    · subst hk
      rw [if_neg hj, if_pos List.mem_cons_self, State.finishLane_same]
    · simp only [State.finishLane_other _ _ _ _ _ hk, List.mem_cons, hk, false_or]

/-- An event of a lane outside RUNNING that raises no fault sends nothing (R31). -/
theorem State.finishLane_wires_idle {s : State} {k : LaneId} {r : LaneStep} (hidle : r.lane.runState ≠ .running)
    (hfaults : r.faults = []) : (s.finishLane k r none).wires = s.wires := by
  have hmsgs : upd s.wires.laneMsgs k (fun q => q ++ []) = s.wires.laneMsgs := by
    simp only [List.append_nil]
    exact upd_self _ k
  unfold State.finishLane
  simp only [Lane.resettle_idle hidle, hfaults, ite_self, State.writePages_keeps, State.sendIncrements, State.wire,
    State.setLane, State.tagAll, List.map_nil, List.append_nil]
  simp only [List.append_nil] at hmsgs
  rw [hmsgs]

theorem State.eachLane_wires_idle (hf : ∀ l, (f l).faults = []) (hks : ks.Nodup) : ∀ s : State,
    (∀ k ∈ ks, (f s.lanes[k]).lane.runState ≠ .running) → (s.eachLane f ks).wires = s.wires := by
  induction ks with
  | nil => exact fun _ _ => rfl
  | cons j rest ih =>
    obtain ⟨hj, hrest⟩ := List.nodup_cons.mp hks
    intro s hidle
    refine (ih hrest (s.finishLane j (f s.lanes[j]) none) fun k hk => ?_).trans
      (State.finishLane_wires_idle (hidle j List.mem_cons_self) (hf _))
    have hne : k ≠ j := fun h => hj (h ▸ hk)
    rw [State.finishLane_other _ _ _ _ _ hne]
    exact hidle k (List.mem_cons_of_mem _ hk)

end

/-- The gap lines that a lane hands on when its settled line is re-evaluated with no line analysed (R32, R33). -/
def Lane.handed (l : Lane) (sh : Shadow) (k : LaneId) : List (Nat × GapCause) :=
  l.gapsTo sh k 0 none (l.resettle none).lane.settled

/-- What such a lane sends to the assembler (R32). -/
def Lane.sends (l : Lane) (sh : Shadow) (k : LaneId) : List LaneMsg :=
  l.reports (l.handed sh k) (l.resettle none).lane.settled

/-- The increments of its gap lines (R33). -/
def Lane.counted (l : Lane) (sh : Shadow) (k : LaneId) : List (Sender × Increment) :=
  (l.handed sh k).map fun g => (.lane k, .gapLine g.2)

theorem State.finishLane_sends {s : State} {k : LaneId} {r : LaneStep} {sh : Shadow} (hsh : s.cmd.shadow = some sh)
    (hfaults : r.faults = []) :
    (s.finishLane k r none).wires = { s.wires with
      laneMsgs := upd s.wires.laneMsgs k fun q => q ++ s.tagAll (r.lane.sends sh k)
      increments := s.wires.increments ++ r.lane.counted sh k } := by
  rw [State.finishLane_none, State.finishLane_wires hsh, hfaults]
  simp only [List.map_nil, List.append_nil, ← Lane.resettle_none]
  rfl

theorem State.tagAll_finishLane {α : Type} (s : State) (k : LaneId) (r : LaneStep) (a : Option (Nat × Option GapCause))
    (ms : List α) : (s.finishLane k r a).tagAll ms = s.tagAll ms := by
  have htag : (s.finishLane k r a).tag = s.tag (α := α) := by
    funext m
    simp only [State.tag, State.finishLane_frame]
  unfold State.tagAll
  rw [htag]

theorem vector_getElem_ofFn {α : Type} {n : Nat} (g : Fin n → α) (k : Fin n) : (Vector.ofFn g)[k] = g k := by
  simp only [Fin.getElem_fin, Vector.getElem_ofFn]

/-- In RUNNING each lane of the list sends its gap lines and its settled line, and the increments go out in the order of the
list (R32, R33). -/
theorem State.eachLane_wires {f : Lane → LaneStep} {ks : List LaneId} {sh : Shadow} (hf : ∀ l, (f l).faults = [])
    (hks : ks.Nodup) : ∀ s : State, s.cmd.shadow = some sh →
    (s.eachLane f ks).wires = { s.wires with
      laneMsgs := Vector.ofFn fun k => s.wires.laneMsgs[k] ++
        if k ∈ ks then s.tagAll ((f s.lanes[k]).lane.sends sh k) else []
      increments := s.wires.increments ++ ks.flatMap fun k => (f s.lanes[k]).lane.counted sh k } := by
  induction ks with
  | nil =>
    intro s hsh
    simp [State.eachLane]
  | cons j rest ih =>
    obtain ⟨hj, hrest⟩ := List.nodup_cons.mp hks
    intro s hsh
    have hother : ∀ k ∈ rest, (s.finishLane j (f s.lanes[j]) none).lanes[k] = s.lanes[k] := fun k hk =>
      State.finishLane_other _ _ _ _ _ fun h : k = j => hj (h ▸ hk)
    have hrun := ih hrest (s.finishLane j (f s.lanes[j]) none) ((congrArg Command.shadow (s.finishLane_cmd _ _ _)).trans hsh)
    rw [State.finishLane_sends hsh (hf _)] at hrun
    refine hrun.trans (congrArg₂ (fun m i => { s.wires with laneMsgs := m, increments := i })
      (vector_ext_fin fun k => ?_) ?_)
    · simp only [vector_getElem_ofFn, State.tagAll_finishLane]
      by_cases hk : k = j
      · subst hk
        rw [upd_same, if_neg hj, if_pos List.mem_cons_self, List.append_nil]
      · rw [upd_other _ _ _ _ hk]
        by_cases hrest : k ∈ rest
        · rw [if_pos hrest, if_pos (List.mem_cons_of_mem _ hrest), hother k hrest]
        · rw [if_neg hrest, if_neg (List.not_mem_cons_of_ne_of_not_mem hk hrest)]
    · rw [List.flatMap_cons, ← List.append_assoc]
      refine congrArg _ (List.flatMap_congr fun k hk => ?_)
      rw [hother k hk]

/-! ### The commands -/

/-- The lanes of a mask, in ascending order. -/
def maskLanes (bytes : List Byte) : List LaneId := allLanes.filter (slotMask bytes)

theorem mem_maskLanes {bytes : List Byte} {k : LaneId} : k ∈ maskLanes bytes ↔ slotMask bytes k = true := by
  have hall : k ∈ allLanes := by revert k; decide
  rw [maskLanes, List.mem_filter]
  exact and_iff_right hall

theorem maskLanes_nodup (bytes : List Byte) : (maskLanes bytes).Nodup := List.Nodup.filter _ (by decide)

theorem flatMap_filter_eq {α β : Type} (p : α → Bool) (g : α → List β) (xs : List α) :
    (xs.filter p).flatMap g = xs.flatMap fun x => if p x then g x else [] := by
  induction xs with
  | nil => rfl
  | cons x xs ih => cases h : p x <;> simp [h, ih]

theorem onLanes_eq {f : Lane → LaneStep} {bytes : List Byte} {s : State} (h : s.cmd.runState ≠ .transparent) :
    onLanes f bytes s = (none, s.eachLane f (maskLanes bytes)) := by
  unfold onLanes
  cases hst : s.cmd.runState with
  | transparent => exact absurd hst h
  | configured | running | draining => rfl

/-- A lane of the mask takes the command; any other keeps what it holds (R165). -/
theorem State.eachLane_masked (f : Lane → LaneStep) (bytes : List Byte) (s : State) (k : LaneId) :
    (s.eachLane f (maskLanes bytes)).lanes[k] =
      if slotMask bytes k = false then s.lanes[k] else ((f s.lanes[k]).lane.resettle none).lane := by
  rw [State.eachLane_lanes (maskLanes_nodup bytes)]
  cases h : slotMask bytes k <;> simp [mem_maskLanes, h]

theorem exec_laneEnable {s : State} {n : Nat} {bytes : List Byte} (hr : s.inReset = false)
    (he : s.cmd.execution = some { slot := n, phase := .ready bytes }) (hk : byteAt bytes 0 = 6)
    (hst : s.cmd.runState ≠ .transparent) :
    exec .laneEnable s = .next ((s.eachLane Lane.enable (maskLanes bytes)).finishCommand n none) := by
  refine congrArg Host.Outcome.next ((onCommand_taken hr he (by simp [commandKind, hk])).trans ?_)
  rw [onLanes_eq hst]

theorem exec_laneDisable {s : State} {n : Nat} {bytes : List Byte} (hr : s.inReset = false)
    (he : s.cmd.execution = some { slot := n, phase := .ready bytes }) (hk : byteAt bytes 0 = 7)
    (hst : s.cmd.runState ≠ .transparent) :
    exec .laneDisable s = .next ((s.eachLane (Lane.disable s.timing) (maskLanes bytes)).finishCommand n none) := by
  refine congrArg Host.Outcome.next ((onCommand_taken hr he (by simp [commandKind, hk])).trans ?_)
  rw [onLanes_eq hst]

theorem State.eachLane_finished_cmd (f : Lane → LaneStep) (ks : List LaneId) (s : State) (n : Nat) (r : Option Reason) :
    ((s.eachLane f ks).finishCommand n r).cmd =
      { s.cmd with execution := some { slot := n, phase := .finished r } } :=
  congrArg (fun c : Command => { c with execution := some { slot := n, phase := .finished r } }) (s.eachLane_cmd)

/-- LANE_ENABLE on one lane of the mask (R30). -/
theorem State.eachLane_enable {bytes : List Byte} {s : State} (hagree : s.runStatesAgree) (k : LaneId) :
    let t := s.eachLane Lane.enable (maskLanes bytes)
    if slotMask bytes k = false then t.lanes[k] = s.lanes[k]
    else if s.cmd.runState ≠ .running then t.lanes[k] = { s.lanes[k] with enabled := true }
    else if s.lanes[k].state = .off then
      t.lanes[k].state = .waiting ∧ t.lanes[k].enabled = true ∧ t.lanes[k].seeded = false ∧ t.lanes[k].lock = 0 ∧
        t.lanes[k].misses = 0 ∧ t.lanes[k].accounted = s.lanes[k].accounted
    else t.lanes[k].state = s.lanes[k].state ∧ t.lanes[k].enabled = s.lanes[k].enabled ∧
      t.lanes[k].line = s.lanes[k].line ∧ t.lanes[k].accounted = s.lanes[k].accounted := by
  intro t
  have hlane : t.lanes[k] = _ := State.eachLane_masked Lane.enable bytes s k
  have hrun := hagree.1 k
  generalize t.lanes[k] = m at *
  generalize s.lanes[k] = l at *
  split_ifs with hmask hidle hoff
  · rw [hlane, if_pos hmask]
  · rw [hlane, if_neg hmask, Lane.enable_idle (hrun ▸ hidle), Lane.resettle_idle]
    · rfl
    · exact hrun ▸ hidle
  · rw [if_neg hmask, Lane.resettle_frame, Lane.enable_off (hrun.trans (not_not.mp hidle)) hoff] at hlane
    rw [hlane]
    exact ⟨rfl, rfl, rfl, rfl, rfl, rfl⟩
  · rw [if_neg hmask, Lane.resettle_frame, Lane.enable_on (hrun.trans (not_not.mp hidle)) hoff] at hlane
    rw [hlane]
    exact ⟨rfl, rfl, rfl, rfl⟩

/-- LANE_DISABLE on one lane of the mask (R28, R30, R32). -/
theorem State.eachLane_disable {bytes : List Byte} {s : State} (hagree : s.runStatesAgree) (tm : LaneTiming) (k : LaneId) :
    let t := s.eachLane (Lane.disable tm) (maskLanes bytes)
    if slotMask bytes k = false then t.lanes[k] = s.lanes[k]
    else if s.cmd.runState ≠ .running then t.lanes[k] = { s.lanes[k] with enabled := false }
    else s.lanes[k].disabled.settlesTo t.lanes[k] := by
  intro t
  have hlane : t.lanes[k] = _ := State.eachLane_masked (Lane.disable tm) bytes s k
  have hrun := hagree.1 k
  generalize t.lanes[k] = m at *
  generalize s.lanes[k] = l at *
  split_ifs with hmask hidle
  · rw [hlane, if_pos hmask]
  · rw [hlane, if_neg hmask, Lane.disable_idle (hrun ▸ hidle), Lane.resettle_idle]
    · rfl
    · exact hrun ▸ hidle
  · have hrunning : l.runState = .running := hrun.trans (not_not.mp hidle)
    obtain ⟨n, hn⟩ := Lane.disable_running hrunning tm
    rw [if_neg hmask, hn] at hlane
    rw [hlane]
    exact Lane.resettle_settlesTo (l.disabled_runState.trans hrunning) none

/-- What LANE_DISABLE sends in RUNNING: for each lane of the mask, in ascending order, what its settling reports (R32, R33). -/
theorem State.eachLane_disable_wires {bytes : List Byte} {s : State} {sh : Shadow} (hagree : s.runStatesAgree)
    (tm : LaneTiming) (hst : s.cmd.runState = .running) (hsh : s.cmd.shadow = some sh) :
    let t := s.eachLane (Lane.disable tm) (maskLanes bytes)
    let gaps : LaneId → List (Nat × GapCause) := fun k =>
      if slotMask bytes k then s.lanes[k].disabled.gapsTo sh k 0 none t.lanes[k].settled else []
    t.wires = { s.wires with
      laneMsgs := Vector.ofFn fun k => s.wires.laneMsgs[k] ++
        if slotMask bytes k then s.tagAll (s.lanes[k].disabled.reports (gaps k) t.lanes[k].settled) else []
      increments := s.wires.increments ++
        (List.finRange 8).flatMap fun k => (gaps k).map fun g => (.lane k, .gapLine g.2) } := by
  intro t gaps
  have hstep : ∀ k : LaneId, ((s.lanes[k]).disable tm).lane = s.lanes[k].disabled := fun k => by
    obtain ⟨n, hn⟩ := Lane.disable_running ((hagree.1 k).trans hst) tm
    rw [hn]
  have hlane : ∀ k : LaneId, slotMask bytes k = true → t.lanes[k] = (s.lanes[k].disabled.resettle none).lane := fun k hk => by
    rw [← hstep k]
    exact (State.eachLane_masked (Lane.disable tm) bytes s k).trans (if_neg (by simp [hk]))
  have hwires := State.eachLane_wires (f := Lane.disable tm) (fun l => (l.disable_quiet tm).1) (maskLanes_nodup bytes) s hsh
  have hall : allLanes = List.finRange 8 := by decide
  refine hwires.trans (congrArg₂ (fun m i => { s.wires with laneMsgs := m, increments := i })
    (congrArg Vector.ofFn (funext fun k => congrArg _ ?_)) (congrArg _ ?_))
  · cases hk : slotMask bytes k
    · simp [mem_maskLanes, hk]
    · simp only [mem_maskLanes, hk, if_true, gaps, hstep, hlane k hk]
      rfl
  · rw [maskLanes, flatMap_filter_eq, hall]
    refine List.flatMap_congr fun k _ => ?_
    cases hk : slotMask bytes k
    · simp [gaps, hk]
    · simp only [hk, if_true, gaps, hstep, hlane k hk]
      rfl

end Sys2Proof.Machine
end

section
/-! SET_CLOCK and MANUAL_CUT (R97, R132, R165), and with the lane commands O57. -/

namespace Sys2Proof.Machine

/-! ### MANUAL_CUT -/

section
variable {s : State} {sh : Shadow} {o : OpenPiece} {g : PlanGroup} {bytes : List Byte}

theorem State.finishPlan_planStep (s : State) : s.finishPlan s.planStep = s := by
  simp only [State.finishPlan, State.planStep, State.sendIncrements, State.wire, State.tagAll, List.map_nil, List.append_nil]

theorem Planner.manualPosition_slot (p : Planner) (bytes : List Byte) :
    p.manualPosition (slotPosition bytes) = if byteAt bytes 8 = 1 then p.frontier else field bytes 0x10 8 := by
  unfold Planner.manualPosition slotPosition
  split <;> rfl

theorem Planner.aboveCf_eq (p : Planner) (x : Nat) : (!p.aboveCf x) = p.cf.any fun cf => decide ((x : Int) ≤ cf) := by
  unfold Planner.aboveCf
  cases p.cf with
  | none => rfl
  | some c =>
    rw [← decide_not]
    exact decide_eq_decide.mpr Int.not_lt

/-- R97's tests of a manual cut at x, in their order. -/
theorem Planner.manualRefusal_eq {p : Planner} (ho : p.openPiece = some o) (c : PlanContext) (x : Nat) :
    p.manualRefusal c o x =
      if p.cf.any (fun cf => decide ((x : Int) ≤ cf)) then some .tooLate
      else if x < o.head + c.minTrim then some .tooSoon
      else if p.frontier < x then some .notInspected
      else if p.overdue = true ∨ 32 < p.cuts.length + 1 ∨ 40 < p.pieces.length + 2 then some .noRoom
      else none := by
  have hroom : (p.overdue || !p.room 1 1) =
      decide (p.overdue = true ∨ 32 < p.cuts.length + 1 ∨ 40 < p.pieces.length + 2) := by
    simp only [Planner.room, Planner.count, ho, Option.isSome_some, if_true, Config.cutQueueLimit, Config.pieceTableLimit]
    rw [Bool.eq_iff_iff]
    simp only [Bool.or_eq_true, Bool.not_eq_true', Bool.and_eq_false_iff, decide_eq_false_iff_not, decide_eq_true_eq]
    refine or_congr_right ?_
    omega
  unfold Planner.manualRefusal
  rw [Planner.aboveCf_eq, hroom]
  simp only [decide_eq_true_eq]

section
variable {c : PlanContext} {r : PlanStep} {given : Option Nat}

theorem PlanStep.manualCut_refused {e : Reason} (hrun : c.running = true) (ho : r.p.openPiece = some o)
    (h : r.p.manualRefusal c o (r.p.manualPosition given) = some e) : r.manualCut c given = (some e, r) := by
  unfold PlanStep.manualCut
  rw [hrun, ho]
  simp only [h]

theorem PlanStep.manualCut_made (hrun : c.running = true) (ho : r.p.openPiece = some o)
    (h : r.p.manualRefusal c o (r.p.manualPosition given) = none) :
    r.manualCut c given = (none, r.fix o .manual (r.p.manualPosition given)) := by
  unfold PlanStep.manualCut
  rw [hrun, ho]
  simp only [h]

end

theorem manualCut_refused {e : Reason} (hst : s.cmd.runState = .running) (hsh : s.cmd.shadow = some sh)
    (ho : s.planner.openPiece = some o)
    (h : s.planner.manualRefusal (s.planContext sh) o (s.planner.manualPosition (slotPosition bytes)) = some e) :
    manualCut bytes s = (some e, s) := by
  have hstep : s.planStep.manualCut (s.planContext sh) (slotPosition bytes) = (some e, s.planStep) :=
    PlanStep.manualCut_refused (decide_eq_true hst) ho h
  unfold manualCut
  simp only [hsh, hstep, State.finishPlan_planStep]

theorem manualCut_made (hst : s.cmd.runState = .running) (hsh : s.cmd.shadow = some sh)
    (ho : s.planner.openPiece = some o)
    (h : s.planner.manualRefusal (s.planContext sh) o (s.planner.manualPosition (slotPosition bytes)) = none) :
    manualCut bytes s =
      (none, s.finishPlan (s.planStep.fix o .manual (s.planner.manualPosition (slotPosition bytes)))) := by
  have hstep : s.planStep.manualCut (s.planContext sh) (slotPosition bytes) =
      (none, s.planStep.fix o .manual (s.planner.manualPosition (slotPosition bytes))) :=
    PlanStep.manualCut_made (decide_eq_true hst) ho h
  unfold manualCut
  simp only [hsh, hstep]

/-- The open piece made MANUAL with its tail at x, and a new open piece created there and scanned (R96, R97). -/
theorem State.finishPlan_manual (hg : s.cmd.plan.activate.inUse = some g) (hnext : s.planner.nextPiece < max32)
    (hoverdue : s.planner.overdue = false) (x : Nat) :
    let t := s.finishPlan (s.planStep.fix o .manual x)
    t.cmd = { s.cmd with plan := s.cmd.plan.activate } ∧
      t.planner = { s.planner with
        pieces := s.planner.pieces ++
          [{ number := s.planner.nextPiece, kind := .manual, head := some o.head, tail := x, state := .planned,
             sizes := o.sizes }]
        cuts := s.planner.cuts ++ [{ pos := x, kind := .manual, committed := false }]
        nextPiece := s.planner.nextPiece + 1
        openPiece := some { head := x, sizes := g } } ∧
      t.wires.plannerAsm = s.wires.plannerAsm ++ [s.tag (.scan x (x + g.l1) g.level)] := by
  have hplaced : (s.planStep.place .manual (some o.head) x o.sizes).plan = s.cmd.plan ∧
      (s.planStep.place .manual (some o.head) x o.sizes).toAsm = [] ∧
      (s.planStep.place .manual (some o.head) x o.sizes).p = s.planner.place .manual (some o.head) x o.sizes := by
    unfold PlanStep.place PlanStep.offerChange
    split <;> exact ⟨rfl, rfl, rfl⟩
  obtain ⟨hplan, hasm, hp⟩ := hplaced
  have hfix : s.planStep.fix o .manual x = { s.planStep.place .manual (some o.head) x o.sizes with
      plan := s.cmd.plan.activate
      p := { s.planner.place .manual (some o.head) x o.sizes with
        openPiece := some { head := x, sizes := g }, overdue := false }
      toAsm := [.scan x (x + g.l1) g.level] } := by
    unfold PlanStep.fix PlanStep.createOpen
    simp only [hplan, hg, hasm, hp, List.nil_append]
  intro t
  have ht : t = s.finishPlan _ := congrArg s.finishPlan hfix
  refine ⟨congrArg State.cmd ht, (congrArg State.planner ht).trans ?_, congrArg (fun u : State => u.wires.plannerAsm) ht⟩
  simp only [Planner.place, Planner.countPiece, nextNumber, hnext, if_true, ← hoverdue]
  rfl

end

/-! ### The three commands -/

theorem exec_setClock {s : State} {n : Nat} {bytes : List Byte} (hr : s.inReset = false)
    (he : s.cmd.execution = some { slot := n, phase := .ready bytes }) (hk : byteAt bytes 0 = 5) :
    exec .setClock s = .next ((setClock bytes s).2.finishCommand n (setClock bytes s).1) :=
  congrArg Host.Outcome.next (onCommand_taken hr he (by simp [commandKind, hk]))

theorem exec_manualCut {s : State} {n : Nat} {bytes : List Byte} (hr : s.inReset = false)
    (he : s.cmd.execution = some { slot := n, phase := .ready bytes }) (hk : byteAt bytes 0 = 8) :
    exec .manualCut s = .next ((manualCut bytes s).2.finishCommand n (manualCut bytes s).1) :=
  congrArg Host.Outcome.next (onCommand_taken hr he (by simp [commandKind, hk]))

/-- Settles O57: the lane commands as a row of lane events (`State.eachLane_lanes`, `State.eachLane_wires`), and a manual cut by
R97's tests (`Planner.manualRefusal_eq`). -/
theorem commandsOfOtherBlocks : Obligations.CommandsOfOtherBlocks := by
  unfold Obligations.CommandsOfOtherBlocks
  refine ⟨fun n bytes s hr he hk hvalid => ?_, fun n bytes s hr he hst hagree => ⟨fun hk => ?_, fun hk => ?_⟩,
    fun n bytes s sh o g hr he hk hst hsh ho hg hnext => ?_⟩
  · rw [exec_setClock hr he hk]
    unfold setClock Shift.setClock
    have hcal : (slotCalendar bytes).valid = true := hvalid
    simp only [hcal, if_true]
    rfl
  · exact ⟨_, exec_laneEnable hr he hk hst, s.eachLane_finished_cmd _ _ n none, fun k => State.eachLane_enable hagree k⟩
  · refine ⟨_, exec_laneDisable hr he hk hst, s.eachLane_finished_cmd _ _ n none,
      s.eachLane_engine fun l => (l.disable_quiet _).2, fun k => State.eachLane_disable hagree _ k, fun hidle => ?_,
      fun sh hrun hsh => State.eachLane_disable_wires hagree _ hrun hsh⟩
    refine s.eachLane_wires_idle (fun l => (l.disable_quiet _).1) (maskLanes_nodup bytes) fun k _ => ?_
    have hk : s.lanes[k].runState ≠ .running := fun h => hidle ((hagree.1 k).symm.trans h)
    rw [Lane.disable_idle hk]
    exact hk
  · intro x refused
    have hx : s.planner.manualPosition (slotPosition bytes) = x := s.planner.manualPosition_slot bytes
    have htests := Planner.manualRefusal_eq ho (s.planContext sh) x
    have hrefused : ∀ r, s.planner.manualRefusal (s.planContext sh) o x = some r → refused r := fun r h => by
      refine (exec_manualCut hr he hk).trans ?_
      rw [manualCut_refused hst hsh ho (hx ▸ h)]
      rfl
    split_ifs with hlate hsoon hinspected hroom
    · exact hrefused _ (htests.trans (if_pos hlate))
    · exact hrefused _ (htests.trans ((if_neg hlate).trans (if_pos hsoon)))
    · exact hrefused _ (htests.trans ((if_neg hlate).trans ((if_neg hsoon).trans (if_pos hinspected))))
    · exact hrefused _ (htests.trans ((if_neg hlate).trans ((if_neg hsoon).trans ((if_neg hinspected).trans (if_pos hroom)))))
    · have hnone := htests.trans
        ((if_neg hlate).trans ((if_neg hsoon).trans ((if_neg hinspected).trans (if_neg hroom))))
      have hoverdue : s.planner.overdue = false := Bool.eq_false_of_not_eq_true fun h => hroom (.inl h)
      obtain ⟨hcmd, hplanner, hscan⟩ := State.finishPlan_manual (o := o) hg hnext hoverdue x
      refine ⟨_, exec_manualCut hr he hk, ?_⟩
      rw [manualCut_made hst hsh ho (hx ▸ hnone), hx]
      exact ⟨congrArg (fun c : Command => { c with execution := some { slot := n, phase := .finished none } }) hcmd,
        hplanner, hscan⟩

end Sys2Proof.Machine
end

section
/-! The bounds of the queues and tables block by block, and what a step has to keep (R39, R42, R73, R77, R105,
R110, R122, R143, R157). -/

namespace Sys2Proof.Machine

/-! ### The bounds block by block -/

/-- The pass-through queue holds at most 32 entries and the internal queue at most 16 (R143, R157). -/
def Path.Bounded (p : Path) : Prop := p.queue.length ≤ 32 ∧ p.internal.length ≤ 16

/-- The Flaw Table holds at most 512 entries and the gap list at most 64 (R73, R77). -/
def Assembler.Bounded (a : Assembler) : Prop := a.table.length ≤ 512 ∧ a.gaps.length ≤ 64

/-- The strike track holds at most 4 entries and the gate list at most 8 (R105, R110). -/
def Strike.Bounded (t : Strike) : Prop := t.track.length ≤ 4 ∧ t.gates.length ≤ 8

/-- `State.joinQueuesBounded`, said of the Pixel Engine alone (R39, R42). -/
def Engine.Bounded (e : Engine) : Prop :=
  (∀ k : LaneId, e.lanes[k].join.length ≤ 8) ∧
    ∀ a, e.analysis = some a → a.entry.mode = .track → e.lanes[a.entry.lane].join.length < 8

theorem State.queuesBounded_iff (s : State) : s.queuesBounded ↔ s.path.Bounded ∧ s.asm.Bounded ∧ s.strike.Bounded := by
  simp only [State.queuesBounded, Path.Bounded, Assembler.Bounded, Strike.Bounded, and_assoc]

theorem State.joinQueuesBounded_iff (s : State) : s.joinQueuesBounded ↔ s.engine.Bounded := Iff.rfl

/-- `State.topFlawsBounded`, said of the Grading Unit and the records on offer alone (R122). -/
def PlatesBounded (g : Grading) (offers : List (Tagged PlateRecord)) : Prop :=
  (∀ r, g.state = .stamping r → r.top.length ≤ 16) ∧ (∀ o ∈ g.outbound, o.record.top.length ≤ 16) ∧
    ∀ m ∈ offers, m.msg.top.length ≤ 16

theorem State.topFlawsBounded_iff (s : State) : s.topFlawsBounded ↔ PlatesBounded s.grading s.wires.plateOffers :=
  Iff.rfl

/-- What a step from s to t has to keep: the bounds of each block that was within its own. -/
structure State.KeepsBounds (s t : State) : Prop where
  path : s.path.Bounded → t.path.Bounded
  asm : s.asm.Bounded → t.asm.Bounded
  strike : s.strike.Bounded → t.strike.Bounded
  engine : s.engine.Bounded → t.engine.Bounded
  plates : PlatesBounded s.grading s.wires.plateOffers → PlatesBounded t.grading t.wires.plateOffers

namespace State

theorem KeepsBounds.refl (s : State) : s.KeepsBounds s := ⟨id, id, id, id, id⟩

theorem KeepsBounds.trans {s t u : State} (h : s.KeepsBounds t) (g : t.KeepsBounds u) : s.KeepsBounds u :=
  ⟨g.path ∘ h.path, g.asm ∘ h.asm, g.strike ∘ h.strike, g.engine ∘ h.engine, g.plates ∘ h.plates⟩

/-- `KeepsBounds.trans` with the later step first: it tells which state stands between the two. -/
theorem KeepsBounds.after {s t u : State} (h : t.KeepsBounds u) (g : s.KeepsBounds t) : s.KeepsBounds u := g.trans h

theorem KeepsBounds.queues {s t : State} (h : s.KeepsBounds t) (hs : s.queuesBounded) : t.queuesBounded := by
  rw [queuesBounded_iff] at hs ⊢
  exact hs.imp h.path (And.imp h.asm h.strike)

theorem KeepsBounds.joinQueues {s t : State} (h : s.KeepsBounds t) (hs : s.joinQueuesBounded) : t.joinQueuesBounded :=
  t.joinQueuesBounded_iff.mpr (h.engine (s.joinQueuesBounded_iff.mp hs))

theorem KeepsBounds.topFlaws {s t : State} (h : s.KeepsBounds t) (hs : s.topFlawsBounded) : t.topFlawsBounded :=
  t.topFlawsBounded_iff.mpr (h.plates (s.topFlawsBounded_iff.mp hs))

/-- What each step of a fold keeps within bounds, the fold keeps within bounds. -/
theorem keepsBounds_foldl {β : Type} {g : State → β → State} (h : ∀ (s : State) x, s.KeepsBounds (g s x)) (xs : List β)
    (s : State) : s.KeepsBounds (xs.foldl g s) :=
  List.foldlRecOn xs g (.refl s) fun _ ht x _ => ht.trans (h _ x)

end State

/-! ### Transactions of the part (R157) -/

/-- A placing keeps every bound when it keeps the internal queue's. -/
theorem State.Requeued.keepsBounds {s t : State} (h : s.Requeued t)
    (hb : s.path.internal.length ≤ 16 → t.path.internal.length ≤ 16) : s.KeepsBounds t := by
  obtain ⟨q, w, c, a, n, rfl⟩ := h
  exact ⟨fun ⟨hqueue, hinternal⟩ => ⟨hqueue, hb hinternal⟩, id, id, id, id⟩

theorem State.placeWrite_keepsBounds (s : State) (t : Txn) : s.KeepsBounds (s.placeWrite t) :=
  (s.placeWrite_requeued t).keepsBounds (s.placeWrite_bound t)

theorem State.placeRead_keepsBounds (s : State) (t : Txn) : s.KeepsBounds (s.placeRead t) :=
  (s.placeRead_requeued t).keepsBounds (s.placeRead_bound t)

theorem State.placeWrites_keepsBounds (s : State) (ts : List Txn) : s.KeepsBounds (s.placeWrites ts) :=
  (State.placeWrites_requeued ts s).keepsBounds (State.placeWrites_bound ts s)

theorem State.placeReads_keepsBounds (s : State) (ts : List Txn) : s.KeepsBounds (s.placeReads ts) :=
  (State.placeReads_requeued ts s).keepsBounds (State.placeReads_bound ts s)

theorem State.writePageOf_keepsBounds (s : State) (shown : State → State) : s.KeepsBounds (s.writePageOf shown) :=
  (s.writePageOf_requeued shown).keepsBounds (s.writePageOf_bound shown)

theorem State.writePage_keepsBounds (s : State) : s.KeepsBounds s.writePage :=
  s.writePage_requeued.keepsBounds s.writePage_bound

theorem State.writePages_keepsBounds (n : Nat) (s : State) : s.KeepsBounds (State.writePages n s) :=
  (State.writePages_requeued n s).keepsBounds (State.writePages_bound n s)

theorem State.refill_keepsBounds (s : State) : s.KeepsBounds s.refill := s.refill_requeued.keepsBounds s.refill_bound

/-! ### Taking a message: unless said otherwise, its wire carries no plate record -/

section
variable {α : Type} {kind : α → Bool} {act stale : α → State → State}

theorem receiveWith_keepsBounds {wire : Wires → List (Tagged α)} {put : Wires → List (Tagged α) → Wires}
    (hact : ∀ m (s : State), s.KeepsBounds (act m s)) (hstale : ∀ m (s : State), s.KeepsBounds (stale m s)) (s : State)
    (hput : ∀ (s : State) m r, wire s.wires = m :: r → s.KeepsBounds { s with wires := put s.wires r } := by
      exact fun _ _ _ _ => ⟨id, id, id, id, id⟩) :
    s.KeepsBounds (receiveWith kind wire put act stale s) := by
  rcases receiveWith_cases kind wire put act stale s with h | ⟨m, r, _, hw, _, ⟨_, h⟩ | ⟨_, h⟩⟩ <;> rw [h]
  · exact .refl s
  · exact (hput s m r hw).trans (hact _ _)
  · exact (hput s m r hw).trans (hstale _ _)

theorem receiveIf_keepsBounds {wire : Wires → List (Tagged α)} {put : Wires → List (Tagged α) → Wires}
    (hact : ∀ m (s : State), s.KeepsBounds (act m s)) (s : State)
    (hput : ∀ (s : State) m r, wire s.wires = m :: r → s.KeepsBounds { s with wires := put s.wires r } := by
      exact fun _ _ _ _ => ⟨id, id, id, id, id⟩) : s.KeepsBounds (receiveIf kind wire put act s) :=
  receiveWith_keepsBounds hact (fun _ => .refl) s hput

theorem receivePlainIf_keepsBounds {wire : Wires → List α} {put : Wires → List α → Wires}
    (hact : ∀ m (s : State), s.KeepsBounds (act m s)) (s : State)
    (hput : ∀ (s : State) m r, wire s.wires = m :: r → s.KeepsBounds { s with wires := put s.wires r } := by
      exact fun _ _ _ _ => ⟨id, id, id, id, id⟩) : s.KeepsBounds (receivePlainIf kind wire put act s) := by
  rcases receivePlainIf_cases kind wire put act s with h | ⟨m, r, _, hw, _, h⟩ <;> rw [h]
  · exact .refl s
  · exact (hput s m r hw).trans (hact _ _)

end

theorem live_keepsBounds {f : State → State} (hf : ∀ s : State, s.KeepsBounds (f s)) (s : State) :
    s.KeepsBounds (live f s) := by
  rcases live_cases f s with h | ⟨_, h⟩ <;> rw [h]
  · exact .refl s
  · exact hf s

theorem State.finishCommand_keepsBounds (s : State) (n : Nat) (r : Option Reason) :
    s.KeepsBounds (s.finishCommand n r) := ⟨id, id, id, id, id⟩

theorem onCommand_keepsBounds {k : Option CommandKind} {f : List Byte → State → Option Reason × State}
    (hf : ∀ b (s : State), s.KeepsBounds (f b s).2) (s : State) : s.KeepsBounds (onCommand k f s) := by
  rcases onCommand_cases k f s with h | ⟨n, b, _, _, _, h⟩ <;> rw [h]
  · exact .refl s
  · exact (hf b s).trans (State.finishCommand_keepsBounds _ _ _)

end Sys2Proof.Machine
end

section
/-! What the events of each block do to the block's own bounds. -/

namespace Sys2Proof.Machine

/-! ### Pixel Engine (R39, R42) -/

/-- The arbiter takes a TRACK line only while its lane's join queue has room (R39). -/
theorem chooseEntry_room {e : Engine} {x : ReadyEntry} {rest : List ReadyEntry} : ∀ {ready : List ReadyEntry}
    {older : List LaneId}, chooseEntry e older ready = some (x, rest) → x.mode = .track → e.lanes[x.lane].join.length < 8
  | [], _, h => nomatch h
  | y :: ready, older, h => by
    unfold chooseEntry at h
    split at h
    · rename_i hy
      obtain ⟨rfl, rfl⟩ := Prod.mk.inj (Option.some.inj h)
      exact (Engine.eligible_head (rest := ready).mpr hy).1
    · split at h
      · exact nomatch h
      · rename_i z r hz
        obtain ⟨rfl, rfl⟩ := Prod.mk.inj (Option.some.inj h)
        exact chooseEntry_room hz

theorem Engine.leaveRun_bounded (e : Engine) : e.leaveRun.Bounded :=
  ⟨fun k => by simp only [Engine.leaveRun, foldl_upd_allLanes]; exact Nat.zero_le 8, fun _ ha => nomatch ha⟩

theorem Engine.runReset_bounded (e : Engine) : e.runReset.Bounded :=
  ⟨fun k => by simp only [Engine.runReset, foldl_upd_allLanes]; exact Nat.zero_le 8, fun _ ha => nomatch ha⟩

/-- The join of a line takes its entries from the join queues and adds none (R42, R62). -/
theorem Engine.Bounded.takeLine {e : Engine} (h : e.Bounded) (n : Nat) : (e.takeLine n).Bounded := by
  have hjoin (k : LaneId) : (e.takeLine n).lanes[k].join.length ≤ e.lanes[k].join.length := by
    simp only [Engine.takeLine, foldl_upd_allLanes]
    exact List.length_filter_le _ _
  exact ⟨fun k => (hjoin k).trans (h.1 k), fun a ha hmode => (hjoin _).trans_lt (h.2 a ha hmode)⟩

/-- A completed line adds one entry to its lane's join queue when it is a TRACK line, and none otherwise (R41, R42). -/
theorem EngineLane.store_join_length (st : EngineLane) (a : Analysis) (r : LineResult) :
    (st.store a r).join.length = st.join.length + if a.entry.mode = .track then 1 else 0 := by
  unfold EngineLane.store
  cases a.entry.mode <;> simp

theorem Engine.Bounded.stored {s : State} {a : Analysis} (h : s.engine.Bounded) (ha : s.engine.analysis = some a)
    (sh : Shadow) : (s.analysisStored a sh).engine.Bounded := by
  refine ⟨fun k => ?_, fun _ hb => nomatch hb⟩
  by_cases hk : k = a.entry.lane
  · subst hk
    have hroom := h.2 a ha
    have hlane := h.1 a.entry.lane
    rw [State.analysisStored_lane, EngineLane.store_join_length]
    split
    · exact hroom ‹_›
    · exact hlane
  · have hother : (s.analysisStored a sh).engine.lanes[k] = s.engine.lanes[k] := upd_other _ _ _ _ hk
    rw [hother]
    exact h.1 k

/-! ### Blob Assembler (R73, R77) -/

theorem insertBy_length {α : Type} (before : α → α → Bool) (a : α) (l : List α) :
    (insertBy before a l).length = l.length + 1 := (insertBy_perm before a l).length_eq

/-- A flaw is HELD only while the Flaw Table has room (R72, R73). -/
theorem disposition_held {c : JoinContext} {a : Assembler} {b : Blob} {m : Nat} (h : disposition c a b m = .held) :
    a.table.length < 512 := by
  unfold disposition at h
  split_ifs at h with _ _ hroom
  exact hroom

theorem AsmStep.close_bounded {r : AsmStep} (h : r.asm.Bounded) (c : JoinContext) (b : Blob) :
    (r.close c b).asm.Bounded := by
  rw [AsmStep.close_eq]
  refine ⟨?_, h.2⟩
  unfold Assembler.takeFlaw
  dsimp only
  split
  · rename_i hheld
    rw [insertBy_length]
    exact disposition_held hheld
  · exact h.1

theorem AsmStep.makeRoom_bounded {r : AsmStep} (h : r.asm.Bounded) (c : JoinContext) : (r.makeRoom c).asm.Bounded := by
  unfold AsmStep.makeRoom
  split
  · split
    · exact h
    · dsimp only
      apply AsmStep.close_bounded
      exact h
  · exact h

theorem AsmStep.makeBlob_bounded {r : AsmStep} (h : r.asm.Bounded) (c : JoinContext) (n : Nat) (k : Component) :
    (r.makeBlob c n k).asm.Bounded := by
  unfold AsmStep.makeBlob
  split
  · exact h
  · exact r.makeRoom_bounded h c

theorem AsmStep.closeAt_bounded {r : AsmStep × List Marker} (h : r.1.asm.Bounded) (c : JoinContext) (n : Nat)
    (b : Blob) : (AsmStep.closeAt c n r b).1.asm.Bounded := by
  unfold AsmStep.closeAt
  split
  · dsimp only
    apply AsmStep.close_bounded
    exact h
  · exact AsmStep.close_bounded h c b

theorem Assembler.Bounded.joinLine {a : Assembler} (h : a.Bounded) (c : JoinContext) (sh : Shadow) (n : Nat)
    (entries : LaneId → Option JoinEntry) : (a.joinLine c sh n entries).asm.Bounded := by
  unfold Assembler.joinLine
  extract_lets runs cs old fresh r₀ r mark blobs closing kept z
  have hmade : r.asm.Bounded :=
    List.foldlRecOn (motive := fun r : AsmStep => r.asm.Bounded) fresh _ h
      fun _ hr k _ => AsmStep.makeBlob_bounded hr c n k
  exact List.foldlRecOn (motive := fun z : AsmStep × List Marker => z.1.asm.Bounded) closing _ hmade
    fun _ hz b _ => AsmStep.closeAt_bounded hz c n b

theorem Assembler.Bounded.flush {a : Assembler} (h : a.Bounded) (c : JoinContext) : (a.flush c).asm.Bounded :=
  List.foldlRecOn (motive := fun r : AsmStep => r.asm.Bounded) (sortBy Blob.earlier a.blobs) _ h
    fun _ hr b _ => AsmStep.close_bounded hr c b

theorem takeFirst_length {α : Type} {p : α → Bool} {a : α} : ∀ {l rest : List α}, takeFirst p l = some (a, rest) →
    l.length = rest.length + 1
  | [], _, h => nomatch h
  | b :: l, rest, h => by
    unfold takeFirst at h
    split at h
    · obtain ⟨_, rfl⟩ := Prod.mk.inj (Option.some.inj h)
      rfl
    · split at h
      · exact nomatch h
      · rename_i hl
        obtain ⟨rfl, rfl⟩ := Prod.mk.inj (Option.some.inj h)
        exact congrArg (· + 1) (takeFirst_length hl)

/-- A merge into the newest entry leaves the list as long as it was (R77). -/
theorem mergeGap_length (x : Nat) (gaps : List GapEntry) : (mergeGap x gaps).length = gaps.length := by
  unfold mergeGap
  split
  · rfl
  · rename_i h
    rw [insertBy_length, takeFirst_length h]

theorem Assembler.Bounded.gapLine {a : Assembler} (h : a.Bounded) (pitch : Nat) (k : LaneId) (x : Nat) :
    (a.gapLine pitch k x).Bounded := by
  obtain ⟨htable, hgaps⟩ := h
  unfold Assembler.gapLine
  split
  · exact ⟨htable, hgaps⟩
  · split
    · exact ⟨htable, hgaps⟩
    · split
      · exact ⟨htable, by simpa using hgaps⟩
      · split
        · rename_i hroom
          exact ⟨htable, by simpa [insertGap, insertBy_length] using hroom⟩
        · exact ⟨htable, (mergeGap_length x a.gaps).trans_le hgaps⟩

/-! ### Strike Unit (R105, R110) -/

theorem Strike.Bounded.arrive {t : Strike} (h : t.Bounded) (v : Nat) : (t.arrive v).Bounded := by
  obtain ⟨htrack, hgates⟩ := h
  exact ⟨(List.length_filter_le _ _).trans ((List.length_map _).trans_le htrack),
    (List.length_map _).trans_le ((List.length_filter_le _ _).trans hgates)⟩

theorem StrikeStep.value_bounded {r : StrikeStep} (h : r.t.Bounded) (dCut v : Nat) : (r.value dCut v).t.Bounded := by
  unfold StrikeStep.value
  dsimp only
  split
  · split <;> exact h.arrive v
  · exact h.arrive v

theorem Strike.Bounded.rise {t : Strike} (h : t.Bounded) (dCut : Nat) (m : Rise) : (t.rise dCut m).t.Bounded :=
  List.foldlRecOn (motive := fun r : StrikeStep => r.t.Bounded) _ (StrikeStep.value dCut) h
    fun _ hr v _ => StrikeStep.value_bounded hr dCut v

theorem StrikeStep.takeUp_bounded {r : StrikeStep} (h : r.t.Bounded) (dCut : Nat) : (r.takeUp dCut).t.Bounded := by
  unfold StrikeStep.takeUp
  split
  · split <;> exact h
  · exact h

theorem Strike.Bounded.endClaim {t : Strike} (h : t.Bounded) (dCut : Nat) : (t.endClaim dCut).t.Bounded := by
  unfold Strike.endClaim
  dsimp only
  split
  · exact h
  · exact StrikeStep.takeUp_bounded (r := { t := { t with claiming := none }, claims := [] }) h dCut

theorem Strike.Bounded.withdraw {t : Strike} (h : t.Bounded) (dCut : Nat) : (t.withdraw dCut).t.Bounded := by
  unfold Strike.withdraw
  split
  · exact h
  · exact Strike.Bounded.endClaim (t := { t with withdrawn := bump t.withdrawn }) h dCut

theorem Strike.closeEntry_lists (t : Strike) (e : TrackEntry) :
    (t.closeEntry e).track = t.track ∧ (t.closeEntry e).gates = t.gates := by
  unfold Strike.closeEntry
  split <;> exact ⟨rfl, rfl⟩

/-- A full track gives up its oldest entry, so that a strike finds room (R105, R107). -/
theorem Strike.makeRoom_room {t : Strike} (h : t.Bounded) :
    t.makeRoom.track.length < 4 ∧ t.makeRoom.gates.length ≤ 8 := by
  obtain ⟨htrack, hgates⟩ := h
  unfold Strike.makeRoom
  split
  · split
    · rename_i hempty
      exact ⟨hempty ▸ Nat.zero_lt_succ 3, hgates⟩
    · rename_i e rest hcons
      rw [hcons] at htrack
      exact ⟨htrack, (t.closeEntry_lists e).2 ▸ hgates⟩
  · exact ⟨Nat.lt_of_not_le ‹_›, hgates⟩

theorem Strike.Bounded.strikeAt {t : Strike} (h : t.Bounded) (dCut : Nat) (g : StrikeGroup) (c : Nat) :
    (t.strikeAt dCut g c).Bounded := by
  obtain ⟨hroom, hgates⟩ := Strike.makeRoom_room h
  refine List.foldlRecOn (motive := Strike.Bounded) _ Strike.arrive ⟨?_, hgates⟩ fun _ ht v _ => ht.arrive v
  simpa [Strike.setLevels] using hroom

theorem joinNewest_length (stop : Nat) : ∀ gs : List GateWindow, (joinNewest stop gs).length = gs.length
  | [] => rfl
  | [_] => rfl
  | _ :: g :: rest => congrArg (· + 1) (joinNewest_length stop (g :: rest))

theorem Strike.Bounded.enterWindow {t : Strike} (h : t.Bounded) (w : GateWindow) : (t.enterWindow w).Bounded := by
  obtain ⟨htrack, hgates⟩ := h
  unfold Strike.enterWindow
  dsimp only
  split
  · exact ⟨htrack, (joinNewest_length _ _).trans_le hgates⟩
  · split
    · rename_i hroom
      exact ⟨htrack, by simpa [Strike.setLevels] using hroom⟩
    · exact ⟨htrack, (joinNewest_length _ _).trans_le hgates⟩

theorem Strike.Bounded.answer {t : Strike} (h : t.Bounded) (dCut : Nat) (a : GradeAnswer) :
    (t.answer dCut a).Bounded := by
  unfold Strike.answer
  split
  · exact h
  · exact h.enterWindow _

theorem Strike.close_bounded (t : Strike) : t.close.Bounded := ⟨Nat.zero_le _, Nat.zero_le _⟩

theorem Strike.runReset_bounded (t : Strike) : t.runReset.Bounded := ⟨Nat.zero_le _, Nat.zero_le _⟩

/-! ### Path Unit (R143, R157) -/

theorem localLeavers_length : ∀ (waiting : List SourceId) (q : List PassEntry),
    (localLeavers waiting q).2.length ≤ q.length
  | _, [] => Nat.le_refl 0
  | waiting, e :: rest => by
    unfold localLeavers
    split
    · exact (localLeavers_length waiting rest).trans (Nat.le_succ _)
    · exact Nat.succ_le_succ (localLeavers_length _ rest)

/-- A settling takes entries from the pass-through queue alone (R144). -/
theorem Path.Bounded.settle {p : Path} (h : p.Bounded) : p.settle.Bounded := by
  refine ⟨?_, ?_⟩
  · rw [Path.settle_queue]
    exact (localLeavers_length [] p.queue).trans h.1
  · rw [p.settle_frame.2.2.2.2.1]
    exact h.2

theorem Path.Bounded.hold {p : Path} (h : p.Bounded) : p.hold.Bounded := ⟨by simpa [Path.hold] using h.1, h.2⟩

theorem Path.Bounded.unhold {p : Path} (h : p.Bounded) : p.unhold.Bounded := ⟨by simpa [Path.unhold] using h.1, h.2⟩

theorem Path.Bounded.remark {p : Path} (h : p.Bounded) (i : Nat) (m : Mark) : (p.remark i m).Bounded :=
  ⟨by simpa [Path.remark] using h.1, h.2⟩

/-- A request enters the pass-through queue only while it has room (R143). -/
theorem Path.Bounded.enqueue {p : Path} (h : p.Bounded) (hroom : p.queue.length < 32) (k : ReqKind) (q : Request)
    (m : Mark) : (p.enqueue k q m).Bounded := ⟨by simpa [Path.enqueue, Path.hold] using hroom, h.2⟩

theorem readyEntry_length {e : PassEntry} : ∀ {older : List SourceId} {q rest : List PassEntry},
    readyEntry older q = some (e, rest) → rest.length ≤ q.length
  | _, [], _, h => nomatch h
  | older, x :: q, rest, h => by
    unfold readyEntry at h
    split at h
    · obtain ⟨_, rfl⟩ := Prod.mk.inj (Option.some.inj h)
      exact Nat.le_succ _
    · split at h
      · exact nomatch h
      · rename_i hq
        obtain ⟨rfl, rfl⟩ := Prod.mk.inj (Option.some.inj h)
        exact Nat.succ_le_succ (readyEntry_length hq)

theorem Path.warmReset_bounded (p : Path) : p.warmReset.Bounded := ⟨Nat.zero_le _, Nat.zero_le _⟩

/-! ### Grading Unit (R122) -/

theorem topFlaws_length (fs : List FlawEntry) : (topFlaws fs).length ≤ 16 := by
  rw [topFlaws, List.length_map]
  exact List.length_take_le _ _

end Sys2Proof.Machine
end

section
/-! What every command does to the bounds of the queues and tables; with it O5. -/

namespace Sys2Proof.Machine

open State (KeepsBounds keepsBounds_foldl)

/-! ### Travel Unit and Shift Unit -/

theorem encoderEdge_keepsBounds (a b : Bool) (s : State) : s.KeepsBounds (encoderEdge a b s) := by
  unfold encoderEdge
  split <;> exact ⟨id, id, id, id, id⟩

theorem takeUnitTick_keepsBounds (s : State) : s.KeepsBounds (takeUnitTick s) := by
  unfold takeUnitTick
  dsimp only
  split
  · exact ⟨id, id, id, id, id⟩
  · split <;> exact ⟨id, id, id, id, id⟩

theorem travelSecond_keepsBounds (s : State) : s.KeepsBounds (travelSecond s) := by
  unfold travelSecond
  dsimp only
  split <;> exact ⟨id, id, id, id, id⟩

theorem State.boundary_keepsBounds (s : State) (slot : OpeningSlot) : s.KeepsBounds (s.boundary slot) := by
  rw [State.boundary_eq]
  exact ⟨id, id, id, id, id⟩

theorem period_keepsBounds (s : State) : s.KeepsBounds (period s) := by
  rw [period_eq]
  exact ⟨id, id, id, id, id⟩

theorem takeGradingIncrement_keepsBounds (m : Tagged GradingIncrement) (s : State) :
    s.KeepsBounds (takeGradingIncrement m s) := ⟨id, id, id, id, id⟩

theorem takeShiftAnswer_keepsBounds (a : LogAnswer) (s : State) : s.KeepsBounds (takeShiftAnswer a s) := by
  unfold takeShiftAnswer
  split <;> exact ⟨id, id, id, id, id⟩

theorem takeShiftIf_keepsBounds (a : LogAnswer) (s : State) : s.KeepsBounds (takeShiftIf a s) := by
  unfold takeShiftIf
  exact receivePlainIf_keepsBounds takeShiftAnswer_keepsBounds s

/-! ### Lane Units and Pixel Engine -/

/-- The end of a lane's event changes of the engine the ready list alone. -/
theorem State.finishLane_keepsBounds (s : State) (k : LaneId) (r : LaneStep) (x : Option (Nat × Option GapCause)) :
    s.KeepsBounds (s.finishLane k r x) :=
  (State.writePages_keepsBounds r.changes _).after ⟨id, id, id, id, id⟩

theorem takeLanding_keepsBounds (k : LaneId) (w : LandingCopy) (s : State) : s.KeepsBounds (takeLanding k w s) := by
  unfold takeLanding
  split
  · exact .refl s
  · split
    · exact .refl s
    · exact s.finishLane_keepsBounds _ _ _

theorem takeLineTrigger_keepsBounds (k : LaneId) (n : Nat) (s : State) : s.KeepsBounds (takeLineTrigger k n s) := by
  unfold takeLineTrigger
  split
  · exact .refl s
  · exact s.finishLane_keepsBounds _ _ _

theorem analysisBegin_keepsBounds (s : State) : s.KeepsBounds (analysisBegin s) := by
  unfold analysisBegin
  split
  · rename_i x rest _ hx
    have hroom := chooseEntry_room hx
    dsimp only
    split
    · exact ⟨id, id, id, id, id⟩
    · refine ⟨id, id, id, fun h => ⟨h.1, ?_⟩, id⟩
      rintro _ ⟨⟩ hmode
      exact hroom hmode
  · exact .refl s

theorem completeAnalysis_keepsBounds {s : State} {a : Analysis} (ha : s.engine.analysis = some a) (sh : Shadow) :
    s.KeepsBounds (completeAnalysis a sh s) := by
  have hstored : s.KeepsBounds (s.analysisStored a sh) := ⟨id, id, id, fun h => h.stored ha sh, id⟩
  rw [completeAnalysis_eq]
  exact hstored.trans (State.finishLane_keepsBounds _ _ _ _)

/-! ### Blob Assembler -/

/-- An event of the assembler that keeps its own bounds keeps every bound. -/
theorem State.finishAsm_keepsBounds {s : State} {r : AsmStep} (h : s.asm.Bounded → r.asm.Bounded) :
    s.KeepsBounds (s.finishAsm r) := ⟨id, h, id, id, id⟩

theorem joinNext_keepsBounds (s : State) : s.KeepsBounds (joinNext s) := by
  unfold joinNext
  split
  · dsimp only
    split
    · exact (State.finishAsm_keepsBounds fun h => h.joinLine _ _ _ _).after ⟨id, id, id, fun h => h.takeLine _, id⟩
    · exact .refl s
  · exact .refl s

theorem flushBlobs_keepsBounds (s : State) : s.KeepsBounds (flushBlobs s) := by
  unfold flushBlobs
  split
  · exact State.finishAsm_keepsBounds fun h => h.flush _
  · exact .refl s

theorem takeLaneMsg_keepsBounds (k : LaneId) (m : LaneMsg) (s : State) : s.KeepsBounds (takeLaneMsg k m s) := by
  unfold takeLaneMsg
  split
  · split
    · exact .refl s
    · exact ⟨id, fun h => h.gapLine _ k _, id, id, id⟩
  · exact ⟨id, id, id, id, id⟩

/-- A mark changes an entry of the Flaw Table and adds none (R74). -/
theorem takePlanReq_keepsBounds (m : PlanReq) (s : State) : s.KeepsBounds (takePlanReq m s) := by
  unfold takePlanReq
  split
  · exact ⟨id, id, id, id, id⟩
  · exact ⟨id, fun h => ⟨(List.length_map _).trans_le h.1, h.2⟩, id, id, id⟩
  · exact ⟨id, fun h => ⟨(List.length_map _).trans_le h.1, h.2⟩, id, id, id⟩

/-- A gather takes flaws from the Flaw Table and trims the gap list (R75). -/
theorem takeGather_keepsBounds (m : GatherReq) (s : State) : s.KeepsBounds (takeGather m s) := by
  unfold takeGather
  split
  · exact .refl s
  · exact ⟨id, fun h => ⟨(List.length_filter_le _ _).trans h.1, (List.length_filter_le _ _).trans h.2⟩, id, id, id⟩

/-! ### Cut Planner -/

theorem State.finishPlan_keepsBounds (s : State) (r : PlanStep) : s.KeepsBounds (s.finishPlan r) := ⟨id, id, id, id, id⟩

theorem takeAsmMsg_keepsBounds (m : AsmMsg) (s : State) : s.KeepsBounds (takeAsmMsg m s) := by
  unfold takeAsmMsg
  split
  · exact .refl s
  · exact s.finishPlan_keepsBounds _

theorem takeAsmIf_keepsBounds (kind : AsmMsg → Bool) (s : State) : s.KeepsBounds (takeAsmIf kind s) := by
  unfold takeAsmIf
  exact receiveIf_keepsBounds takeAsmMsg_keepsBounds s

theorem takePlannerRise_keepsBounds (m : Rise) (s : State) : s.KeepsBounds (takePlannerRise m s) := by
  unfold takePlannerRise
  split
  · exact .refl s
  · exact s.finishPlan_keepsBounds _

theorem takeClaim_keepsBounds (n : Nat) (s : State) : s.KeepsBounds (takeClaim n s) := by
  unfold takeClaim
  split
  · exact .refl s
  · exact s.finishPlan_keepsBounds _

theorem State.runEndDone_keepsBounds (s : State) : s.KeepsBounds s.runEndDone := by
  unfold State.runEndDone
  split <;> exact ⟨id, id, id, id, id⟩

theorem takePieceReq_keepsBounds (m : PieceReq) (s : State) : s.KeepsBounds (takePieceReq m s) := by
  unfold takePieceReq
  split
  · exact .refl s
  · exact (s.finishPlan_keepsBounds _).trans (State.runEndDone_keepsBounds _)
  · exact ⟨id, id, id, id, id⟩

theorem manualCut_keepsBounds (b : List Byte) (s : State) : s.KeepsBounds (manualCut b s).2 := by
  unfold manualCut
  split
  · exact .refl s
  · exact s.finishPlan_keepsBounds _

/-! ### Strike Unit -/

/-- An event of the Strike Unit that keeps its own bounds keeps every bound. -/
theorem State.finishStrike_keepsBounds {s : State} {r : StrikeStep} (h : s.strike.Bounded → r.t.Bounded) :
    s.KeepsBounds (s.finishStrike r) := ⟨id, id, h, id, id⟩

theorem takeStrikeRise_keepsBounds (m : Rise) (s : State) : s.KeepsBounds (takeStrikeRise m s) := by
  unfold takeStrikeRise
  split
  · exact .refl s
  · split
    · exact State.finishStrike_keepsBounds fun h => h.rise _ m
    · exact .refl s

theorem takeGrant_keepsBounds (n : Nat) (q : PieceKind) (h : Option Nat) (z : Nat) (sh : Shadow) (s : State) :
    s.KeepsBounds (takeGrant n q h z sh s) := by
  unfold takeGrant
  dsimp only
  split
  · exact ⟨id, id, id, id, id⟩
  · exact ⟨id, id, fun h => (h.strikeAt _ _ z).endClaim _, id, id⟩

theorem takeStrikeMsg_keepsBounds (m : StrikeMsg) (s : State) : s.KeepsBounds (takeStrikeMsg m s) := by
  unfold takeStrikeMsg
  split
  · exact .refl s
  · exact State.finishStrike_keepsBounds fun h => StrikeStep.takeUp_bounded h _
  · exact takeGrant_keepsBounds _ _ _ _ _ s
  · exact State.finishStrike_keepsBounds fun h => h.withdraw _

theorem staleGrant_keepsBounds (m : StrikeMsg) (s : State) : s.KeepsBounds (staleGrant m s) := ⟨id, id, id, id, id⟩

theorem takeStrikeIf_keepsBounds (kind : StrikeMsg → Bool) (s : State) : s.KeepsBounds (takeStrikeIf kind s) := by
  unfold takeStrikeIf
  exact receiveIf_keepsBounds takeStrikeMsg_keepsBounds s

theorem takeGradeAnswer_keepsBounds (a : GradeAnswer) (s : State) : s.KeepsBounds (takeGradeAnswer a s) := by
  unfold takeGradeAnswer
  split
  · exact .refl s
  · split
    · exact ⟨id, id, fun h => h.answer _ a, id, id⟩
    · exact .refl s

/-! ### Grading Unit: the records in STAMPING, on the outbound list and on offer (R122) -/

theorem takeHandoff_keepsBounds (m : Handoff) (s : State) : s.KeepsBounds (takeHandoff m s) := ⟨id, id, id, id, id⟩

theorem staleHandoff_keepsBounds (m : Handoff) (s : State) : s.KeepsBounds (staleHandoff m s) := ⟨id, id, id, id, id⟩

theorem gradingBegin_keepsBounds (s : State) : s.KeepsBounds (gradingBegin s) := by
  unfold gradingBegin
  split
  · exact ⟨id, id, id, id, fun ⟨_, hout, hoffer⟩ => ⟨fun _ h => (nomatch h), hout, hoffer⟩⟩
  · exact .refl s

theorem takeGatherAnswer_keepsBounds (a : GatherAnswer) (s : State) : s.KeepsBounds (takeGatherAnswer a s) := by
  unfold takeGatherAnswer
  split
  · refine ⟨id, id, id, id, fun ⟨_, hout, hoffer⟩ => ⟨?_, hout, hoffer⟩⟩
    rintro _ ⟨⟩
    exact topFlaws_length _
  · exact .refl s

/-- An offer carries the oldest record of the outbound list (R125). -/
theorem State.offerPlate_keepsBounds (s : State) : s.KeepsBounds s.offerPlate := by
  unfold State.offerPlate
  split
  · exact .refl s
  · rename_i o rest ho
    split
    · exact .refl s
    · refine ⟨id, id, id, id, fun ⟨hstate, hout, hoffer⟩ => ⟨hstate, hout, fun m hm => ?_⟩⟩
      rcases List.mem_append.mp hm with hm | hm
      · exact hoffer m hm
      · obtain rfl := List.mem_singleton.mp hm
        exact hout o (ho ▸ List.mem_cons_self)

/-- A stamped record joins the outbound list; its flaws were bounded while it stood in STAMPING (R123, R125). -/
theorem State.joinOutbound_keepsBounds {s t : State} {r : PlateRecord} (h : s.KeepsBounds t)
    (hr : PlatesBounded s.grading s.wires.plateOffers → r.top.length ≤ 16) : s.KeepsBounds (t.joinOutbound r) := by
  have hjoin {o : Outbound} (ho : o.record = r) (hs : PlatesBounded s.grading s.wires.plateOffers) :
      ∀ x ∈ t.grading.outbound ++ [o], x.record.top.length ≤ 16 := fun x hx => by
    rcases List.mem_append.mp hx with hx | hx
    · exact (h.plates hs).2.1 x hx
    · rw [List.mem_singleton.mp hx, ho]
      exact hr hs
  unfold State.joinOutbound
  dsimp only
  split
  · exact ⟨h.path, h.asm, h.strike, h.engine, fun hs => ⟨(h.plates hs).1, hjoin rfl hs, (h.plates hs).2.2⟩⟩
  · refine (State.offerPlate_keepsBounds _).after ?_
    exact ⟨h.path, h.asm, h.strike, h.engine, fun hs => ⟨(h.plates hs).1, hjoin rfl hs, (h.plates hs).2.2⟩⟩

theorem takeStamp_keepsBounds (m : ShiftStamp) (s : State) : s.KeepsBounds (takeStamp m s) := by
  unfold takeStamp
  split
  · rename_i r hr
    exact State.joinOutbound_keepsBounds
      ⟨id, id, id, id, fun ⟨_, hout, hoffer⟩ => ⟨fun _ h => (nomatch h), hout, hoffer⟩⟩ fun hs => hs.1 r hr
  · exact .refl s
  · exact .refl s

theorem plateAccepted_keepsBounds (s : State) : s.KeepsBounds (plateAccepted s) := by
  unfold plateAccepted
  split
  · exact .refl s
  · rename_i o rest ho
    refine (State.offerPlate_keepsBounds _).after
      ⟨id, id, id, id, fun ⟨hstate, hout, hoffer⟩ => ⟨hstate, fun x hx => ?_, hoffer⟩⟩
    exact hout x (ho ▸ List.mem_cons_of_mem o hx)

theorem plateFull_keepsBounds (s : State) : s.KeepsBounds (plateFull s) := by
  refine State.KeepsBounds.after
    (keepsBounds_foldl (g := fun (s : State) (o : Outbound) => s.askPlanner (.waitingLog o.record.number))
      (fun _ _ => ?_) _ _) ?_
  · exact ⟨id, id, id, id, id⟩
  · refine ⟨id, id, id, id, fun ⟨hstate, hout, hoffer⟩ => ⟨hstate, fun x hx => ?_, hoffer⟩⟩
    obtain ⟨o, ho, rfl⟩ := List.mem_map.mp hx
    exact hout o ho

theorem plateRoom_keepsBounds (s : State) : s.KeepsBounds (plateRoom s) := by
  unfold plateRoom
  split
  · exact (State.offerPlate_keepsBounds _).after ⟨id, id, id, id, id⟩
  · exact .refl s

theorem takePlateAnswer_keepsBounds (a : LogAnswer) (s : State) : s.KeepsBounds (takePlateAnswer a s) := by
  cases a with
  | accepted => exact plateAccepted_keepsBounds s
  | full => exact plateFull_keepsBounds s
  | room => exact plateRoom_keepsBounds s

theorem takePlateIf_keepsBounds (a : LogAnswer) (s : State) : s.KeepsBounds (takePlateIf a s) := by
  unfold takePlateIf
  exact receiveIf_keepsBounds takePlateAnswer_keepsBounds s

/-- An offer taken from its wire is no longer bounded, and the others are as they were. -/
theorem plateOffers_taken_keepsBounds {s : State} {m : Tagged PlateRecord} {r : List (Tagged PlateRecord)}
    (h : s.wires.plateOffers = m :: r) : s.KeepsBounds { s with wires := { s.wires with plateOffers := r } } :=
  ⟨id, id, id, id, fun ⟨hstate, hout, hoffer⟩ =>
    ⟨hstate, hout, fun x hx => hoffer x (h ▸ List.mem_cons_of_mem m hx)⟩⟩

/-! ### Record Writer -/

theorem State.placeEntry_keepsBounds (s : State) (l : LogId) (b : List Byte) : s.KeepsBounds (s.placeEntry l b) := by
  unfold State.placeEntry
  dsimp only
  split
  · exact .refl s
  · exact (State.placeWrites_keepsBounds _ _).after ⟨id, id, id, id, id⟩

theorem takeFlawRecord_keepsBounds (r : FlawRecord) (s : State) : s.KeepsBounds (takeFlawRecord r s) := by
  unfold takeFlawRecord
  split
  · exact ⟨id, id, id, id, id⟩
  · exact s.placeEntry_keepsBounds _ _

theorem takePlateOffer_keepsBounds (r : PlateRecord) (s : State) : s.KeepsBounds (takePlateOffer r s) := by
  unfold takePlateOffer
  split
  · exact ⟨id, id, id, id, id⟩
  · exact (s.placeEntry_keepsBounds _ _).trans ⟨id, id, id, id, id⟩

theorem takeShiftOffer_keepsBounds (r : ShiftReport) (s : State) : s.KeepsBounds (takeShiftOffer r s) := by
  unfold takeShiftOffer
  split
  · exact ⟨id, id, id, id, id⟩
  · exact (s.placeEntry_keepsBounds _ _).trans ⟨id, id, id, id, id⟩

theorem State.rewriteFault_keepsBounds (s : State) (f : LogFields) (o : OpenFault) :
    s.KeepsBounds (s.rewriteFault f o) :=
  (State.placeWrite_keepsBounds _ _).after ⟨id, id, id, id, id⟩

theorem takeFault_keepsBounds (m : FaultMsg) (s : State) : s.KeepsBounds (takeFault m s) := by
  unfold takeFault
  split
  · exact (State.rewriteFault_keepsBounds _ _ _).after ⟨id, id, id, id, id⟩
  · dsimp only
    split
    · exact ⟨id, id, id, id, id⟩
    · exact (State.placeEntry_keepsBounds _ _ _).after ⟨id, id, id, id, id⟩

theorem afterRelease_keepsBounds (l : LogId) (s : State) : s.KeepsBounds (afterRelease l s) := by
  cases l with
  | flaw => exact .refl s
  | plate =>
    dsimp only [afterRelease]
    split <;> exact ⟨id, id, id, id, id⟩
  | shift =>
    dsimp only [afterRelease]
    split <;> exact ⟨id, id, id, id, id⟩
  | fault =>
    dsimp only [afterRelease]
    exact ⟨id, id, id, id, id⟩

theorem takeRelease_keepsBounds (m : Release) (s : State) : s.KeepsBounds (takeRelease m s) := by
  unfold takeRelease
  split
  · exact .refl s
  · have hevaluated (u : State) : u.KeepsBounds u.evalAttn := ⟨id, id, id, id, id⟩
    exact (hevaluated _).after ((afterRelease_keepsBounds m.log _).after ⟨id, id, id, id, id⟩)

theorem writerSecond_keepsBounds (s : State) : s.KeepsBounds (writerSecond s) := by
  unfold writerSecond
  exact (State.writePage_keepsBounds _).after ⟨id, id, id, id, id⟩

/-! ### Path Unit -/

/-- A request is taken only while the pass-through queue has room (R143). -/
theorem State.takeOne_keepsBounds {s : State} (hroom : s.path.queue.length < 32) (k : ReqKind) (q : Request) :
    s.KeepsBounds (s.takeOne k q) := by
  unfold State.takeOne
  split
  · exact ⟨fun h => (h.enqueue hroom k q _).settle, id, id, id, id⟩
  · exact ⟨fun h => Path.Bounded.settle (h.enqueue hroom k q .refused), id, id, id, id⟩

theorem takeHeldOff_keepsBounds (hs : List HeldOff) : ∀ s : State, s.KeepsBounds (takeHeldOff hs s) := by
  induction hs with
  | nil => exact fun _ => ⟨id, id, id, id, id⟩
  | cons h hs ih =>
    intro s
    unfold takeHeldOff
    split
    · exact (State.takeOne_keepsBounds ‹_› _ _).trans (ih _)
    · exact ⟨id, id, id, id, id⟩

theorem State.takeHeld_keepsBounds (s : State) : s.KeepsBounds s.takeHeld := takeHeldOff_keepsBounds _ s

theorem State.request_keepsBounds (s : State) (k : ReqKind) (q : Request) : s.KeepsBounds (s.request k q) := by
  unfold State.request
  split
  · exact ⟨id, id, id, id, id⟩
  · rename_i h
    simp only [Bool.or_eq_true, decide_eq_true_eq, not_or, Nat.not_le] at h
    exact State.takeOne_keepsBounds h.2 k q

theorem readRequest_keepsBounds (q : Request) (s : State) : s.KeepsBounds (readRequest q s) := by
  unfold readRequest
  split
  · exact s.request_keepsBounds _ _
  · exact .refl s

theorem writeRequest_keepsBounds (q : Request) (s : State) : s.KeepsBounds (writeRequest q s) := by
  unfold writeRequest
  split
  · exact s.request_keepsBounds _ _
  · exact .refl s

theorem takeVerdict_keepsBounds (v : VerdictMsg) (s : State) : s.KeepsBounds (takeVerdict v s) := by
  unfold takeVerdict
  split
  · exact .refl s
  · split
    · exact ⟨fun h => h.remark _ _, id, id, id, id⟩
    · exact (State.takeHeld_keepsBounds _).after ⟨fun h => Path.Bounded.settle (h.remark v.id .refused), id, id, id, id⟩

theorem takeAnnouncement_keepsBounds (m : PendingRewrite) (s : State) : s.KeepsBounds (takeAnnouncement m s) := by
  unfold takeAnnouncement
  split
  · exact ⟨fun h => Path.Bounded.hold (p := { s.path with rewrites := s.path.rewrites ++ [m] }) h, id, id, id, id⟩
  · exact .refl s

theorem copyOn_keepsBounds (e : PassEntry) (s : State) : s.KeepsBounds (copyOn e s) := by
  unfold copyOn
  split
  · exact ⟨id, id, id, id, id⟩
  · exact ⟨id, id, id, id, id⟩
  · unfold copyCommand
    dsimp only
    split <;> exact ⟨id, id, id, id, id⟩
  all_goals exact .refl s

theorem passEffect_keepsBounds (e : PassEntry) (s : State) : s.KeepsBounds (passEffect e s) := by
  unfold passEffect
  split
  · exact ⟨id, id, id, id, id⟩
  · exact (copyOn_keepsBounds e _).after ⟨id, id, id, id, id⟩

theorem sendPass_keepsBounds {s : State} {e : PassEntry} {rest : List PassEntry}
    (hrest : rest.length ≤ s.path.queue.length) : s.KeepsBounds (sendPass e rest s) := by
  have hleft : s.KeepsBounds { s with path := { s.path with
      queue := rest, marker := .pass, forwarded := bump s.path.forwarded } } :=
    ⟨fun ⟨hqueue, hinternal⟩ => ⟨hrest.trans hqueue, hinternal⟩, id, id, id, id⟩
  exact (hleft.trans (passEffect_keepsBounds e _)).trans
    ((State.takeHeld_keepsBounds _).after ⟨Path.Bounded.settle, id, id, id, id⟩)

theorem txnMemory_keepsBounds (t : Txn) (s : State) : s.KeepsBounds (txnMemory t s) := by
  unfold txnMemory
  split <;> exact ⟨id, id, id, id, id⟩

theorem txnEffect_keepsBounds (t : Txn) (s : State) : s.KeepsBounds (txnEffect t s) := by
  unfold txnEffect
  split
  · unfold entryWritten
    dsimp only
    split <;> exact ⟨id, id, id, id, id⟩
  · exact ⟨fun h => Path.Bounded.unhold (p := { s.path with rewrites := _ }) h, id, id, id, id⟩
  · exact ⟨id, id, id, id, id⟩
  all_goals exact .refl s

theorem sendInternal_keepsBounds {s : State} {t : Txn} {rest : List Txn} (h : s.path.internal = t :: rest) :
    s.KeepsBounds (sendInternal t rest s) := by
  have hleft : s.KeepsBounds { s with path := { s.path with internal := rest, marker := .internal } } :=
    ⟨fun ⟨hqueue, hinternal⟩ => ⟨hqueue, Nat.le_of_succ_le ((congrArg List.length h).symm.trans_le hinternal)⟩,
      id, id, id, id⟩
  exact ((hleft.trans (txnMemory_keepsBounds t _)).trans (txnEffect_keepsBounds t _)).trans (State.refill_keepsBounds _)

theorem mPortSend_keepsBounds (s : State) : s.KeepsBounds (mPortSend s) := by
  unfold mPortSend
  split
  · exact .refl s
  · exact sendPass_keepsBounds (readyEntry_length ‹_›)
  · exact sendInternal_keepsBounds ‹_›
  · split
    · exact sendInternal_keepsBounds ‹_›
    · exact sendPass_keepsBounds (readyEntry_length ‹_›)

theorem slotData_keepsBounds (b : List Byte) (s : State) : s.KeepsBounds (slotData b s) := by
  unfold slotData
  split <;> exact ⟨id, id, id, id, id⟩

theorem areaData_keepsBounds (b : List Byte) (s : State) : s.KeepsBounds (areaData b s) := by
  unfold areaData
  split <;> exact ⟨id, id, id, id, id⟩

theorem memoryAnswer_keepsBounds (s : State) : s.KeepsBounds (memoryAnswer s) := by
  unfold memoryAnswer
  split
  · exact .refl s
  · dsimp only
    split
    · exact ⟨id, id, id, id, id⟩
    · exact (slotData_keepsBounds _ _).after ⟨id, id, id, id, id⟩
    · exact (areaData_keepsBounds _ _).after ⟨id, id, id, id, id⟩
    · exact ⟨id, id, id, id, id⟩

/-! ### Command Unit -/

theorem commandTake_keepsBounds (s : State) : s.KeepsBounds (commandTake s) := by
  unfold commandTake
  split
  · exact .refl s
  · split
    · exact .refl s
    · exact (State.placeRead_keepsBounds _ _).after ⟨id, id, id, id, id⟩

theorem commandCompletion_keepsBounds (s : State) : s.KeepsBounds (commandCompletion s) := by
  unfold commandCompletion
  split
  · exact (State.placeWrites_keepsBounds _ _).after ⟨id, id, id, id, id⟩
  · exact .refl s

/-- A new run state with its pages keeps every bound (R162, R171). -/
theorem State.handRunState_keepsBounds (s : State) (st : RunState) : s.KeepsBounds (s.handRunState st) :=
  ⟨id, id, id, id, id⟩

/-- A run reset empties what it does not leave (R58, R79, R114, R128). -/
theorem State.runReset_keepsBounds (s : State) : s.KeepsBounds s.runReset :=
  ⟨id, fun _ => ⟨Nat.zero_le _, Nat.zero_le _⟩, fun _ => s.strike.runReset_bounded, fun _ => s.engine.runReset_bounded,
    fun ⟨_, _, hoffer⟩ => ⟨fun _ h => (nomatch h), fun _ h => (nomatch h), hoffer⟩⟩

theorem State.enterRunning_keepsBounds (s : State) (sh : Shadow) : s.KeepsBounds (s.enterRunning sh) :=
  (State.writePages_keepsBounds _ _).after ⟨id, id, id, id, id⟩

theorem startRun_keepsBounds (s : State) : s.KeepsBounds (startRun s).2 := by
  unfold startRun
  split
  · exact (State.enterRunning_keepsBounds _ _).after (s.runReset_keepsBounds.trans ⟨id, id, id, id, id⟩)
  all_goals exact .refl s

theorem State.freeOutstanding_keepsBounds (s : State) : s.KeepsBounds s.freeOutstanding :=
  keepsBounds_foldl (g := fun (s : State) (e : ReadyEntry) => s.setLane e.lane (s.lanes[e.lane].freed e.buffer))
    (fun _ _ => ⟨id, id, id, id, id⟩) _ s

theorem State.leaveRunning_keepsBounds (s : State) : s.KeepsBounds s.leaveRunning := by
  unfold State.leaveRunning
  dsimp only
  have hlanes : s.KeepsBounds ((s.handRunState .draining).stepLanes (Lane.leaveRun .draining)).1 := ⟨id, id, id, id, id⟩
  have hengine (u : State) : u.KeepsBounds { u with engine := u.engine.leaveRun } :=
    ⟨id, id, id, fun _ => u.engine.leaveRun_bounded, id⟩
  exact (((hlanes.trans (State.freeOutstanding_keepsBounds _)).trans (hengine _)).trans (flushBlobs_keepsBounds _)).trans
    (State.writePages_keepsBounds _ _)

theorem stopRun_keepsBounds (s : State) : s.KeepsBounds (stopRun s).2 := by
  unfold stopRun
  split
  · exact s.leaveRunning_keepsBounds
  all_goals exact .refl s

theorem resetRun_keepsBounds (s : State) : s.KeepsBounds (resetRun s).2 := by
  have hpages := (s.runReset_keepsBounds.trans (State.handRunState_keepsBounds _ .configured)).trans
    (State.writePages_keepsBounds (s.activeLanes + 1) _)
  unfold resetRun
  split
  · exact .refl s
  · exact s.runReset_keepsBounds
  all_goals exact hpages

theorem takeRunEnd_keepsBounds (s : State) : s.KeepsBounds (takeRunEnd s) := by
  unfold takeRunEnd
  split
  · exact (State.writePages_keepsBounds 1 _).after ⟨id, id, fun _ => s.strike.close_bounded, id, id⟩
  all_goals exact .refl s

theorem State.takeLogs_keepsBounds (s : State) (logs : Vector LogFields 4) : s.KeepsBounds (s.takeLogs logs) := by
  rw [(s.takeLogs_eq logs).1]
  exact ⟨id, id, id, id, id⟩

theorem State.applyConfiguration_keepsBounds (s : State) (a : Area) : s.KeepsBounds (s.applyConfiguration a) := by
  unfold State.applyConfiguration
  dsimp only
  refine (KeepsBounds.trans ?_ (State.takeLogs_keepsBounds _ _)).trans
    ((State.handRunState_keepsBounds _ _).trans (State.writePages_keepsBounds _ _))
  exact ⟨id, id, id, id, id⟩

theorem configureRead_keepsBounds (b : List Byte) (s : State) : s.KeepsBounds (configureRead b s).2 := by
  unfold configureRead
  dsimp only
  split
  · exact ⟨id, id, id, id, id⟩
  · exact s.applyConfiguration_keepsBounds _

theorem configureBegin_keepsBounds (n : Nat) (s : State) : s.KeepsBounds (configureBegin n s) := by
  unfold configureBegin
  split
  · exact ⟨id, id, id, id, id⟩
  · exact (State.placeReads_keepsBounds _ _).after ⟨id, id, id, id, id⟩

theorem configure_keepsBounds (s : State) : s.KeepsBounds (configure s) := by
  unfold configure
  split
  · split
    · exact configureBegin_keepsBounds _ s
    · exact .refl s
  · split
    · exact (configureRead_keepsBounds _ s).trans (State.finishCommand_keepsBounds _ _ _)
    · exact .refl s
  · exact .refl s

theorem onLanes_keepsBounds (f : Lane → LaneStep) (b : List Byte) (s : State) : s.KeepsBounds (onLanes f b s).2 := by
  unfold onLanes
  split
  · exact .refl s
  all_goals exact keepsBounds_foldl (fun s k => s.finishLane_keepsBounds k (f s.lanes[k]) none) _ s

theorem makeEligible_keepsBounds (g : GroupId) (b : List Byte) (s : State) : s.KeepsBounds (makeEligible g b s) := by
  cases g <;> exact ⟨id, id, id, id, id⟩

theorem groupVerdict_keepsBounds (s : State) (g : GroupId) (q : Request) : s.KeepsBounds (groupVerdict s g q).2 := by
  unfold groupVerdict
  split
  · split
    · exact makeEligible_keepsBounds _ _ s
    · exact ⟨id, id, id, id, id⟩
  · exact .refl s

theorem takeVerdictRequest_keepsBounds (m : VerdictRequest) (s : State) : s.KeepsBounds (takeVerdictRequest m s) := by
  unfold takeVerdictRequest
  split
  · exact (groupVerdict_keepsBounds s _ m.req).trans ⟨id, id, id, id, id⟩
  · exact ⟨id, id, id, id, id⟩

theorem takeSeenWrite_keepsBounds (m : SeenWrite) (s : State) : s.KeepsBounds (takeSeenWrite m s) := ⟨id, id, id, id, id⟩

/-! ### Resets -/

theorem powerOn_keepsBounds (s : State) : s.KeepsBounds (powerOn s) := by
  obtain ⟨_, _, hqueues, hjoin, htop, _⟩ := resetMeetsTheInvariants
  obtain ⟨hpath, hasm, hstrike⟩ := (State.queuesBounded_iff _).mp hqueues
  exact ⟨fun _ => hpath, fun _ => hasm, fun _ => hstrike, fun _ => hjoin, fun _ => htop⟩

theorem warmReset_keepsBounds (s : State) : s.KeepsBounds (warmReset s) := by
  obtain ⟨_, _, _, hjoin, htop, _⟩ := resetMeetsTheInvariants
  exact ⟨fun _ => s.path.warmReset_bounded, fun _ => ⟨Nat.zero_le _, Nat.zero_le _⟩, fun _ => s.strike.runReset_bounded,
    fun _ => hjoin, fun _ => htop⟩

theorem resetEnd_keepsBounds (sel : Fin 16) (a b : Bool) (s : State) : s.KeepsBounds (resetEnd sel a b s) := by
  have hsampled : s.KeepsBounds (s.sampled sel a b) := ⟨id, id, id, id, id⟩
  rw [resetEnd_eq]
  exact ((hsampled.trans (State.placeWrite_keepsBounds _ _)).trans (State.writePageOf_keepsBounds _ _)).trans
    (State.takeHeld_keepsBounds _)

/-! ### Every command -/

/-- Whatever a command does, every bound that held before it holds after it. -/
theorem exec_keepsBounds {c : Instr} {s t : State} (h : exec c s = .next t) : s.KeepsBounds t := by
  cases c <;> obtain rfl := Host.Outcome.next.inj h
  case powerOn => exact powerOn_keepsBounds s
  case warmReset => exact warmReset_keepsBounds s
  case resetEnd sel a b =>
    split
    · exact resetEnd_keepsBounds sel a b s
    · exact .refl s
  case encoderEdge a b => exact live_keepsBounds (encoderEdge_keepsBounds a b) s
  case tb32kPeriod => exact period_keepsBounds s
  case unitTick =>
    refine live_keepsBounds (fun s => ?_) s
    split
    · exact .refl s
    · exact takeUnitTick_keepsBounds s
  case stopTimerExpiry =>
    refine live_keepsBounds (fun s => ?_) s
    split
    · exact .refl s
    · split
      · exact takeUnitTick_keepsBounds s
      · exact .refl s
  case secondEnd =>
    split
    · exact period_keepsBounds s
    · exact .refl s
  case travelSecondTick =>
    refine live_keepsBounds (fun s => ?_) s
    split
    · exact .refl s
    · exact travelSecond_keepsBounds s
  case writerSecondTick =>
    refine live_keepsBounds (fun s => ?_) s
    split
    · exact .refl s
    · exact writerSecond_keepsBounds s
  case analysisCompletion =>
    refine live_keepsBounds (fun s => ?_) s
    split
    · exact completeAnalysis_keepsBounds ‹_› _
    · exact .refl s
  case tallyIncrement =>
    refine live_keepsBounds (fun s => ?_) s
    split <;> exact ⟨id, id, id, id, id⟩
  case fault =>
    refine live_keepsBounds (fun s => ?_) s
    split
    · exact .refl s
    · exact (takeFault_keepsBounds _ _).after ⟨id, id, id, id, id⟩
  case analysisBegin => exact live_keepsBounds analysisBegin_keepsBounds s
  case join => exact live_keepsBounds joinNext_keepsBounds s
  case gradingBegin => exact live_keepsBounds gradingBegin_keepsBounds s
  case commandTake => exact live_keepsBounds commandTake_keepsBounds s
  case configure => exact live_keepsBounds configure_keepsBounds s
  case commandCompletion => exact live_keepsBounds commandCompletion_keepsBounds s
  case mPortSend => exact live_keepsBounds mPortSend_keepsBounds s
  case memoryAnswer => exact live_keepsBounds memoryAnswer_keepsBounds s
  case laneLineTrigger k => exact receiveIf_keepsBounds (takeLineTrigger_keepsBounds k) s
  case gapLine k | settledLine k => exact receiveIf_keepsBounds (takeLaneMsg_keepsBounds k) s
  case scan | mark => exact receiveIf_keepsBounds takePlanReq_keepsBounds s
  case gather => exact receiveIf_keepsBounds takeGather_keepsBounds s
  case heldFlaw | scanAnswer | joinedLine | flushEnd =>
    exact takeAsmIf_keepsBounds _ s
  case plannerRise => exact receiveIf_keepsBounds takePlannerRise_keepsBounds s
  case strikeClaim => exact receiveIf_keepsBounds takeClaim_keepsBounds s
  case pieceRemoval | waitingLogMove => exact receiveIf_keepsBounds takePieceReq_keepsBounds s
  case runEndCompletion => exact receiveIf_keepsBounds (fun _ => takeRunEnd_keepsBounds) s
  case headOffer | claimWithdrawal => exact takeStrikeIf_keepsBounds _ s
  case strikeGrant =>
    exact receiveWith_keepsBounds takeStrikeMsg_keepsBounds staleGrant_keepsBounds s
  case strikeRise => exact receiveIf_keepsBounds takeStrikeRise_keepsBounds s
  case gradingHandoff =>
    exact receiveWith_keepsBounds takeHandoff_keepsBounds staleHandoff_keepsBounds s
  case gatherAnswer => exact receiveIf_keepsBounds takeGatherAnswer_keepsBounds s
  case gradeAnswer => exact receiveIf_keepsBounds takeGradeAnswer_keepsBounds s
  case stamp => exact receiveIf_keepsBounds takeStamp_keepsBounds s
  case plateOffer =>
    exact receiveIf_keepsBounds takePlateOffer_keepsBounds s fun _ _ _ h => plateOffers_taken_keepsBounds h
  case plateAccepted | plateFull | plateRoom =>
    exact takePlateIf_keepsBounds _ s
  case landingWrite k => exact receivePlainIf_keepsBounds (takeLanding_keepsBounds k) s
  case gradingIncrements => exact receivePlainIf_keepsBounds takeGradingIncrement_keepsBounds s
  case shiftReportOffer => exact receivePlainIf_keepsBounds takeShiftOffer_keepsBounds s
  case shiftAccepted | shiftFull | shiftRoom =>
    exact takeShiftIf_keepsBounds _ s
  case flawRecord => exact receivePlainIf_keepsBounds takeFlawRecord_keepsBounds s
  case releaseRequest => exact receivePlainIf_keepsBounds takeRelease_keepsBounds s
  case rewriteAnnouncement => exact receivePlainIf_keepsBounds takeAnnouncement_keepsBounds s
  case seenWordWrite => exact receivePlainIf_keepsBounds takeSeenWrite_keepsBounds s
  case verdictRequest => exact receivePlainIf_keepsBounds takeVerdictRequest_keepsBounds s
  case verdict => exact receivePlainIf_keepsBounds takeVerdict_keepsBounds s
  case startRun => exact onCommand_keepsBounds (fun _ => startRun_keepsBounds) s
  case stopRun => exact onCommand_keepsBounds (fun _ => stopRun_keepsBounds) s
  case resetRun => exact onCommand_keepsBounds (fun _ => resetRun_keepsBounds) s
  case setClock => exact onCommand_keepsBounds (fun _ _ => ⟨id, id, id, id, id⟩) s
  case closeShift => exact onCommand_keepsBounds (fun _ s => s.boundary_keepsBounds .manual) s
  case laneEnable | laneDisable => exact onCommand_keepsBounds (onLanes_keepsBounds _) s
  case manualCut => exact onCommand_keepsBounds manualCut_keepsBounds s
  case badCommand => exact onCommand_keepsBounds (fun _ => .refl) s
  case busRead q => exact readRequest_keepsBounds q s
  case busWrite q => exact writeRequest_keepsBounds q s
  case postWordWrite q | sequenceWordWrite q =>
    split
    · exact writeRequest_keepsBounds q s
    · exact .refl s
  case takeViewRead q | peekViewRead q =>
    split
    · exact readRequest_keepsBounds q s
    · exact .refl s

/-- With no command waiting the part idles; otherwise the command at the front is carried out. -/
theorem step_keepsBounds {s t : State} (h : step s = .next t) : s.KeepsBounds t := by
  unfold step at h
  split at h
  · obtain rfl := Host.Outcome.next.inj h
    exact .refl s
  · exact (exec_keepsBounds h).after ⟨id, id, id, id, id⟩

/-- Settles O5: a command adds an entry only where its block has found room, block by block. -/
theorem queuesStayBounded : Obligations.QueuesStayBounded :=
  ⟨fun _ _ hs h => (step_keepsBounds h).queues hs, fun _ _ hs h => (step_keepsBounds h).joinQueues hs,
    fun _ _ hs h => (step_keepsBounds h).topFlaws hs⟩

end Sys2Proof.Machine
end

section
/-! The runs of a line (R54 to R56): the walk over its columns gathers the flagged ones in groups, a run for each; with it
O30. -/

namespace Sys2Proof.Machine

/-! ### A run and the flagged columns it holds -/

/-- What run r measures of the flagged columns cols it holds (R55). -/
structure PixelRun.Measures (g : LaneGeometry) (k : LaneId) (line : Nat) (r : PixelRun) (cols : List ColumnResult) :
    Prop where
  lane : r.lane = k
  line : r.line = line
  first : (cols.head?.map (·.column)) = some r.first
  last : (cols.getLast?.map (·.column)) = some r.last
  peak : r.peak = (cols.map fun c => c.contrast.natAbs).foldl max 0
  sum : r.sum = min 16777215 (cols.map fun c => c.contrast.natAbs / 256).sum
  level : r.level.code = (cols.filterMap fun c => c.flag.map fun f => f.2.code).foldl max 0
  lo : r.lo = min (g.cross r.first) (g.cross r.last)
  hi : r.hi = max (g.cross r.first) (g.cross r.last) + g.pitch / 256 - 1

/-- How the flagged columns cols of run r belong together: of one polarity unless the run is CROWDED and MIXED, close unless
it is CROWDED, and of both polarities when it is MIXED (R54, R56). -/
structure PixelRun.Joins (d : DetectGroup) (r : PixelRun) (cols : List ColumnResult) : Prop where
  uniform : r.crowded = false ∨ r.polarity ≠ .mixed → ∀ c ∈ cols, c.flag.map (·.1) = some r.polarity
  close : r.crowded = false → cols.IsChain fun c e => e.column - c.column - 1 ≤ d.bridge
  mixed : (∀ c ∈ cols, ∀ f, c.flag = some f → f.1 ≠ .mixed) → r.polarity = .mixed →
    (∃ c ∈ cols, c.flag.map (·.1) = some .dark) ∧ ∃ c ∈ cols, c.flag.map (·.1) = some .bright

section
variable {d : DetectGroup} {g : LaneGeometry} {k : LaneId} {line : Nat} {c : ColumnResult} {p : Polarity} {v : Severity}
  {r : PixelRun} {cols : List ColumnResult}

theorem severity_code_max (v w : Severity) : (v.max w).code = max v.code w.code := by
  unfold Severity.max
  split <;> omega

theorem openRun_measures (hf : c.flag = some (p, v)) : (openRun g k line c p v).Measures g k line [c] where
  lane := rfl
  line := rfl
  first := rfl
  last := rfl
  peak := (Nat.zero_max _).symm
  sum := rfl
  level := by simp [openRun, hf]
  lo := rfl
  hi := rfl

theorem openRun_joins (hf : c.flag = some (p, v)) : (openRun g k line c p v).Joins d [c] where
  uniform _ := by simp [openRun, hf]
  close _ := List.isChain_singleton c
  mixed hpure hmixed := absurd hmixed (hpure c List.mem_cons_self _ hf)

/-- A column added at the end of a run is measured with the others (R55). -/
theorem PixelRun.Measures.extend (h : r.Measures g k line cols) (hf : c.flag = some (p, v)) :
    (r.extend g c v).Measures g k line (cols ++ [c]) where
  lane := h.lane
  line := h.line
  first := by
    obtain ⟨x, hx, hfirst⟩ := Option.map_eq_some_iff.mp h.first
    simp [List.head?_append, hx, hfirst, PixelRun.extend]
  last := by simp [PixelRun.extend]
  peak := by
    have hmax : (r.extend g c v).peak = max r.peak c.contrast.natAbs := rfl
    rw [hmax, h.peak, List.map_append, List.foldl_append]
    rfl
  sum := by
    have hsum : (r.extend g c v).sum = min 16777215 (r.sum + c.contrast.natAbs / 256) := rfl
    rw [hsum, h.sum, List.map_append, List.sum_append, List.map_singleton, List.sum_singleton]
    omega
  level := by
    have hlevel : (r.extend g c v).level = r.level.max v := rfl
    rw [hlevel, severity_code_max, h.level, List.filterMap_append, List.foldl_append]
    simp [hf]
  lo := rfl
  hi := rfl

/-- An absorbed column is measured as any other (R56). -/
theorem PixelRun.Measures.absorb (h : r.Measures g k line cols) (hf : c.flag = some (p, v)) :
    (r.absorb g c p v).Measures g k line (cols ++ [c]) :=
  have he := h.extend hf
  ⟨he.lane, he.line, he.first, he.last, he.peak, he.sum, he.level, he.lo, he.hi⟩

/-- A column of a run's polarity, at most G unflagged columns after it, joins it (R54). -/
theorem PixelRun.Joins.extend (h : r.Joins d cols) (hm : r.Measures g k line cols) (hf : c.flag = some (p, v))
    (hcrowd : r.crowded = false) (hp : r.polarity = p) (hgap : c.column - r.last - 1 ≤ d.bridge) :
    (r.extend g c v).Joins d (cols ++ [c]) := by
  have huniform : ∀ e ∈ cols ++ [c], e.flag.map (·.1) = some r.polarity := fun e he => by
    rcases List.mem_append.mp he with he | he
    · exact h.uniform (.inl hcrowd) e he
    · rw [List.mem_singleton.mp he, hf, hp]
      rfl
  refine ⟨fun _ => huniform, fun _ => ?_, fun hpure hmixed => ?_⟩
  · obtain ⟨x, hx, hlast⟩ := Option.map_eq_some_iff.mp hm.last
    refine List.isChain_append.mpr ⟨h.close hcrowd, List.isChain_singleton c, ?_⟩
    rintro y hy e ⟨⟩
    obtain rfl : x = y := Option.some.inj (hx.symm.trans hy)
    rwa [hlast]
  · exact absurd (hp.symm.trans hmixed) (hpure c (List.mem_append_right cols List.mem_cons_self) _ hf)

/-- A run that absorbs a column of the other polarity is MIXED from then on (R56). -/
theorem PixelRun.Joins.absorb (h : r.Joins d cols) (hm : r.Measures g k line cols) (hf : c.flag = some (p, v)) :
    (r.absorb g c p v).Joins d (cols ++ [c]) := by
  have hpolarity : (r.absorb g c p v).polarity = if r.polarity = p then p else .mixed := rfl
  have hc : c ∈ cols ++ [c] := List.mem_append_right cols List.mem_cons_self
  have hflag : c.flag.map (·.1) = some p := by rw [hf]; rfl
  by_cases hp : r.polarity = p
  · rw [if_pos hp] at hpolarity
    refine ⟨fun hone => ?_, fun hno => (nomatch hno), fun hpure hmixed => ?_⟩
    · have hone : p ≠ .mixed := hpolarity ▸ hone.resolve_left Bool.noConfusion
      rw [hpolarity]
      intro e he
      rcases List.mem_append.mp he with he | he
      · exact hp ▸ h.uniform (.inr (hp ▸ hone)) e he
      · rw [List.mem_singleton.mp he, hflag]
    · exact absurd (hpolarity.symm.trans hmixed) (hpure c hc _ hf)
  · rw [if_neg hp] at hpolarity
    refine ⟨fun hone => absurd hpolarity (hone.resolve_left Bool.noConfusion), fun hno => (nomatch hno), fun hpure _ => ?_⟩
    have hpmixed : p ≠ .mixed := hpure c hc _ hf
    by_cases hmixed : r.polarity = .mixed
    · obtain ⟨⟨x, hx, hdark⟩, y, hy, hbright⟩ :=
        h.mixed (fun e he => hpure e (List.mem_append_left _ he)) hmixed
      exact ⟨⟨x, List.mem_append_left _ hx, hdark⟩, y, List.mem_append_left _ hy, hbright⟩
    · obtain ⟨x, hx, _⟩ := Option.map_eq_some_iff.mp hm.first
      have hx := List.mem_of_mem_head? hx
      have hold := h.uniform (.inr hmixed) x hx
      have hx := List.mem_append_left [c] hx
      cases hr : r.polarity with
      | mixed => exact absurd hr hmixed
      | dark =>
        rw [hr] at hp hold
        cases p with
        | dark => exact absurd rfl hp
        | mixed => exact absurd rfl hpmixed
        | bright => exact ⟨⟨x, hx, hold⟩, c, hc, hflag⟩
      | bright =>
        rw [hr] at hp hold
        cases p with
        | bright => exact absurd rfl hp
        | mixed => exact absurd rfl hpmixed
        | dark => exact ⟨⟨c, hc, hflag⟩, x, hx, hold⟩

end

/-! ### The walk -/

/-- Runs and the groups of flagged columns they hold, newest first: at most 64, each apart from the one before it, and only
the 64th CROWDED (R54, R56). -/
inductive Walked (d : DetectGroup) (g : LaneGeometry) (k : LaneId) (line : Nat) :
    List PixelRun → List (List ColumnResult) → Prop
  | nil : Walked d g k line [] []
  | cons {q : PixelRun} {cols : List ColumnResult} {rest : List PixelRun} {groups : List (List ColumnResult)}
      (measures : q.Measures g k line cols) (joins : q.Joins d cols)
      (apart : ∀ r ∈ rest.head?, r.polarity ≠ q.polarity ∨ d.bridge < q.first - r.last - 1 ∨ q.crowded = true)
      (room : rest.length < 64) (full : q.crowded = true → rest.length = 63) (older : ∀ r ∈ rest, r.crowded = false)
      (walked : Walked d g k line rest groups) : Walked d g k line (q :: rest) (cols :: groups)

section
variable {d : DetectGroup} {g : LaneGeometry} {k : LaneId} {line : Nat} {runs : List PixelRun}
  {groups : List (List ColumnResult)}

/-- The column walked next joins the newest run's group or begins one of its own (R54, R56). -/
theorem Walked.column (h : Walked d g k line runs groups) {c : ColumnResult} {p : Polarity} {v : Severity}
    (hf : c.flag = some (p, v)) :
    ∃ groups', Walked d g k line (walkColumn d g k line runs c) groups' ∧
      groups'.reverse.flatten = groups.reverse.flatten ++ [c] := by
  cases h with
  | nil =>
    refine ⟨[[c]], ?_, by simp⟩
    simp only [walkColumn, hf]
    exact .cons (openRun_measures hf) (openRun_joins hf) (fun _ hr => nomatch hr) (Nat.zero_lt_succ 63)
      (fun hcrowd => nomatch hcrowd) (fun _ hr => nomatch hr) .nil
  | @cons q cols rest groups hm hj hapart hroom hfull holder hrest =>
    have hflat : ((cols ++ [c]) :: groups).reverse.flatten = (cols :: groups).reverse.flatten ++ [c] := by simp
    simp only [walkColumn, hf]
    split_ifs with hcrowd hnear hlimit
    · exact ⟨_, .cons (hm.absorb hf) (hj.absorb hm hf) (fun _ _ => .inr (.inr rfl)) hroom (fun _ => hfull hcrowd) holder
        hrest, hflat⟩
    · have hcrowd : q.crowded = false := Bool.eq_false_iff.mpr hcrowd
      exact ⟨_, .cons (hm.extend hf) (hj.extend hm hf hcrowd hnear.1 hnear.2) hapart hroom hfull holder hrest, hflat⟩
    · have hlimit : 64 ≤ rest.length + 1 := hlimit
      exact ⟨_, .cons (hm.absorb hf) (hj.absorb hm hf) (fun _ _ => .inr (.inr rfl)) hroom (fun _ => by omega) holder
        hrest, hflat⟩
    · have hlimit : ¬ 64 ≤ rest.length + 1 := hlimit
      have hcrowd : q.crowded = false := Bool.eq_false_iff.mpr hcrowd
      refine ⟨[c] :: cols :: groups, .cons (openRun_measures hf) (openRun_joins hf) ?_ ?_ (fun hno => nomatch hno) ?_
        (.cons hm hj hapart hroom hfull holder hrest), by simp⟩
      · rintro r ⟨⟩
        exact (not_and_or.mp hnear).imp_right fun hgap => .inl (Nat.lt_of_not_le hgap)
      · rw [List.length_cons]
        omega
      · exact List.forall_mem_cons.mpr ⟨hcrowd, holder⟩

/-- The walk over a line gathers its flagged columns, in order, in the groups of its runs (R54). -/
theorem walked_foldl (d : DetectGroup) (g : LaneGeometry) (k : LaneId) (line : Nat) (cs : List ColumnResult) :
    ∃ groups, Walked d g k line (cs.foldl (walkColumn d g k line) []) groups ∧
      groups.reverse.flatten = cs.filter fun c => c.flag.isSome := by
  induction cs using List.reverseRecOn with
  | nil => exact ⟨[], .nil, rfl⟩
  | append_singleton cs c ih =>
    obtain ⟨groups, hwalked, hflat⟩ := ih
    rw [List.foldl_append, List.filter_append]
    cases hf : c.flag with
    | none =>
      refine ⟨groups, ?_, by simp [hflat, hf]⟩
      simpa [walkColumn, hf] using hwalked
    | some f =>
      obtain ⟨groups', hwalked', hflat'⟩ := hwalked.column hf
      exact ⟨groups', hwalked', by rw [hflat', hflat]; simp [hf]⟩

theorem Walked.length_le (h : Walked d g k line runs groups) : runs.length ≤ 64 := by
  cases h with
  | nil => exact Nat.zero_le 64
  | cons _ _ _ hroom => exact hroom

/-- Each group is held by a run. -/
theorem Walked.held (h : Walked d g k line runs groups) {cols : List ColumnResult} (hc : cols ∈ groups) :
    ∃ r ∈ runs, r.Measures g k line cols := by
  induction h with
  | nil => exact nomatch hc
  | cons hm _ _ _ _ _ _ ih =>
    rcases List.mem_cons.mp hc with rfl | hc
    · exact ⟨_, List.mem_cons_self, hm⟩
    · obtain ⟨r, hr, hr'⟩ := ih hc
      exact ⟨r, List.mem_cons_of_mem _ hr, hr'⟩

/-- Each run holds one group; a CROWDED run is the newest of 64 (R56). -/
theorem Walked.run (h : Walked d g k line runs groups) {i : Nat} {r : PixelRun} (hr : runs[i]? = some r) :
    ∃ newer cols older, groups = newer ++ cols :: older ∧ r.Measures g k line cols ∧ r.Joins d cols ∧
      (r.crowded = true → i = 0 ∧ runs.length = 64) := by
  induction h generalizing i with
  | nil => exact nomatch hr
  | @cons q cols rest groups hm hj _ _ hfull holder _ ih =>
    cases i with
    | zero =>
      obtain rfl := Option.some.inj hr
      exact ⟨[], cols, groups, rfl, hm, hj, fun hcrowd => ⟨rfl, congrArg (· + 1) (hfull hcrowd)⟩⟩
    | succ i =>
      have hr : rest[i]? = some r := hr
      obtain ⟨newer, cols', older, rfl, hm', hj', _⟩ := ih hr
      have hcrowd : r.crowded = false := holder r (List.mem_of_getElem? hr)
      exact ⟨cols :: newer, cols', older, rfl, hm', hj', fun h => absurd (hcrowd.symm.trans h) Bool.false_ne_true⟩

/-- A run and the one begun after it hold groups that follow one another, apart by polarity or by more than G columns unless
the later is CROWDED (R54, R56). -/
theorem Walked.neighbours (h : Walked d g k line runs groups) {i : Nat} {q r : PixelRun} (hq : runs[i]? = some q)
    (hr : runs[i + 1]? = some r) :
    ∃ newer later earlier older, groups = newer ++ later :: earlier :: older ∧ q.Measures g k line later ∧
      r.Measures g k line earlier ∧
      (r.polarity ≠ q.polarity ∨ d.bridge < q.first - r.last - 1 ∨ q.crowded = true) := by
  induction h generalizing i with
  | nil => exact nomatch hq
  | @cons q' cols rest groups hm _ hapart _ _ _ hrest ih =>
    cases i with
    | zero =>
      obtain rfl := Option.some.inj hq
      cases hrest with
      | nil => exact nomatch hr
      | @cons r' earlier _ older hm' =>
        obtain rfl := Option.some.inj hr
        exact ⟨[], cols, earlier, older, rfl, hm, hm', hapart _ rfl⟩
    | succ i =>
      obtain ⟨newer, later, earlier, older, rfl, hmq, hmr, hsep⟩ := ih hq hr
      exact ⟨cols :: newer, later, earlier, older, rfl, hmq, hmr, hsep⟩

end

/-! ### Columns in order -/

/-- In a row of columns in increasing order every column lies between the first and the last. -/
theorem between_of_pairwise {cols : List ColumnResult} (hsort : cols.Pairwise fun c e => c.column < e.column) {a b : Nat}
    (hfirst : (cols.head?.map (·.column)) = some a) (hlast : (cols.getLast?.map (·.column)) = some b) :
    ∀ c ∈ cols, a ≤ c.column ∧ c.column ≤ b := by
  intro c hc
  constructor
  · obtain ⟨x, hx, rfl⟩ := Option.map_eq_some_iff.mp hfirst
    obtain ⟨tail, rfl⟩ := List.head?_eq_some_iff.mp hx
    rcases List.mem_cons.mp hc with rfl | hc
    · exact Nat.le_refl _
    · exact Nat.le_of_lt ((List.pairwise_cons.mp hsort).1 c hc)
  · obtain ⟨x, hx, rfl⟩ := Option.map_eq_some_iff.mp hlast
    obtain ⟨init, rfl⟩ := List.getLast?_eq_some_iff.mp hx
    rcases List.mem_append.mp hc with hc | hc
    · exact Nat.le_of_lt ((List.pairwise_append.mp hsort).2.2 c hc x List.mem_cons_self)
    · rw [List.mem_singleton.mp hc]

/-- A column from a to b. -/
def ColumnResult.within (a b : Nat) (c : ColumnResult) : Bool := decide (a ≤ c.column) && decide (c.column ≤ b)

theorem ColumnResult.within_iff (a b : Nat) (c : ColumnResult) : c.within a b = true ↔ a ≤ c.column ∧ c.column ≤ b := by
  simp [ColumnResult.within]

/-- The columns between the ends of a part of a row in increasing order are that part. -/
theorem filter_between {before cols after : List ColumnResult}
    (hsort : (before ++ cols ++ after).Pairwise fun c e => c.column < e.column) {a b : Nat}
    (hfirst : (cols.head?.map (·.column)) = some a) (hlast : (cols.getLast?.map (·.column)) = some b) :
    (before ++ cols ++ after).filter (ColumnResult.within a b) = cols := by
  obtain ⟨hleft, _, hafter⟩ := List.pairwise_append.mp hsort
  obtain ⟨_, hcols, hbefore⟩ := List.pairwise_append.mp hleft
  have hin := between_of_pairwise hcols hfirst hlast
  obtain ⟨x, hx, rfl⟩ := Option.map_eq_some_iff.mp hfirst
  obtain ⟨y, hy, rfl⟩ := Option.map_eq_some_iff.mp hlast
  have hbelow : ∀ c ∈ before, c.column < x.column := fun c hc => hbefore c hc x (List.mem_of_mem_head? hx)
  have habove : ∀ c ∈ after, y.column < c.column := fun c hc =>
    hafter y (List.mem_append_right before (List.mem_of_getLast? hy)) c hc
  have hnone : before.filter (ColumnResult.within x.column y.column) = [] := List.filter_eq_nil_iff.mpr fun c hc => by
    have := hbelow c hc
    rw [ColumnResult.within_iff]
    omega
  have hall : cols.filter (ColumnResult.within x.column y.column) = cols :=
    List.filter_eq_self.mpr fun c hc => (c.within_iff _ _).mpr (hin c hc)
  have hrest : after.filter (ColumnResult.within x.column y.column) = [] := List.filter_eq_nil_iff.mpr fun c hc => by
    have := habove c hc
    rw [ColumnResult.within_iff]
    omega
  rw [List.filter_append, List.filter_append, hnone, hall, hrest, List.nil_append, List.append_nil]

/-! ### The runs of a line -/

/-- A run of a line stands in the walk at its place from the newest. -/
theorem lineRuns_getElem? {d : DetectGroup} {g : LaneGeometry} {k : LaneId} {line : Nat} {cs : List ColumnResult} {i : Nat}
    {r : PixelRun} (h : (lineRuns d g k line cs)[i]? = some r) :
    i < (lineRuns d g k line cs).length ∧
      (cs.foldl (walkColumn d g k line) [])[(lineRuns d g k line cs).length - 1 - i]? = some r := by
  have hi : i < (lineRuns d g k line cs).length := (List.getElem?_eq_some_iff.mp h).1
  have hlen : (lineRuns d g k line cs).length = (cs.foldl (walkColumn d g k line) []).length := List.length_reverse
  refine ⟨hi, ?_⟩
  rw [hlen] at hi ⊢
  rw [← List.getElem?_reverse hi]
  exact h

theorem lineRuns_length_le (d : DetectGroup) (g : LaneGeometry) (k : LaneId) (line : Nat) (cs : List ColumnResult) :
    (lineRuns d g k line cs).length ≤ 64 := by
  obtain ⟨groups, hwalked, _⟩ := walked_foldl d g k line cs
  rw [lineRuns, List.length_reverse]
  exact hwalked.length_le

section
variable {d : DetectGroup} {g : LaneGeometry} {k : LaneId} {line : Nat} {cs : List ColumnResult}

/-- Every flagged column lies in a run (R54, R56). -/
theorem lineRuns_cover (hsort : cs.Pairwise fun c e => c.column < e.column) {c : ColumnResult} (hc : c ∈ cs)
    (hf : c.flag ≠ none) : ∃ r ∈ lineRuns d g k line cs, r.first ≤ c.column ∧ c.column ≤ r.last := by
  obtain ⟨groups, hwalked, hflat⟩ := walked_foldl d g k line cs
  have hflagged : c ∈ groups.reverse.flatten := hflat ▸ List.mem_filter.mpr ⟨hc, Option.isSome_iff_ne_none.mpr hf⟩
  obtain ⟨cols, hcols, hmem⟩ := List.mem_flatten.mp hflagged
  obtain ⟨r, hr, hm⟩ := hwalked.held (List.mem_reverse.mp hcols)
  have hsorted : cols.Pairwise fun c e => c.column < e.column :=
    (hsort.sublist (hflat ▸ List.filter_sublist)).sublist (List.sublist_flatten_of_mem hcols)
  exact ⟨r, List.mem_reverse.mpr hr, between_of_pairwise hsorted hm.first hm.last c hmem⟩

/-- A run holds the flagged columns between its ends (R54 to R56). -/
theorem lineRuns_run (hsort : cs.Pairwise fun c e => c.column < e.column) {i : Nat} {r : PixelRun}
    (hr : (lineRuns d g k line cs)[i]? = some r) :
    let inside := (cs.filter fun c => c.flag.isSome).filter (ColumnResult.within r.first r.last)
    r.Measures g k line inside ∧ r.Joins d inside ∧
      (r.crowded = true → i = 63 ∧ (lineRuns d g k line cs).length = 64) := by
  intro inside
  obtain ⟨groups, hwalked, hflat⟩ := walked_foldl d g k line cs
  obtain ⟨hi, hat⟩ := lineRuns_getElem? hr
  obtain ⟨newer, cols, older, rfl, hm, hj, hcrowd⟩ := hwalked.run hat
  have hparts : (newer ++ cols :: older).reverse.flatten = older.reverse.flatten ++ cols ++ newer.reverse.flatten := by simp
  have hinside : inside = cols := by
    have hsorted := hsort.sublist (List.filter_sublist (p := fun c : ColumnResult => c.flag.isSome))
    rw [← hflat, hparts] at hsorted
    have hfilter := filter_between hsorted hm.first hm.last
    rwa [← hparts, hflat] at hfilter
  rw [hinside]
  refine ⟨hm, hj, fun h => ?_⟩
  obtain ⟨hnewest, hfull⟩ := hcrowd h
  have hlen : (lineRuns d g k line cs).length = 64 := List.length_reverse.trans hfull
  omega

/-- A run stands before the next one, and apart from it (R54). -/
theorem lineRuns_apart (hsort : cs.Pairwise fun c e => c.column < e.column) {i : Nat} {r q : PixelRun}
    (hr : (lineRuns d g k line cs)[i]? = some r) (hq : (lineRuns d g k line cs)[i + 1]? = some q) :
    r.last < q.first ∧ (r.polarity ≠ q.polarity ∨ d.bridge < q.first - r.last - 1 ∨ q.crowded = true) := by
  obtain ⟨groups, hwalked, hflat⟩ := walked_foldl d g k line cs
  obtain ⟨hi, hq⟩ := lineRuns_getElem? hq
  obtain ⟨_, hr⟩ := lineRuns_getElem? hr
  have hplace : (lineRuns d g k line cs).length - 1 - i = (lineRuns d g k line cs).length - 1 - (i + 1) + 1 := by omega
  rw [hplace] at hr
  obtain ⟨newer, later, earlier, older, rfl, hmq, hmr, hsep⟩ := hwalked.neighbours hq hr
  refine ⟨?_, hsep⟩
  have hparts : (newer ++ later :: earlier :: older).reverse.flatten =
      (older.reverse.flatten ++ earlier) ++ (later ++ newer.reverse.flatten) := by simp
  have hsorted := hsort.sublist (List.filter_sublist (p := fun c : ColumnResult => c.flag.isSome))
  rw [← hflat, hparts] at hsorted
  obtain ⟨x, hx, hlast⟩ := Option.map_eq_some_iff.mp hmr.last
  obtain ⟨y, hy, hfirst⟩ := Option.map_eq_some_iff.mp hmq.first
  rw [← hlast, ← hfirst]
  exact (List.pairwise_append.mp hsorted).2.2 x (List.mem_append_right _ (List.mem_of_getLast? hx)) y
    (List.mem_append_left _ (List.mem_of_mem_head? hy))

end

/-- Settles O30: by induction over the columns, the runs hold the flagged columns in groups that follow one another. -/
theorem runsCoverFlaggedColumns : Obligations.RunsCoverFlaggedColumns := by
  refine ⟨fun d g k line cs => ⟨lineRuns_length_le d g k line cs, fun hsort c hc hf => lineRuns_cover hsort hc hf⟩,
    fun d g k line cs hsort hpure => ?_⟩
  intro runs flagged
  refine ⟨fun i r hr => ?_, fun i r q hr hq => lineRuns_apart hsort hr hq⟩
  intro inside
  obtain ⟨hm, hj, hcrowd⟩ := lineRuns_run hsort hr
  have hpure' : ∀ c ∈ inside, ∀ f, c.flag = some f → f.1 ≠ .mixed := fun c hc =>
    hpure c (List.mem_of_mem_filter (List.mem_of_mem_filter hc))
  refine ⟨hm.lane, hm.line, hm.first, hm.last, hm.peak, hm.sum, hm.level, hm.lo, hm.hi, fun hplain => ?_, fun hfull => ?_⟩
  · refine ⟨hj.uniform (.inl hplain), fun n c e hc he => ?_⟩
    obtain ⟨_, rfl⟩ := List.getElem?_eq_some_iff.mp hc
    obtain ⟨hn, rfl⟩ := List.getElem?_eq_some_iff.mp he
    exact List.isChain_iff_getElem.mp (hj.close hplain) n hn
  · obtain ⟨hlast, hlen⟩ := hcrowd hfull
    refine ⟨hlast, hlen, ?_, hj.mixed hpure'⟩
    rintro p rfl hp
    exact hj.uniform (.inr hp)

end Sys2Proof.Machine
end

section
/-! What R71 makes of a closure, whichever it is; with it O33. -/

namespace Sys2Proof.Machine

/-- The Planner is told of a flaw at its closure, when it is held. -/
theorem AsmStep.close_planner {c : JoinContext} {r : AsmStep} {b : Blob} {m : AsmMsg} (hm : m ∈ (r.close c b).planner)
    (hr : m ∉ r.planner) : m = .heldFlaw (r.asm.flawOf c b).entry := by
  rw [AsmStep.close_eq] at hm
  have hnew := (List.mem_append.mp hm).resolve_left hr
  split at hnew
  · exact List.mem_singleton.mp hnew
  · exact absurd hnew List.not_mem_nil

/-- Settles O33: every closure makes the flaw of `Assembler.flawOf`, whose class is R71's. -/
theorem flawClassByLengthAndWidth : Obligations.FlawClassByLengthAndWidth := by
  intro c r b length width cls
  refine ⟨r.asm.flawOf c b, by rw [AsmStep.close_eq], rfl, fun f hf hold => ?_⟩
  obtain rfl : f = (r.asm.flawOf c b).entry := AsmMsg.heldFlaw.inj (AsmStep.close_planner hf hold)
  rfl

end Sys2Proof.Machine
end

section
/-! GATHER and the gap overlap (R75, R76); with it O35. -/

namespace Sys2Proof.Machine

/-! ### The gap overlap -/

/-- Whether a micrometre lies in the along span of a gap entry (R75). -/
def GapEntry.spans (pitch : Nat) (e : GapEntry) (x : Nat) : Bool :=
  decide (e.first * pitch ≤ x) && decide (x < (e.last + 1) * pitch)

theorem filter_range'_le (lo : Nat) : ∀ n a : Nat,
    ((List.range' a n).filter fun x => decide (lo ≤ x)).length = a + n - max a lo := by
  intro n
  induction n with
  | zero => intro a; simp
  | succ n ih =>
    intro a
    rw [List.range'_succ, List.filter_cons]
    split <;> rename_i h <;> simp only [decide_eq_true_eq] at h
    · rw [List.length_cons, ih]; omega
    · rw [ih]; omega

theorem filter_range'_congr {p q : Nat → Bool} {a n : Nat} (h : ∀ x, a ≤ x → x < a + n → p x = q x) :
    (List.range' a n).filter p = (List.range' a n).filter q :=
  List.filter_congr fun x hx => by
    obtain ⟨hlo, hhi⟩ := List.mem_range'_1.mp hx
    exact h x hlo hhi

/-- The fold measures, from the µm reached on, each µm that some entry spans once: below the end of the first entry only its
own span counts, since the later entries begin no earlier, and past that end it spans nothing. -/
theorem foldl_addGap (pitch tail : Nat) : ∀ {gaps : List GapEntry}, gaps.Pairwise (fun e f => e.first ≤ f.first) →
    ∀ reached n : Nat, (gaps.foldl (addGap pitch tail) (reached, n)).2 =
      n + ((List.range' reached (tail - reached)).filter fun x => gaps.any fun e => e.spans pitch x).length
  | [], _, reached, n => by simp
  | e :: rest, hsorted, reached, n => by
    obtain ⟨hfirst, hrest⟩ := List.pairwise_cons.mp hsorted
    let stop := min tail ((e.last + 1) * pitch)
    have hsplit : List.range' reached (tail - reached) =
        List.range' reached (stop - reached) ++ List.range' (max reached stop) (tail - max reached stop) := by
      have hmax : max reached stop = reached + (stop - reached) := by omega
      rw [hmax, List.range'_append_1]
      congr 1
      omega
    have hnear : (List.range' reached (stop - reached)).filter (fun x => (e :: rest).any fun e => e.spans pitch x) =
        (List.range' reached (stop - reached)).filter fun x => decide (e.first * pitch ≤ x) := by
      refine filter_range'_congr fun x hlo hhi => ?_
      by_cases hx : e.first * pitch ≤ x
      · have hspan : e.spans pitch x = true := by simp [GapEntry.spans, hx]; omega
        simp [hspan, hx]
      · have hnone : ∀ f ∈ e :: rest, f.spans pitch x = false := fun f hf => by
          have hle : e.first ≤ f.first := by
            rcases List.mem_cons.mp hf with rfl | hf
            · exact Nat.le_refl _
            · exact hfirst f hf
          have hmul := Nat.mul_le_mul_right pitch hle
          have : ¬ f.first * pitch ≤ x := by omega
          simp [GapEntry.spans, this]
        rw [decide_eq_false hx]
        exact List.any_eq_false.mpr fun f hf => by simp [hnone f hf]
    have hfar : (List.range' (max reached stop) (tail - max reached stop)).filter
          (fun x => (e :: rest).any fun e => e.spans pitch x) =
        (List.range' (max reached stop) (tail - max reached stop)).filter fun x => rest.any fun e => e.spans pitch x := by
      refine filter_range'_congr fun x hlo hhi => ?_
      have hpast : e.spans pitch x = false := by
        have : ¬ x < (e.last + 1) * pitch := by omega
        simp [GapEntry.spans, this]
      simp [hpast]
    have hstep := foldl_addGap pitch tail hrest (max reached stop) (n + (stop - max reached (e.first * pitch)))
    rw [hsplit, List.filter_append, hnear, hfar, List.length_append, filter_range'_le]
    refine hstep.trans ?_
    omega

/-! ### The gather -/

theorem overflowAfter_eq (g : GatherReq) (o : Option OverflowSpan) :
    overflowAfter g o = o.filter fun o => decide (g.tail ≤ o.hi) := by
  cases o with
  | none => rfl
  | some v => by_cases h : v.hi < g.tail <;> simp [overflowAfter, h, Option.filter]

theorem overflowMeets_eq (g : GatherReq) (o : Option OverflowSpan) :
    overflowMeets g o = o.any fun o => decide (o.lo < g.tail) && decide (g.head.getD 0 ≤ o.hi) := by
  cases o <;> rfl

/-- Settles O35: the gather by its definition, the gap overlap by `foldl_addGap`. -/
theorem gatherTakesThePiece : Obligations.GatherTakesThePiece := by
  constructor
  · intro g rest s sh hr hw hsh inPiece
    refine congrArg Host.Outcome.next ((receive_taken hr hw).trans ?_)
    simp only [takeGather, hsh, overflowMeets_eq, overflowAfter_eq]
    rfl
  · exact fun pitch gaps hsorted => ⟨fun _ => rfl, fun head tail =>
      (foldl_addGap pitch tail hsorted head 0).trans (Nat.zero_add _)⟩

end Sys2Proof.Machine
end

section
/-! The gap list and the other messages that the assembler takes (R61, R74, R77); with it O31. -/

namespace Sys2Proof.Machine

/-! ### Lists in the order of a rank test -/

/-- An item goes in between those it does not come before and the first one that it comes before. -/
theorem insertBy_split {α : Type} (before : α → α → Bool) (a : α) (l : List α) :
    ∃ front back, l = front ++ back ∧ insertBy before a l = front ++ a :: back ∧ (∀ f ∈ front, ¬ before a f = true) ∧
      ∀ f, back.head? = some f → before a f = true := by
  induction l with
  | nil => exact ⟨[], [], rfl, rfl, by simp, by simp⟩
  | cons b rest ih =>
    unfold insertBy
    split
    · rename_i h
      exact ⟨[], b :: rest, rfl, rfl, by simp, by simpa using h⟩
    · rename_i h
      obtain ⟨front, back, hl, hins, hfront, hback⟩ := ih
      exact ⟨b :: front, back, congrArg (b :: ·) hl, congrArg (b :: ·) hins, List.forall_mem_cons.mpr ⟨h, hfront⟩, hback⟩

theorem takeFirst_append {α : Type} {p : α → Bool} {a : α} {later : List α} (ha : p a = true) : ∀ {earlier : List α},
    (∀ b ∈ earlier, p b = false) → takeFirst p (earlier ++ a :: later) = some (a, earlier ++ later)
  | [], _ => if_pos ha
  | b :: rest, h => by
    obtain ⟨hb, hrest⟩ := List.forall_mem_cons.mp h
    simp [takeFirst, hb, takeFirst_append ha hrest]

theorem takeFirst_sublist {α : Type} {p : α → Bool} {a : α} : ∀ {l rest : List α}, takeFirst p l = some (a, rest) →
    rest.Sublist l
  | [], _, h => nomatch h
  | b :: l, rest, h => by
    unfold takeFirst at h
    split at h
    · obtain ⟨_, rfl⟩ := Prod.mk.inj (Option.some.inj h)
      exact List.sublist_cons_self _ _
    · split at h
      · exact nomatch h
      · rename_i hl
        obtain ⟨_, rfl⟩ := Prod.mk.inj (Option.some.inj h)
        exact (takeFirst_sublist hl).cons_cons b

/-! ### The order of the gap list -/

/-- The place of a lane in the order of the gap list, ALL after lane 7 (R77). -/
def gapPlace : Option LaneId → Nat
  | none => 8
  | some j => j.val

/-- Whether an entry stands after another in the order of the gap list (R77). -/
def GapEntry.after (e f : GapEntry) : Prop := f.first < e.first ∨ (f.first = e.first ∧ gapPlace f.lane < gapPlace e.lane)

/-- A gap list in order (R77). -/
def GapsInOrder (gaps : List GapEntry) : Prop := gaps.Pairwise fun e f => ¬ e.after f

theorem GapEntry.before_iff (e f : GapEntry) : e.before f = true ↔ f.after e := by
  obtain ⟨le, _, _, _, _⟩ := e
  obtain ⟨lf, _, _, _, _⟩ := f
  cases le <;> cases lf <;> simp [GapEntry.before, GapEntry.after, gapPlace]

theorem GapsInOrder.insertBy {gaps : List GapEntry} (h : GapsInOrder gaps) (e : GapEntry) :
    GapsInOrder (insertBy GapEntry.before e gaps) := by
  refine insertBy_pairwise (fun a b c => ?_) (fun a b hab => ?_) (fun a b hab => ?_) e h
  · unfold GapEntry.after; omega
  · rw [GapEntry.before_iff] at hab
    unfold GapEntry.after at *; omega
  · rwa [GapEntry.before_iff] at hab

/-- A change of the entries that leaves their first lines and lanes leaves their order. -/
theorem GapsInOrder.map {gaps : List GapEntry} (h : GapsInOrder gaps) {f : GapEntry → GapEntry}
    (hf : ∀ e, (f e).first = e.first ∧ (f e).lane = e.lane) : GapsInOrder (gaps.map f) := by
  refine List.pairwise_map.mpr (h.imp fun {a b} hab => ?_)
  unfold GapEntry.after at *
  rwa [(hf a).1, (hf a).2, (hf b).1, (hf b).2]

/-! ### A gap line, step by step -/

/-- A line lies within an entry of ALL (R77). -/
def GapsCover (gaps : List GapEntry) (x : Nat) : Prop := ∃ e ∈ gaps, e.lane = none ∧ e.first ≤ x ∧ x ≤ e.last

/-- A lane's newest entry ends just before a line (R77). -/
def GapsReach (gaps : List GapEntry) (k : LaneId) (x : Nat) : Prop :=
  ∃ e ∈ gaps, e.lane = some k ∧ e.laneNewest = true ∧ e.last + 1 = x

section
variable {a : Assembler} {pitch x : Nat} {k : LaneId}

theorem Assembler.graded_iff : a.graded pitch x = true ↔ ∃ g, a.gradedTail = some g ∧ (x + 1) * pitch ≤ g := by
  unfold Assembler.graded
  cases a.gradedTail <;> simp

theorem covers_iff : (a.gaps.any fun e => decide (e.lane = none) && decide (e.first ≤ x) && decide (x ≤ e.last)) = true ↔
    GapsCover a.gaps x := by
  simp [GapsCover, and_assoc]

theorem reaches_iff : (a.gaps.any fun e => decide (e.lane = some k) && e.laneNewest && decide (e.last + 1 = x)) = true ↔
    GapsReach a.gaps k x := by
  simp [GapsReach, and_assoc]

theorem Assembler.gapLine_graded (hg : a.graded pitch x = true) : a.gapLine pitch k x = a := if_pos hg

/-- The steps of R77 for a line of glass that is not graded. -/
theorem Assembler.gapLine_ungraded (hg : ¬ a.graded pitch x = true) :
    (GapsCover a.gaps x → a.gapLine pitch k x = a) ∧
    (¬ GapsCover a.gaps x → GapsReach a.gaps k x → a.gapLine pitch k x = { a with gaps := a.gaps.map (extendGap k x) }) ∧
    (¬ GapsCover a.gaps x → ¬ GapsReach a.gaps k x → a.gaps.length < 64 →
      a.gapLine pitch k x = { a with gaps := insertGap k x a.gaps }) ∧
    (¬ GapsCover a.gaps x → ¬ GapsReach a.gaps k x → 64 ≤ a.gaps.length →
      a.gapLine pitch k x = { a with gaps := mergeGap x a.gaps }) := by
  unfold Assembler.gapLine
  rw [if_neg hg]
  refine ⟨fun hc => if_pos (covers_iff.mpr hc), fun hc hr => ?_, fun hc hr hlen => ?_, fun hc hr hlen => ?_⟩
  · rw [if_neg (mt covers_iff.mp hc), if_pos (reaches_iff.mpr hr)]
  · rw [if_neg (mt covers_iff.mp hc), if_neg (mt reaches_iff.mp hr)]
    exact if_pos hlen
  · rw [if_neg (mt covers_iff.mp hc), if_neg (mt reaches_iff.mp hr)]
    exact if_neg (Nat.not_lt.mpr hlen)

/-- Everything a gap line can do to the gap list (R77). -/
theorem Assembler.gapLine_cases (a : Assembler) (pitch x : Nat) (k : LaneId) :
    (a.gapLine pitch k x = a ∧ (a.graded pitch x = true ∨ GapsCover a.gaps x)) ∨
    (a.gapLine pitch k x = { a with gaps := a.gaps.map (extendGap k x) } ∧ GapsReach a.gaps k x) ∨
    a.gapLine pitch k x = { a with gaps := insertGap k x a.gaps } ∨
    (a.gapLine pitch k x = { a with gaps := mergeGap x a.gaps } ∧ 64 ≤ a.gaps.length) := by
  by_cases hg : a.graded pitch x = true
  · exact .inl ⟨Assembler.gapLine_graded hg, .inl hg⟩
  · obtain ⟨hcovered, hreached, hnew, hmerged⟩ := Assembler.gapLine_ungraded (k := k) hg
    by_cases hc : GapsCover a.gaps x
    · exact .inl ⟨hcovered hc, .inr hc⟩
    · by_cases hr : GapsReach a.gaps k x
      · exact .inr (.inl ⟨hreached hc hr, hr⟩)
      · rcases Nat.lt_or_ge a.gaps.length 64 with hlen | hlen
        · exact .inr (.inr (.inl (hnew hc hr hlen)))
        · exact .inr (.inr (.inr ⟨hmerged hc hr hlen, hlen⟩))

theorem Assembler.gapLine_frame (a : Assembler) (pitch x : Nat) (k : LaneId) :
    a.gapLine pitch k x = { a with gaps := (a.gapLine pitch k x).gaps } := by
  rcases a.gapLine_cases pitch x k with ⟨h, _⟩ | ⟨h, _⟩ | h | ⟨h, _⟩ <;> rw [h]

/-! ### The order of the list is kept -/

theorem extendGap_key (k : LaneId) (x : Nat) (e : GapEntry) :
    (extendGap k x e).first = e.first ∧ (extendGap k x e).lane = e.lane := by
  unfold extendGap
  split <;> exact ⟨rfl, rfl⟩

theorem GapsInOrder.mergeGap {gaps : List GapEntry} (h : GapsInOrder gaps) (x : Nat) : GapsInOrder (mergeGap x gaps) := by
  unfold Machine.mergeGap
  split
  · exact h
  · rename_i hfirst
    exact GapsInOrder.insertBy (h.sublist (takeFirst_sublist hfirst)) _

theorem GapsInOrder.gapLine (h : GapsInOrder a.gaps) (pitch x : Nat) (k : LaneId) :
    GapsInOrder (a.gapLine pitch k x).gaps := by
  rcases a.gapLine_cases pitch x k with ⟨he, _⟩ | ⟨he, _⟩ | he | ⟨he, _⟩ <;> rw [he]
  · exact h
  · exact h.map (extendGap_key k x)
  · exact GapsInOrder.insertBy (h.map (f := fun e => { e with
      newest := false, laneNewest := if e.lane = some k then false else e.laneNewest }) fun _ => ⟨rfl, rfl⟩) _
  · exact h.mergeGap x

/-! ### What the list covers -/

/-- A line stands covered for a lane, by an entry of the lane or of ALL. -/
def GapsHold (gaps : List GapEntry) (l : Option LaneId) (x : Nat) : Prop :=
  ∃ e ∈ gaps, (e.lane = l ∨ e.lane = none) ∧ e.first ≤ x ∧ x ≤ e.last

theorem GapsHold.of_insertBy {gaps : List GapEntry} {l : Option LaneId} {x : Nat} {e : GapEntry}
    (h : GapsHold (e :: gaps) l x) : GapsHold (insertBy GapEntry.before e gaps) l x := by
  obtain ⟨f, hf, hcover⟩ := h
  exact ⟨f, (insertBy_perm _ _ _).mem_iff.mpr hf, hcover⟩

/-- A new entry takes the place of the lane's newest and of the list's newest (R77). -/
theorem insertGap_eq (k : LaneId) (x : Nat) (gaps : List GapEntry) :
    insertGap k x gaps = insertBy GapEntry.before { lane := some k, first := x, last := x, newest := true, laneNewest := true }
      (gaps.map fun e => { e with newest := false, laneNewest := e.laneNewest && decide (e.lane ≠ some k) }) := by
  refine congrArg (insertBy GapEntry.before _) (List.map_congr_left fun e _ => ?_)
  by_cases h : e.lane = some k <;> simp [h]

theorem insertGap_holds (k : LaneId) (x : Nat) (gaps : List GapEntry) : GapsHold (insertGap k x gaps) (some k) x :=
  GapsHold.of_insertBy ⟨_, List.mem_cons_self, .inl rfl, Nat.le_refl x, Nat.le_refl x⟩

theorem insertGap_keeps (k : LaneId) (x : Nat) {gaps : List GapEntry} {e : GapEntry} (he : e ∈ gaps) {y : Nat}
    (hlo : e.first ≤ y) (hhi : y ≤ e.last) : GapsHold (insertGap k x gaps) e.lane y :=
  GapsHold.of_insertBy ⟨_, List.mem_cons_of_mem _ (List.mem_map_of_mem he), .inl rfl, hlo, hhi⟩

theorem mergeGap_append (x : Nat) {older newer : List GapEntry} {e : GapEntry} (he : e.newest = true)
    (hold : ∀ f ∈ older, f.newest = false) : mergeGap x (older ++ e :: newer) = insertBy GapEntry.before
      { lane := none, first := min e.first x, last := max e.last x, newest := true, laneNewest := false } (older ++ newer) := by
  simp only [mergeGap, takeFirst_append (p := fun e : GapEntry => e.newest) he hold]

/-- The entries split at the first newest one. -/
theorem newest_split {gaps : List GapEntry} (h : ∃ e ∈ gaps, e.newest = true) : ∃ older e newer,
    gaps = older ++ e :: newer ∧ e.newest = true ∧ ∀ f ∈ older, f.newest = false := by
  obtain ⟨e, hfind⟩ := Option.isSome_iff_exists.mp (List.find?_isSome (p := fun e : GapEntry => e.newest).mpr h)
  obtain ⟨he, older, newer, hgaps, hold⟩ := List.find?_eq_some_iff_append.mp hfind
  exact ⟨older, e, newer, hgaps, he, by simpa using hold⟩

theorem mergeGap_holds {gaps : List GapEntry} (h : ∃ e ∈ gaps, e.newest = true) (l : Option LaneId) (x : Nat)
    (hspan : ∀ e ∈ gaps, e.first ≤ e.last) : GapsHold (mergeGap x gaps) l x := by
  obtain ⟨older, e, newer, rfl, he, hold⟩ := newest_split h
  have hle := hspan e (by simp)
  rw [mergeGap_append x he hold]
  exact GapsHold.of_insertBy ⟨_, List.mem_cons_self, .inr rfl, Nat.min_le_right _ _, Nat.le_max_right _ _⟩

theorem mergeGap_keeps (x : Nat) {gaps : List GapEntry} (h : ∃ e ∈ gaps, e.newest = true) {e : GapEntry} (he : e ∈ gaps)
    {y : Nat} (hlo : e.first ≤ y) (hhi : y ≤ e.last) : GapsHold (mergeGap x gaps) e.lane y := by
  obtain ⟨older, n, newer, rfl, hn, hold⟩ := newest_split h
  rw [mergeGap_append x hn hold]
  refine GapsHold.of_insertBy ?_
  rcases List.mem_append.mp he with he | he
  · exact ⟨e, by simp [he], .inl rfl, hlo, hhi⟩
  · rcases List.mem_cons.mp he with rfl | he
    · exact ⟨_, List.mem_cons_self, .inr rfl, (Nat.min_le_left _ _).trans hlo, hhi.trans (Nat.le_max_left _ _)⟩
    · exact ⟨e, by simp [he], .inl rfl, hlo, hhi⟩

theorem Assembler.gapLine_holds (hspan : ∀ e ∈ a.gaps, e.first ≤ e.last)
    (hnewest : a.gaps.length < 64 ∨ ∃ e ∈ a.gaps, e.newest = true) (hg : ¬ a.graded pitch x = true) :
    GapsHold (a.gapLine pitch k x).gaps (some k) x := by
  rcases a.gapLine_cases pitch x k with ⟨h, hc⟩ | ⟨h, hr⟩ | h | ⟨h, hlen⟩ <;> rw [h]
  · obtain ⟨e, he, hall, hcover⟩ := hc.resolve_left hg
    exact ⟨e, he, .inr hall, hcover⟩
  · obtain ⟨e, he, hlane, hnew, hlast⟩ := hr
    have hle := hspan e he
    refine ⟨_, List.mem_map_of_mem he, .inl ((extendGap_key k x e).2.trans hlane), ?_, ?_⟩
    · rw [(extendGap_key k x e).1]; omega
    · simp [extendGap, hlane, hnew]
  · exact insertGap_holds k x a.gaps
  · exact mergeGap_holds (hnewest.resolve_left (Nat.not_lt.mpr hlen)) _ _ hspan

theorem Assembler.gapLine_keeps (hnewest : a.gaps.length < 64 ∨ ∃ e ∈ a.gaps, e.newest = true)
    (hbelow : ∀ e ∈ a.gaps, e.lane = some k → e.laneNewest = true → e.last < x) {e : GapEntry} (he : e ∈ a.gaps) {y : Nat}
    (hlo : e.first ≤ y) (hhi : y ≤ e.last) : GapsHold (a.gapLine pitch k x).gaps e.lane y := by
  rcases a.gapLine_cases pitch x k with ⟨h, _⟩ | ⟨h, _⟩ | h | ⟨h, hlen⟩ <;> rw [h]
  · exact ⟨e, he, .inl rfl, hlo, hhi⟩
  · refine ⟨_, List.mem_map_of_mem he, .inl (extendGap_key k x e).2, ?_, ?_⟩
    · rw [(extendGap_key k x e).1]; exact hlo
    · unfold extendGap
      split
      · rename_i hnew
        exact hhi.trans (hbelow e he hnew.1 hnew.2).le
      · exact hhi
  · exact insertGap_keeps k x he hlo hhi
  · exact mergeGap_keeps x (hnewest.resolve_left (Nat.not_lt.mpr hlen)) he hlo hhi

end

/-! ### The messages -/

theorem exec_gapLine {k : LaneId} {x : Nat} {rest : List (Tagged LaneMsg)} {s : State} {sh : Shadow} (hr : s.inReset = false)
    (hw : s.wires.laneMsgs[k] = { epoch := s.epoch, msg := .gap x } :: rest) (hsh : s.cmd.shadow = some sh) :
    exec (.gapLine k) s = .next { s with
      asm := s.asm.gapLine sh.travel.pitch k x
      wires := { s.wires with laneMsgs := upd s.wires.laneMsgs k (fun _ => rest) } } := by
  refine congrArg Host.Outcome.next ((receiveIf_taken hr hw rfl).trans ?_)
  simp only [takeLaneMsg, hsh]

theorem exec_settledLine {k : LaneId} {n : Nat} {rest : List (Tagged LaneMsg)} {s : State} (hr : s.inReset = false)
    (hw : s.wires.laneMsgs[k] = { epoch := s.epoch, msg := .settled n } :: rest) :
    exec (.settledLine k) s = .next (takeLaneMsg k (.settled n)
      { s with wires := { s.wires with laneMsgs := upd s.wires.laneMsgs k (fun _ => rest) } }) :=
  congrArg Host.Outcome.next (receiveIf_taken hr hw rfl)

theorem exec_scan {a b floor : Nat} {rest : List (Tagged PlanReq)} {s : State} (hr : s.inReset = false)
    (hw : s.wires.plannerAsm = { epoch := s.epoch, msg := .scan a b floor } :: rest) :
    exec .scan s = .next (takePlanReq (.scan a b floor) { s with wires := { s.wires with plannerAsm := rest } }) :=
  congrArg Host.Outcome.next (receiveIf_taken hr hw rfl)

theorem exec_mark {m : PlanReq} {rest : List (Tagged PlanReq)} {s : State} (hr : s.inReset = false)
    (hw : s.wires.plannerAsm = { epoch := s.epoch, msg := m } :: rest) (hm : m.isScan = false) :
    exec .mark s = .next (takePlanReq m { s with wires := { s.wires with plannerAsm := rest } }) :=
  congrArg Host.Outcome.next (receiveIf_taken hr hw (by simp [hm]))

/-- Settles O31: the steps of R77 by `Assembler.gapLine_ungraded`, the order and the cover by its cases, the other messages by
their definitions. -/
theorem assemblerTakesItsMessages : Obligations.AssemblerTakesItsMessages := by
  refine ⟨fun k x rest s sh hr hw hsh hspan hnewest hbelow => ?_, ?_, ?_, ?_, ?_, ?_⟩
  · refine ⟨_, exec_gapLine hr hw hsh, s.asm.gapLine_frame sh.travel.pitch x k, rfl, fun g hg hle => ?_, fun hg => ?_,
      fun e he y hlo hhi => Assembler.gapLine_keeps hnewest hbelow he hlo hhi⟩
    · exact congrArg Assembler.gaps (Assembler.gapLine_graded (Assembler.graded_iff.mpr ⟨g, hg, hle⟩))
    · refine Assembler.gapLine_holds hspan hnewest fun hgraded => ?_
      obtain ⟨g, htail, hle⟩ := Assembler.graded_iff.mp hgraded
      exact absurd (hg g htail) (Nat.not_lt.mpr hle)
  · intro k x rest s sh hr hw hsh hg place after inserted covered followed
    have hungraded : ¬ s.asm.graded sh.travel.pitch x = true := fun hgraded => by
      obtain ⟨g, htail, hle⟩ := Assembler.graded_iff.mp hgraded
      exact absurd (hg g htail) (Nat.not_lt.mpr hle)
    have hafter : ∀ e f : GapEntry, e.before f = true ↔ after f e := fun e f => GapEntry.before_iff e f
    have hinserted : ∀ (e : GapEntry) (others : List GapEntry), inserted e others (insertBy GapEntry.before e others) :=
      fun e others => by
        obtain ⟨front, back, hothers, hins, hfront, hback⟩ := insertBy_split GapEntry.before e others
        exact ⟨front, back, hothers, hins, fun f hf h => hfront f hf ((hafter e f).mpr h),
          fun f hf => (hafter e f).mp (hback f hf)⟩
    obtain ⟨hcover, hreach, hnew, hmerged⟩ := Assembler.gapLine_ungraded (k := k) hungraded
    refine ⟨_, exec_gapLine hr hw hsh, fun h => GapsInOrder.gapLine h _ _ _, fun hc => congrArg Assembler.gaps (hcover hc),
      fun hc hf => congrArg Assembler.gaps (hreach hc hf), fun hc hf hlen => ?_, fun hc hf hlen older e newer hgaps he hold => ?_⟩
    · refine Eq.mpr (congrArg (inserted _ _) (congrArg Assembler.gaps (hnew hc hf hlen))) ?_
      rw [insertGap_eq]
      exact hinserted _ _
    · refine Eq.mpr (congrArg (inserted _ _) ((congrArg Assembler.gaps (hmerged hc hf hlen)).trans
        ((congrArg (mergeGap x) hgaps).trans (mergeGap_append x he hold)))) ?_
      exact hinserted _ _
  · exact fun k n rest s hr hw => exec_settledLine hr hw
  · exact fun a b floor rest s hr hw => exec_scan hr hw
  · exact fun n rest s hr hw => exec_mark hr hw rfl
  · exact fun n rest s hr hw => exec_mark hr hw rfl

end Sys2Proof.Machine
end

section
/-! The join of a line in its parts: its runs and components, their resolution, and the pass of closures that ends it (R62,
R65, R67, R68). -/

namespace Sys2Proof.Machine

/-! ### The parts of a join -/

/-- The runs of a line: those of the entries that the lanes deliver for it (R62). -/
def runsOf (entries : LaneId → Option JoinEntry) : List PixelRun :=
  allLanes.flatMap fun k => ((entries k).map (·.runs)).getD []

/-- The components of line n over the blobs eligible at its join (R63). -/
def Assembler.componentsAt (a : Assembler) (d : DetectGroup) (n : Nat) (entries : LaneId → Option JoinEntry) :
    List Component :=
  components d.crossBridge (a.blobs.filter (·.eligible n d.alongGap)) (runsOf entries)

/-- The assembler once the components of line n are resolved: those with blobs first, then the new blobs (R64, R66). -/
def Assembler.resolve (a : Assembler) (c : JoinContext) (n : Nat) (cs : List Component) : AsmStep :=
  (sortBy newBefore (cs.filter fun k => k.blobs.isEmpty)).foldl (AsmStep.makeBlob c n)
    (Assembler.step { a with blobs := (cs.filter fun k => !k.blobs.isEmpty).foldl (resolveOld n) a.blobs })

/-- A blob once PARTIAL_VIEW is set at the join of line n (R65). -/
def Blob.marked (sh : Shadow) (n : Nat) (entries : LaneId → Option JoinEntry) (b : Blob) : Blob :=
  if b.front = n ∧ partialAt sh entries b = true then { b with flags := { b.flags with partialView := true } } else b

/-- Whether a blob closes in the pass at the end of the join of line n (R67). -/
def Blob.closes (c : JoinContext) (n : Nat) (b : Blob) : Bool := b.overlong c n || b.ended c n

/-- The end of the join of line n: the blobs that close, the markers replaced, and the joined line handed on (R65, R67, R68). -/
def AsmStep.closePass (c : JoinContext) (sh : Shadow) (n : Nat) (entries : LaneId → Option JoinEntry) (r : AsmStep) : AsmStep :=
  let blobs := r.asm.blobs.map (Blob.marked sh n entries)
  let z := (sortBy Blob.earlier (blobs.filter (Blob.closes c n))).foldl (AsmStep.closeAt c n)
    ({ r with asm := { r.asm with blobs := blobs.filter fun b => !b.closes c n } }, [])
  { z.1 with asm := { z.1.asm with markers := z.2, joined := n }, planner := z.1.planner ++ [.joined n] }

theorem Assembler.joinLine_eq (a : Assembler) (c : JoinContext) (sh : Shadow) (n : Nat) (entries : LaneId → Option JoinEntry) :
    a.joinLine c sh n entries = (a.resolve c n (a.componentsAt c.detect n entries)).closePass c sh n entries := by
  have hruns : (allLanes.flatMap fun k => match entries k with | none => [] | some j => j.runs) = runsOf entries :=
    congrArg (allLanes.flatMap ·) (funext fun k => by cases entries k <;> rfl)
  unfold Assembler.componentsAt
  rw [← hruns]
  rfl

/-! ### What a join leaves of the machine -/

/-- The machine once line J + 1 is joined under a DETECT group. -/
def State.joined (s : State) (sh : Shadow) (d : DetectGroup) : State :=
  State.finishAsm { s.takeDetect with engine := s.engine.takeLine (s.asm.joined + 1) }
    (s.asm.joinLine (s.joinContext sh d) sh (s.asm.joined + 1) (s.engine.entryFor (s.asm.joined + 1)))

theorem exec_join {s : State} {sh : Shadow} {d : DetectGroup} (hr : s.inReset = false) (hst : s.cmd.runState = .running)
    (hlt : s.asm.joined < s.asm.frontier) (hsh : s.cmd.shadow = some sh) (hd : s.cmd.detect.activate.inUse = some d) :
    exec .join s = .next (s.joined sh d) := by
  have hshadow : s.takeDetect.cmd.shadow = some sh := hsh
  have hdetect : s.takeDetect.cmd.detect.inUse = some d := hd
  refine congrArg Host.Outcome.next ((live_out hr).trans ?_)
  unfold joinNext
  rw [if_pos ⟨hst, hlt⟩]
  simp only [hshadow, hdetect]
  rfl

theorem Engine.takeLine_lane (e : Engine) (n : Nat) (k : LaneId) :
    (e.takeLine n).lanes[k] = { e.lanes[k] with join := e.lanes[k].join.filter fun j => decide (j.line ≠ n) } := by
  simp only [Engine.takeLine, foldl_upd_allLanes]

/-! ### One closure leaves the rest of the assembler -/

theorem AsmStep.close_blobs (c : JoinContext) (r : AsmStep) (b : Blob) : (r.close c b).asm.blobs = r.asm.blobs := by
  rw [AsmStep.close_eq]
  rfl

/-- What stands of the assembler a while a join goes on: its settled lines, gap list and graded tail, and only held flaws
have been told to the Planner (R62). -/
structure AsmStep.Within (a : Assembler) (r : AsmStep) : Prop where
  settled : r.asm.settled = a.settled
  gaps : r.asm.gaps = a.gaps
  gradedTail : r.asm.gradedTail = a.gradedTail
  planner : ∃ flaws : List FlawEntry, r.planner = flaws.map .heldFlaw

section
variable {a : Assembler} {r : AsmStep}

theorem AsmStep.Within.close (h : r.Within a) (c : JoinContext) (b : Blob) : (r.close c b).Within a := by
  obtain ⟨flaws, hflaws⟩ := h.planner
  rw [AsmStep.close_eq]
  refine ⟨h.settled, h.gaps, h.gradedTail, ?_⟩
  by_cases hheld : (r.asm.flawOf c b).disposition = .held
  · exact ⟨flaws ++ [(r.asm.flawOf c b).entry], by simp [hflaws, hheld]⟩
  · exact ⟨flaws, by simp [hflaws, hheld]⟩

theorem AsmStep.Within.makeRoom (h : r.Within a) (c : JoinContext) : (r.makeRoom c).Within a := by
  unfold AsmStep.makeRoom
  split
  · split
    · exact h
    · dsimp only
      apply AsmStep.Within.close
      exact ⟨h.settled, h.gaps, h.gradedTail, h.planner⟩
  · exact h

theorem AsmStep.Within.makeBlob (h : r.Within a) (c : JoinContext) (n : Nat) (k : Component) :
    (r.makeBlob c n k).Within a := by
  unfold AsmStep.makeBlob
  split
  · exact h
  · obtain ⟨hsettled, hgaps, htail, hplanner⟩ := h.makeRoom c
    exact ⟨hsettled, hgaps, htail, hplanner⟩

theorem AsmStep.Within.closeAt {z : AsmStep × List Marker} (h : z.1.Within a) (c : JoinContext) (n : Nat) (b : Blob) :
    (AsmStep.closeAt c n z b).1.Within a := by
  unfold AsmStep.closeAt
  split
  · dsimp only
    apply AsmStep.Within.close
    exact ⟨h.settled, h.gaps, h.gradedTail, h.planner⟩
  · exact h.close c b

theorem AsmStep.closeAt_blobs (c : JoinContext) (n : Nat) (z : AsmStep × List Marker) (b : Blob) :
    (AsmStep.closeAt c n z b).1.asm.blobs = z.1.asm.blobs := by
  unfold AsmStep.closeAt
  split
  · dsimp only
    rw [AsmStep.close_blobs]
  · exact z.1.close_blobs c b

end

theorem Assembler.resolve_within (a : Assembler) (c : JoinContext) (n : Nat) (cs : List Component) :
    (a.resolve c n cs).Within a :=
  List.foldlRecOn (motive := fun r : AsmStep => r.Within a) _ (AsmStep.makeBlob c n) ⟨rfl, rfl, rfl, [], rfl⟩
    fun _ hr k _ => hr.makeBlob c n k

/-! ### The pass of closures -/

section
variable {c : JoinContext} {sh : Shadow} {n : Nat} {entries : LaneId → Option JoinEntry}

/-- PARTIAL_VIEW alone is changed by the marking. -/
theorem Blob.marked_keeps {β : Type} (f : Blob → β)
    (hf : ∀ (b : Blob) v, f { b with flags := { b.flags with partialView := v } } = f b) (b : Blob) :
    f (b.marked sh n entries) = f b := by
  unfold Blob.marked
  split
  · exact hf b true
  · rfl

@[simp] theorem Blob.marked_id (b : Blob) : (b.marked sh n entries).id = b.id := Blob.marked_keeps Blob.id (fun _ _ => rfl) b

@[simp] theorem Blob.marked_first (b : Blob) : (b.marked sh n entries).first = b.first :=
  Blob.marked_keeps Blob.first (fun _ _ => rfl) b

@[simp] theorem Blob.marked_front (b : Blob) : (b.marked sh n entries).front = b.front :=
  Blob.marked_keeps Blob.front (fun _ _ => rfl) b

@[simp] theorem Blob.marked_continued (b : Blob) : (b.marked sh n entries).flags.continued = b.flags.continued :=
  Blob.marked_keeps (fun b => b.flags.continued) (fun _ _ => rfl) b

@[simp] theorem Blob.marked_truncated (b : Blob) : (b.marked sh n entries).flags.truncated = b.flags.truncated :=
  Blob.marked_keeps (fun b => b.flags.truncated) (fun _ _ => rfl) b

@[simp] theorem Blob.marked_forced (b : Blob) : (b.marked sh n entries).flags.forced = b.flags.forced :=
  Blob.marked_keeps (fun b => b.flags.forced) (fun _ _ => rfl) b

theorem Blob.marked_closes (b : Blob) : (b.marked sh n entries).closes c n = b.closes c n :=
  Blob.marked_keeps _ (fun _ _ => rfl) b

theorem Blob.marked_of_front (b : Blob) (h : b.front ≠ n) : b.marked sh n entries = b := if_neg fun hm => h hm.1

/-- A blob stays open while it is below the maximum length on its front line and within the along gap behind it (R67). -/
theorem Blob.closes_eq_false {b : Blob} : b.closes c n = false ↔
    (b.front = n → (n - b.first + 1) * c.pitch < c.detect.maxLength) ∧ n ≤ b.front + c.detect.alongGap := by
  simp [Blob.closes, Blob.overlong, Blob.ended]

theorem AsmStep.closePass_blobs (r : AsmStep) :
    (r.closePass c sh n entries).asm.blobs =
      (r.asm.blobs.map (Blob.marked sh n entries)).filter fun b => !b.closes c n :=
  List.foldlRecOn (motive := fun z : AsmStep × List Marker => z.1.asm.blobs = _) _ (AsmStep.closeAt c n) rfl
    fun z hz b _ => (AsmStep.closeAt_blobs c n z b).trans hz

/-- The pass of a join tells the Planner of held flaws, then of the joined line (R62). -/
theorem AsmStep.Within.closePass {a : Assembler} {r : AsmStep} (h : r.Within a) :
    ∃ z : AsmStep, z.Within a ∧ (r.closePass c sh n entries).asm = { z.asm with
        markers := (r.closePass c sh n entries).asm.markers, joined := n } ∧
      (r.closePass c sh n entries).planner = z.planner ++ [.joined n] :=
  ⟨_, List.foldlRecOn (motive := fun z : AsmStep × List Marker => z.1.Within a) _ (AsmStep.closeAt c n)
    ⟨h.settled, h.gaps, h.gradedTail, h.planner⟩ fun _ hz b _ => hz.closeAt c n b, rfl, rfl⟩

/-- A join that closes no blob marks its blobs and discards the markers (R65, R68). -/
theorem AsmStep.closePass_open {r : AsmStep} (h : ∀ b ∈ r.asm.blobs, b.closes c n = false) :
    r.closePass c sh n entries = { r with
      asm := { r.asm with blobs := r.asm.blobs.map (Blob.marked sh n entries), markers := [], joined := n }
      planner := r.planner ++ [.joined n] } := by
  have hopen : ∀ b ∈ r.asm.blobs.map (Blob.marked sh n entries), b.closes c n = false := fun b hb => by
    obtain ⟨o, ho, rfl⟩ := List.mem_map.mp hb
    exact (Blob.marked_closes o).trans (h o ho)
  have hclosing : (r.asm.blobs.map (Blob.marked sh n entries)).filter (Blob.closes c n) = [] :=
    List.filter_eq_nil_iff.mpr fun b hb => by simp [hopen b hb]
  have hkept : (r.asm.blobs.map (Blob.marked sh n entries)).filter (fun b => !b.closes c n) =
      r.asm.blobs.map (Blob.marked sh n entries) := List.filter_eq_self.mpr fun b hb => by simp [hopen b hb]
  simp only [AsmStep.closePass, hclosing, hkept, sortBy, List.foldl_nil]

/-- A join whose one open blob closes (R67). -/
theorem AsmStep.closePass_closing {r : AsmStep} {b : Blob} (hb : r.asm.blobs = [b]) (h : b.closes c n = true) :
    r.closePass c sh n entries =
      let z := AsmStep.closeAt c n ({ r with asm := { r.asm with blobs := [] } }, []) (b.marked sh n entries)
      { z.1 with asm := { z.1.asm with markers := z.2, joined := n }, planner := z.1.planner ++ [.joined n] } := by
  have hm : (b.marked sh n entries).closes c n = true := (Blob.marked_closes b).trans h
  simp [AsmStep.closePass, hb, hm, sortBy, insertBy]

end

end Sys2Proof.Machine
end

section
/-! A line without runs closes the one open blob that has ended (R67, R70 to R73, R76); with it O34. -/

namespace Sys2Proof.Machine

theorem disposition_eq (c : JoinContext) (a : Assembler) (b : Blob) (m : Nat) : disposition c a b m =
    if b.hi < c.netLo ∨ c.netHi < b.lo then .edge
    else if a.gradedTail.any (fun g => decide (m < g)) then .orphan
    else if a.table.length < 512 then .held
    else .unheld := by
  unfold disposition
  cases a.gradedTail <;> rfl

theorem components_no_runs (xb : Nat) (bs : List Blob) : components xb bs [] = [] := by
  simp [components]

/-- With no components to resolve, a join leaves the open blobs to its pass. -/
theorem Assembler.resolve_nil (a : Assembler) (c : JoinContext) (n : Nat) : a.resolve c n [] = a.step := rfl

/-- The flaw that the one ended blob of a line without runs becomes is all that its join does to the assembler (R67). -/
theorem Assembler.joinLine_ended {a : Assembler} {c : JoinContext} {sh : Shadow} {n : Nat}
    {entries : LaneId → Option JoinEntry} {b : Blob} (hb : a.blobs = [b]) (hruns : runsOf entries = [])
    (hgap : b.front + c.detect.alongGap < n) (hfront : b.front ≠ n) :
    a.joinLine c sh n entries =
      { asm := { ({ a with blobs := [] } : Assembler).takeFlaw (a.flawOf c b) with markers := [], joined := n }
        planner := (if (a.flawOf c b).disposition = .held then [.heldFlaw (a.flawOf c b).entry] else []) ++ [.joined n]
        records := [a.flawOf c b]
        incs := [(a.flawOf c b).increment] } := by
  have hover : b.overlong c n = false := by simp [Blob.overlong, hfront]
  have hcloses : b.closes c n = true := by simp [Blob.closes, Blob.ended, hgap]
  rw [Assembler.joinLine_eq, Assembler.componentsAt, hruns, components_no_runs, Assembler.resolve_nil,
    AsmStep.closePass_closing (r := a.step) hb hcloses, Blob.marked_of_front b hfront]
  simp only [AsmStep.closeAt, hover, AsmStep.close_eq]
  rfl

theorem runsOf_eq_nil {entries : LaneId → Option JoinEntry} (h : ∀ (j : LaneId) (x : JoinEntry), entries j = some x → x.runs = []) :
    runsOf entries = [] := by
  refine List.flatMap_eq_nil_iff.mpr fun k _ => ?_
  cases hk : entries k with
  | none => rfl
  | some x => exact h k x hk

/-- Settles O34: the join is one closure (`Assembler.joinLine_ended`), and its disposition decides the rest (R72). -/
theorem endedBlobBecomesAFlaw : Obligations.EndedBlobBecomesAFlaw := by
  intro s sh d b hr hst hlt hsh hd hb hruns hgap hfront hnext
  let c := s.joinContext sh d
  let record := s.asm.flawOf c b
  have hjoin := Assembler.joinLine_ended (c := c) (sh := sh) hb (runsOf_eq_nil hruns) hgap hfront
  refine ⟨_, record, exec_join hr hst hlt hsh hd, ?_⟩
  unfold State.joined
  rw [hjoin]
  refine ⟨rfl, if_pos hnext, rfl, rfl, rfl, rfl, rfl, rfl, rfl, rfl, rfl, rfl, rfl, rfl, rfl, rfl, rfl, rfl, rfl, ?_⟩
  intro midpoint entry inc joined told sent
  have hdisp : record.disposition =
      if b.hi < sh.netLo ∨ sh.netHi < b.lo then .edge
      else if s.asm.gradedTail.any (fun g => decide (midpoint < g)) then .orphan
      else if s.asm.table.length < 512 then .held
      else .unheld := disposition_eq c s.asm b midpoint
  have htold : ∀ ms, (if record.disposition = .held then [AsmMsg.heldFlaw record.entry] else []) = ms → told (ms ++ [joined]) :=
    fun ms h => congrArg (fun ms => s.wires.asmPlanner ++ s.tagAll (ms ++ [joined])) h
  have hsent : ∀ i, record.increment = i → sent i :=
    fun i h => congrArg (fun i => s.wires.increments ++ [(Sender.assembler, i)]) h
  have hcounted : ∀ orphan, record.disposition ≠ .edge → decide (record.disposition = .orphan) = orphan → sent (inc orphan) :=
    fun orphan h ho => hsent _ ((if_neg h).trans (congrArg inc ho))
  have htable : record.disposition ≠ .held → (s.asm.takeFlaw record).table = s.asm.table := fun h => if_neg h
  have hoverflow : record.disposition ≠ .unheld → (s.asm.takeFlaw record).overflow = s.asm.overflow := fun h => if_neg h
  by_cases hedge : b.hi < sh.netLo ∨ sh.netHi < b.lo
  · rw [if_pos hedge] at hdisp ⊢
    refine ⟨hdisp, htable ?_, hoverflow ?_, htold [] (if_neg ?_), hsent _ (if_pos hdisp)⟩ <;> simp [hdisp]
  rw [if_neg hedge] at hdisp ⊢
  by_cases horphan : s.asm.gradedTail.any (fun g => decide (midpoint < g)) = true
  · rw [if_pos horphan] at hdisp ⊢
    refine ⟨hdisp, htable ?_, hoverflow ?_, htold [] (if_neg ?_), hcounted true ?_ ?_⟩ <;> simp [hdisp]
  rw [if_neg horphan] at hdisp ⊢
  by_cases hroom : s.asm.table.length < 512
  · rw [if_pos hroom] at hdisp ⊢
    have hheld : (s.asm.takeFlaw record).table = insertBy FlawEntry.before entry s.asm.table := if_pos hdisp
    have hperm : (s.asm.takeFlaw record).table.Perm (entry :: s.asm.table) := hheld ▸ insertBy_perm _ _ _
    refine ⟨hdisp, hperm.mem_iff.mpr List.mem_cons_self, hperm, fun h => ?_, hoverflow ?_, htold [_] (if_pos hdisp),
      hcounted false ?_ ?_⟩
    · exact Eq.mpr (congrArg (List.Pairwise FlawEntry.inOrder) hheld) (insertBy_before_inOrder entry h)
    all_goals simp [hdisp]
  · rw [if_neg hroom] at hdisp ⊢
    have hspan : (s.asm.takeFlaw record).overflow = some (widen s.asm.overflow midpoint) := if_pos hdisp
    refine ⟨hdisp, htable ?_, hspan.trans ?_, htold [] (if_neg ?_), hcounted false ?_ ?_⟩
    · simp [hdisp]
    · cases s.asm.overflow <;> rfl
    all_goals simp [hdisp]

end Sys2Proof.Machine
end

section
/-! The components of a line: the runs and blobs that touches connect, each apart from the others (R63). -/

namespace Sys2Proof.Machine

/-- A run meets an interval within the cross bridge (R63). -/
def PixelRun.Meets (xb : Nat) (r : PixelRun) (lo hi : Nat) : Prop := r.lo ≤ hi + xb ∧ lo ≤ r.hi + xb

/-- No run of one group touches anything of the other. -/
def Component.Apart (xb : Nat) (c e : Component) : Prop :=
  (∀ r ∈ c.runs, (∀ q ∈ e.runs, ¬ r.Meets xb q.lo q.hi) ∧ ∀ b ∈ e.blobs, ¬ r.Meets xb b.frontLo b.frontHi) ∧
    ∀ r ∈ e.runs, ∀ b ∈ c.blobs, ¬ r.Meets xb b.frontLo b.frontHi

/-- A choice of the items of a group that no touch leaves: what touches an item chosen is chosen too. -/
structure Component.Closed (xb : Nat) (c : Component) (p : PixelRun → Prop) (q : Blob → Prop) : Prop where
  runs : ∀ r ∈ c.runs, ∀ x ∈ c.runs, r.Meets xb x.lo x.hi → p r → p x
  blobs : ∀ r ∈ c.runs, ∀ b ∈ c.blobs, r.Meets xb b.frontLo b.frontHi → (p r ↔ q b)

/-- Every item of a group is chosen. -/
def Component.All (c : Component) (p : PixelRun → Prop) (q : Blob → Prop) : Prop := (∀ r ∈ c.runs, p r) ∧ ∀ b ∈ c.blobs, q b

/-- A group is connected by touches: a choice that no touch leaves holds every item or none. -/
def Component.Linked (xb : Nat) (c : Component) : Prop :=
  ∀ p q, c.Closed xb p q → c.All p q ∨ c.All (fun r => ¬ p r) fun b => ¬ q b

section
variable {xb : Nat} {c e : Component} {r : PixelRun}

theorem touches_iff (xb : Nat) (r : PixelRun) (lo hi : Nat) : touches xb r lo hi = true ↔ r.Meets xb lo hi := by
  simp [touches, PixelRun.Meets]

theorem PixelRun.meets_symm {q : PixelRun} : r.Meets xb q.lo q.hi ↔ q.Meets xb r.lo r.hi := And.comm

theorem Component.touchedBy_iff : c.touchedBy xb r = true ↔
    (∃ q ∈ c.runs, r.Meets xb q.lo q.hi) ∨ ∃ b ∈ c.blobs, r.Meets xb b.frontLo b.frontHi := by
  simp [Component.touchedBy, touches_iff]

theorem Component.Apart.symm (h : c.Apart xb e) : e.Apart xb c :=
  ⟨fun r hr => ⟨fun q hq hm => (h.1 q hq).1 r hr (PixelRun.meets_symm.mp hm), h.2 r hr⟩, fun r hr => (h.1 r hr).2⟩

/-! ### One run added -/

/-- The group that a run makes of the groups that it touches (R63). -/
def joinedBy (xb : Nat) (cs : List Component) (r : PixelRun) : Component :=
  { runs := (cs.filter (Component.touchedBy xb · r)).flatMap (·.runs) ++ [r]
    blobs := (cs.filter (Component.touchedBy xb · r)).flatMap (·.blobs) }

theorem addRun_eq (xb : Nat) (cs : List Component) (r : PixelRun) :
    addRun xb cs r = cs.filter (fun c => !c.touchedBy xb r) ++ [joinedBy xb cs r] := rfl

/-- The groups split into those a run touches and those it does not. -/
theorem touched_perm (xb : Nat) (cs : List Component) (r : PixelRun) :
    (cs.filter (fun c => !c.touchedBy xb r) ++ cs.filter (Component.touchedBy xb · r)).Perm cs :=
  List.perm_append_comm.trans (List.filter_append_perm _ cs)

theorem addRun_runs (xb : Nat) (cs : List Component) (r : PixelRun) :
    ((addRun xb cs r).flatMap (·.runs)).Perm (cs.flatMap (·.runs) ++ [r]) := by
  rw [addRun_eq, List.flatMap_append, List.flatMap_singleton, joinedBy, ← List.append_assoc, ← List.flatMap_append]
  exact ((touched_perm xb cs r).flatMap_right _).append_right _

theorem addRun_blobs (xb : Nat) (cs : List Component) (r : PixelRun) :
    ((addRun xb cs r).flatMap (·.blobs)).Perm (cs.flatMap (·.blobs)) := by
  rw [addRun_eq, List.flatMap_append, List.flatMap_singleton, joinedBy, ← List.flatMap_append]
  exact (touched_perm xb cs r).flatMap_right _

/-- What a run does not touch, and what is apart from all it touches, is apart from the group that it makes. -/
theorem joinedBy_apart {cs : List Component} (hr : ¬ c.touchedBy xb r = true)
    (hcs : ∀ e ∈ cs.filter (Component.touchedBy xb · r), c.Apart xb e) : c.Apart xb (joinedBy xb cs r) := by
  rw [Component.touchedBy_iff, not_or] at hr
  obtain ⟨hruns, hblobs⟩ := hr
  refine ⟨fun q hq => ⟨fun x hx hm => ?_, fun b hb hm => ?_⟩, fun x hx b hb hm => ?_⟩
  · rcases List.mem_append.mp hx with hx | hx
    · obtain ⟨e, he, hxe⟩ := List.mem_flatMap.mp hx
      exact ((hcs e he).1 q hq).1 x hxe hm
    · obtain rfl := List.mem_singleton.mp hx
      exact hruns ⟨q, hq, PixelRun.meets_symm.mp hm⟩
  · obtain ⟨e, he, hbe⟩ := List.mem_flatMap.mp hb
    exact ((hcs e he).1 q hq).2 b hbe hm
  · rcases List.mem_append.mp hx with hx | hx
    · obtain ⟨e, he, hxe⟩ := List.mem_flatMap.mp hx
      exact (hcs e he).2 x hxe b hb hm
    · obtain rfl := List.mem_singleton.mp hx
      exact hblobs ⟨b, hb, hm⟩

theorem addRun_apart {cs : List Component} (h : cs.Pairwise (Component.Apart xb)) (r : PixelRun) :
    (addRun xb cs r).Pairwise (Component.Apart xb) := by
  obtain ⟨hleft, _, hcross⟩ := List.pairwise_append.mp
    ((touched_perm xb cs r).symm.pairwise h fun hab => hab.symm)
  rw [addRun_eq]
  refine List.pairwise_append.mpr ⟨hleft, List.pairwise_singleton _ _, fun c hc e he => ?_⟩
  obtain rfl := List.mem_singleton.mp he
  exact joinedBy_apart (by simpa using (List.mem_filter.mp hc).2) (hcross c hc)

/-- A group that a run touches falls on the run's side of a choice that no touch leaves. -/
theorem Component.Linked.side (h : c.Linked xb) {p : PixelRun → Prop} {q : Blob → Prop} (hclosed : c.Closed xb p q)
    (ht : c.touchedBy xb r = true) (hruns : ∀ x ∈ c.runs, r.Meets xb x.lo x.hi → (p r ↔ p x))
    (hblobs : ∀ b ∈ c.blobs, r.Meets xb b.frontLo b.frontHi → (p r ↔ q b)) :
    (p r → c.All p q) ∧ (¬ p r → c.All (fun r => ¬ p r) fun b => ¬ q b) := by
  rcases Component.touchedBy_iff.mp ht with ⟨x, hx, hm⟩ | ⟨b, hb, hm⟩
  · rcases h p q hclosed with hall | hnone
    · exact ⟨fun _ => hall, fun hr => absurd ((hruns x hx hm).mpr (hall.1 x hx)) hr⟩
    · exact ⟨fun hr => absurd ((hruns x hx hm).mp hr) (hnone.1 x hx), fun _ => hnone⟩
  · rcases h p q hclosed with hall | hnone
    · exact ⟨fun _ => hall, fun hr => absurd ((hblobs b hb hm).mpr (hall.2 b hb)) hr⟩
    · exact ⟨fun hr => absurd ((hblobs b hb hm).mp hr) (hnone.2 b hb), fun _ => hnone⟩

theorem joinedBy_linked {cs : List Component} (h : ∀ c ∈ cs, c.Linked xb) (r : PixelRun) : (joinedBy xb cs r).Linked xb := by
  intro p q hclosed
  obtain ⟨hruns, hblobs⟩ := hclosed
  have hr : r ∈ (joinedBy xb cs r).runs := List.mem_append_right _ (List.mem_singleton_self r)
  have hrun : ∀ c ∈ cs.filter (Component.touchedBy xb · r), ∀ x ∈ c.runs, x ∈ (joinedBy xb cs r).runs :=
    fun c hc x hx => List.mem_append_left _ (List.mem_flatMap.mpr ⟨c, hc, hx⟩)
  have hblob : ∀ c ∈ cs.filter (Component.touchedBy xb · r), ∀ b ∈ c.blobs, b ∈ (joinedBy xb cs r).blobs :=
    fun c hc b hb => List.mem_flatMap.mpr ⟨c, hc, hb⟩
  have hside : ∀ c ∈ cs.filter (Component.touchedBy xb · r),
      (p r → c.All p q) ∧ (¬ p r → c.All (fun r => ¬ p r) fun b => ¬ q b) := fun c hc => by
    obtain ⟨hmem, ht⟩ := List.mem_filter.mp hc
    refine (h c hmem).side ⟨fun x hx y hy => hruns x (hrun c hc x hx) y (hrun c hc y hy),
      fun x hx b hb => hblobs x (hrun c hc x hx) b (hblob c hc b hb)⟩ ht (fun x hx hm => ?_)
      fun b hb => hblobs r hr b (hblob c hc b hb)
    exact ⟨hruns r hr x (hrun c hc x hx) hm, hruns x (hrun c hc x hx) r hr (PixelRun.meets_symm.mp hm)⟩
  have hall : ∀ (p' : PixelRun → Prop) (q' : Blob → Prop), p' r →
      (∀ c ∈ cs.filter (Component.touchedBy xb · r), c.All p' q') → (joinedBy xb cs r).All p' q' := fun p' q' hp hcs => by
    refine ⟨fun x hx => ?_, fun b hb => ?_⟩
    · rcases List.mem_append.mp hx with hx | hx
      · obtain ⟨c, hc, hxc⟩ := List.mem_flatMap.mp hx
        exact (hcs c hc).1 x hxc
      · exact List.mem_singleton.mp hx ▸ hp
    · obtain ⟨c, hc, hbc⟩ := List.mem_flatMap.mp hb
      exact (hcs c hc).2 b hbc
  by_cases hp : p r
  · exact .inl (hall p q hp fun c hc => (hside c hc).1 hp)
  · exact .inr (hall _ _ hp fun c hc => (hside c hc).2 hp)

/-! ### The groups of a line -/

/-- The groups once some runs of the line are added: they hold those runs and the blobs, each is connected, and they are apart. -/
structure Grouped (xb : Nat) (blobs : List Blob) (runs : List PixelRun) (cs : List Component) : Prop where
  runs : (cs.flatMap (·.runs)).Perm runs
  blobs : (cs.flatMap (·.blobs)).Perm blobs
  apart : cs.Pairwise (Component.Apart xb)
  linked : ∀ c ∈ cs, c.Linked xb

theorem grouped_blobs (xb : Nat) (blobs : List Blob) :
    Grouped xb blobs [] (blobs.map fun b => { runs := [], blobs := [b] }) where
  runs := by simp [List.flatMap_map]
  blobs := by simp [List.flatMap_map]
  apart := List.pairwise_map.mpr (List.pairwise_of_forall fun _ _ => ⟨by simp, by simp⟩)
  linked := by
    intro c hc p q _
    obtain ⟨b, _, rfl⟩ := List.mem_map.mp hc
    by_cases hq : q b
    · exact .inl ⟨by simp, by simpa using hq⟩
    · exact .inr ⟨by simp, by simpa using hq⟩

theorem Grouped.addRun {blobs : List Blob} {runs : List PixelRun} {cs : List Component} (h : Grouped xb blobs runs cs)
    (r : PixelRun) : Grouped xb blobs (runs ++ [r]) (addRun xb cs r) where
  runs := (addRun_runs xb cs r).trans (h.runs.append_right _)
  blobs := (addRun_blobs xb cs r).trans h.blobs
  apart := addRun_apart h.apart r
  linked c hc := by
    rw [addRun_eq] at hc
    rcases List.mem_append.mp hc with hc | hc
    · exact h.linked c (List.mem_of_mem_filter hc)
    · exact List.mem_singleton.mp hc ▸ joinedBy_linked h.linked r

theorem Grouped.foldl_addRun {blobs : List Blob} : ∀ (rs : List PixelRun) {runs : List PixelRun} {cs : List Component},
    Grouped xb blobs runs cs → Grouped xb blobs (runs ++ rs) (rs.foldl (Machine.addRun xb) cs)
  | [], _, _, h => (List.append_nil _).symm ▸ h
  | r :: rs, runs, _, h => by
    have := Grouped.foldl_addRun rs (h.addRun r)
    rwa [List.append_assoc] at this

/-- The groups of a line before those without a run are dropped (R63). -/
def groupsOf (xb : Nat) (blobs : List Blob) (runs : List PixelRun) : List Component :=
  runs.foldl (addRun xb) (blobs.map fun b => { runs := [], blobs := [b] })

theorem groupsOf_grouped (xb : Nat) (blobs : List Blob) (runs : List PixelRun) :
    Grouped xb blobs runs (groupsOf xb blobs runs) := Grouped.foldl_addRun runs (grouped_blobs xb blobs)

theorem components_eq (xb : Nat) (blobs : List Blob) (runs : List PixelRun) :
    components xb blobs runs = (groupsOf xb blobs runs).filter fun c => !c.runs.isEmpty := rfl

/-! ### The components of a line -/

variable (xb) (blobs : List Blob) (runs : List PixelRun)

theorem components_runs_ne_nil : ∀ c ∈ components xb blobs runs, c.runs ≠ [] := fun c hc => by
  simpa using (List.mem_filter.mp hc).2

theorem components_runs : ((components xb blobs runs).flatMap (·.runs)).Perm runs := by
  have hdropped : ((groupsOf xb blobs runs).filter fun c => !!c.runs.isEmpty).flatMap (·.runs) = [] :=
    List.flatMap_eq_nil_iff.mpr fun c hc => by simpa using (List.mem_filter.mp hc).2
  have hall := (List.filter_append_perm (fun c : Component => !c.runs.isEmpty) (groupsOf xb blobs runs)).flatMap_right (·.runs)
  rw [List.flatMap_append, hdropped, List.append_nil] at hall
  exact hall.trans (groupsOf_grouped xb blobs runs).runs

/-- The blobs that no run reaches are those of the groups without a run. -/
theorem components_blobs : ∃ others : List Blob, ((components xb blobs runs).flatMap (·.blobs) ++ others).Perm blobs ∧
    ∀ b ∈ others, ∀ r ∈ runs, ¬ r.Meets xb b.frontLo b.frontHi := by
  have h := groupsOf_grouped xb blobs runs
  have hperm := List.filter_append_perm (fun c : Component => !c.runs.isEmpty) (groupsOf xb blobs runs)
  refine ⟨((groupsOf xb blobs runs).filter fun c => !!c.runs.isEmpty).flatMap (·.blobs), ?_, fun b hb r hr => ?_⟩
  · rw [components_eq, ← List.flatMap_append]
    exact (hperm.flatMap_right _).trans h.blobs
  · obtain ⟨e, he, hbe⟩ := List.mem_flatMap.mp hb
    obtain ⟨c, hc, hrc⟩ := List.mem_flatMap.mp ((components_runs xb blobs runs).mem_iff.mpr hr)
    have hcross := (List.pairwise_append.mp (hperm.symm.pairwise h.apart fun hab => hab.symm)).2.2
    exact ((hcross c hc e he).1 r hrc).2 b hbe

theorem components_apart : (components xb blobs runs).Pairwise (Component.Apart xb) :=
  (groupsOf_grouped xb blobs runs).apart.sublist List.filter_sublist

theorem components_linked : ∀ c ∈ components xb blobs runs, c.Linked xb := fun c hc =>
  (groupsOf_grouped xb blobs runs).linked c (List.mem_of_mem_filter hc)

end

/-- A connected group that a choice splits has a touch between the two sides. -/
theorem Component.Linked.crossed {xb : Nat} {c : Component} (h : c.Linked xb) {p : PixelRun → Prop} {q : Blob → Prop}
    (hin : (∃ r ∈ c.runs, p r) ∨ ∃ b ∈ c.blobs, q b) (hout : (∃ r ∈ c.runs, ¬ p r) ∨ ∃ b ∈ c.blobs, ¬ q b) :
    (∃ r ∈ c.runs, ∃ x ∈ c.runs, p r ∧ ¬ p x ∧ r.Meets xb x.lo x.hi) ∨
      ∃ r ∈ c.runs, ∃ b ∈ c.blobs, (p r ↔ ¬ q b) ∧ r.Meets xb b.frontLo b.frontHi := by
  by_contra hno
  obtain ⟨hruns, hblobs⟩ := not_or.mp hno
  have hclosed : c.Closed xb p q :=
    ⟨fun r hr x hx hm hp => by_contra fun hx' => hruns ⟨r, hr, x, hx, hp, hx', hm⟩,
      fun r hr b hb hm => not_iff_not.mp (not_iff.mp fun hiff => hblobs ⟨r, hr, b, hb, hiff, hm⟩)⟩
  rcases h p q hclosed with ⟨hr, hb⟩ | ⟨hr, hb⟩
  · rcases hout with ⟨r, hmem, hn⟩ | ⟨b, hmem, hn⟩
    · exact hn (hr r hmem)
    · exact hn (hb b hmem)
  · rcases hin with ⟨r, hmem, hy⟩ | ⟨b, hmem, hy⟩
    · exact hr r hmem hy
    · exact hb b hmem hy

/-! ### One component -/

theorem foldl_addRun_one {xb : Nat} {blobs : List Blob} (hne : blobs ≠ []) : ∀ (rs runs : List PixelRun),
    (∀ r ∈ rs, ∀ b ∈ blobs, r.Meets xb b.frontLo b.frontHi) →
    rs.foldl (addRun xb) [{ runs := runs, blobs := blobs }] = [{ runs := runs ++ rs, blobs := blobs }]
  | [], runs, _ => by simp
  | r :: rs, runs, h => by
    obtain ⟨hr, hrs⟩ := List.forall_mem_cons.mp h
    obtain ⟨b, hb⟩ := List.exists_mem_of_ne_nil blobs hne
    have ht : ({ runs := runs, blobs := blobs } : Component).touchedBy xb r = true :=
      Component.touchedBy_iff.mpr (.inr ⟨b, hb, hr b hb⟩)
    have hstep : addRun xb [{ runs := runs, blobs := blobs }] r = [{ runs := runs ++ [r], blobs := blobs }] := by
      simp [addRun, ht]
    rw [List.foldl_cons, hstep, foldl_addRun_one hne rs _ hrs, List.append_assoc]
    rfl

/-- Runs that all touch every blob are one component with them (R63). -/
theorem components_all_meet {xb : Nat} {blobs : List Blob} {runs : List PixelRun} (hb : blobs ≠ []) (hr : runs ≠ [])
    (h : ∀ r ∈ runs, ∀ b ∈ blobs, r.Meets xb b.frontLo b.frontHi) :
    components xb blobs runs = [{ runs := runs, blobs := blobs }] := by
  obtain ⟨r, rs, rfl⟩ := List.exists_cons_of_ne_nil hr
  obtain ⟨hfirst, hrest⟩ := List.forall_mem_cons.mp h
  have ht : ∀ c ∈ blobs.map (fun b => ({ runs := [], blobs := [b] } : Component)), c.touchedBy xb r = true := fun c hc => by
    obtain ⟨b, hb, rfl⟩ := List.mem_map.mp hc
    exact Component.touchedBy_iff.mpr (.inr ⟨b, List.mem_singleton_self b, hfirst b hb⟩)
  have hhit : (blobs.map fun b => ({ runs := [], blobs := [b] } : Component)).filter (Component.touchedBy xb · r) =
      blobs.map fun b => { runs := [], blobs := [b] } := List.filter_eq_self.mpr ht
  have hleft : (blobs.map fun b => ({ runs := [], blobs := [b] } : Component)).filter (fun c => !c.touchedBy xb r) = [] :=
    List.filter_eq_nil_iff.mpr fun c hc => by simp [ht c hc]
  have hstep : addRun xb (blobs.map fun b => { runs := [], blobs := [b] }) r = [{ runs := [r], blobs := blobs }] := by
    rw [addRun_eq, joinedBy, hhit, hleft]
    simp [List.flatMap_map]
  rw [components, List.foldl_cons, hstep, foldl_addRun_one hb rs _ hrest]
  rfl

/-- A lone run that touches no blob is a component by itself (R63). -/
theorem components_lone {xb : Nat} {blobs : List Blob} {r : PixelRun}
    (h : ∀ b ∈ blobs, ¬ r.Meets xb b.frontLo b.frontHi) : components xb blobs [r] = [{ runs := [r], blobs := [] }] := by
  have ht : ∀ c ∈ blobs.map (fun b => ({ runs := [], blobs := [b] } : Component)), ¬ c.touchedBy xb r = true := fun c hc => by
    obtain ⟨b, hb, rfl⟩ := List.mem_map.mp hc
    rw [Component.touchedBy_iff]
    simpa using h b hb
  have hhit : (blobs.map fun b => ({ runs := [], blobs := [b] } : Component)).filter (Component.touchedBy xb · r) = [] :=
    List.filter_eq_nil_iff.mpr ht
  rw [components, List.foldl_cons, List.foldl_nil, addRun_eq, joinedBy, hhit, List.filter_append, List.filter_filter]
  simp

end Sys2Proof.Machine
end

section
/-! What a blob comes to hold: the records merged into it and the runs that extend it (R64, R65, R68). -/

namespace Sys2Proof.Machine

/-! ### The lowest and the highest of a list -/

theorem min?_eq_least {l : List Nat} (h : l ≠ []) : l.min? = some (least l) := by
  obtain ⟨x, xs, rfl⟩ := List.exists_cons_of_ne_nil h
  rw [List.min?_cons']
  simp [least]

theorem least_mem {l : List Nat} (h : l ≠ []) : least l ∈ l := (List.min?_eq_some_iff.mp (min?_eq_least h)).1

theorem least_le {l : List Nat} {x : Nat} (h : x ∈ l) : least l ≤ x :=
  (List.min?_eq_some_iff.mp (min?_eq_least (List.ne_nil_of_mem h))).2 x h

theorem min?_perm {l m : List Nat} (h : l.Perm m) : l.min? = m.min? :=
  Option.ext fun a => by simp only [List.min?_eq_some_iff, h.mem_iff]

theorem least_perm {l m : List Nat} (h : l.Perm m) : least l = least m := by
  by_cases hl : l = []
  · subst hl
    rw [h.nil_eq]
  · have hm : m ≠ [] := fun hm => hl (List.perm_nil.mp (hm ▸ h))
    exact Option.some.inj ((min?_eq_least hl).symm.trans ((min?_perm h).trans (min?_eq_least hm)))

theorem most_perm {l m : List Nat} (h : l.Perm m) : most l = most m := h.foldl_eq 0

theorem most_append (l m : List Nat) : most (l ++ m) = m.foldl max (most l) := List.foldl_append

theorem least_append {l : List Nat} (h : l ≠ []) (m : List Nat) : least (l ++ m) = m.foldl min (least l) := by
  obtain ⟨x, xs, rfl⟩ := List.exists_cons_of_ne_nil h
  simp [least]

theorem least_cons (x : Nat) (xs : List Nat) : least (x :: xs) = xs.foldl min x := by simp [least]

theorem most_cons (x : Nat) (xs : List Nat) : most (x :: xs) = xs.foldl max x := by simp [most]

/-! ### One item of a record that is folded -/

section
variable {α β γ δ : Type} {f : β → α → β}

theorem foldl_item {g : β → γ} {h : γ → δ → γ} {p : α → δ} (hf : ∀ b a, g (f b a) = h (g b) (p a)) :
    ∀ (l : List α) (b : β), g (l.foldl f b) = (l.map p).foldl h (g b)
  | [], _ => rfl
  | a :: l, b => by rw [List.foldl_cons, foldl_item hf l, hf]; rfl

theorem foldl_kept {g : β → γ} (hf : ∀ b a, g (f b a) = g b) (l : List α) (b : β) : g (l.foldl f b) = g b :=
  List.foldlRecOn (motive := fun x => g x = g b) l f rfl fun x hx a _ => (hf x a).trans hx

theorem foldl_flag {g : β → Bool} {p : α → Bool} (hf : ∀ b a, g (f b a) = (g b || p a)) : ∀ (l : List α) (b : β),
    g (l.foldl f b) = true ↔ g b = true ∨ ∃ a ∈ l, p a = true
  | [], b => by simp
  | a :: l, b => by
    rw [List.foldl_cons, foldl_flag hf l, hf]
    simp [or_assoc]

/-- A total that saturates is the sum cut at the limit, once something has been added to it. -/
theorem foldl_total {g : β → Nat} {p : α → Nat} (hf : ∀ b a, g (f b a) = satAdd max32 (g b) (p a)) : ∀ {l : List α} (b : β),
    l ≠ [] → g (l.foldl f b) = min max32 (g b + (l.map p).sum)
  | [a], b, _ => by simp [hf, satAdd]
  | a :: a' :: l, b, _ => by
    rw [List.foldl_cons, foldl_total hf _ (List.cons_ne_nil a' l), hf, satAdd]
    simp only [List.map_cons, List.sum_cons]
    omega

theorem foldl_total_cut {g : β → Nat} {p : α → Nat} (hf : ∀ b a, g (f b a) = satAdd max32 (g b) (p a)) (l : List α) (b : β) :
    min max32 (g (l.foldl f b)) = min max32 (g b + (l.map p).sum) := by
  by_cases h : l = []
  · subst h; rfl
  · rw [foldl_total hf b h]; omega

end

theorem cut_add_congr {m x y : Nat} (h : min m x = min m y) (z : Nat) : min m (x + z) = min m (y + z) := by omega

/-! ### The lowest previous flaw -/

theorem foldl_lowerOf {α : Type} (p : α → Option Nat) : ∀ (l : List α) (o : Option Nat),
    l.foldl (fun o x => lowerOf o (p x)) o = (o.toList ++ l.filterMap p).min?
  | [], o => by cases o <;> rfl
  | x :: l, o => by
    rw [List.foldl_cons, foldl_lowerOf p l]
    cases hp : p x <;> cases o <;> simp [hp, lowerOf]
    cases (l.filterMap p).min? <;> simp [Nat.min_assoc]

/-- The lowest flaw number of the markers that the runs touch (R68). -/
theorem continuedFrom_eq (xb : Nat) (markers : List Marker) (runs : List PixelRun) :
    continuedFrom xb markers runs = ((markers.filter fun m => runs.any fun r => touches xb r m.lo m.hi).map (·.flaw)).min? := by
  rw [continuedFrom, ← List.foldl_filter, foldl_lowerOf (fun m : Marker => some m.flaw)]
  simp

/-! ### Runs that extend a record -/

theorem Blob.fold_lanes (b : Blob) (r : PixelRun) (k : LaneId) : (b.fold r).lanes[k] = (b.lanes[k] || decide (r.lane = k)) := by
  show (upd b.lanes r.lane fun _ => true)[k] = _
  by_cases h : k = r.lane
  · subst h
    rw [upd_same]
    simp
  · rw [upd_other _ _ _ _ h]
    simp [Ne.symm h]

/-- A blob extended by runs, whose front is theirs alone (R64). -/
theorem Blob.extend_eq (b : Blob) (n : Nat) {runs : List PixelRun} (hr : runs ≠ []) : b.extend n runs =
    { runs.foldl Blob.fold b with front := n, frontLo := least (runs.map (·.lo)), frontHi := most (runs.map (·.hi)) } := by
  obtain ⟨r, rest, rfl⟩ := List.exists_cons_of_ne_nil hr
  rw [List.map_cons, least_cons, List.map_cons, most_cons]
  rfl

/-- What neither a run nor a new front changes, an extension keeps. -/
theorem Blob.extend_keeps {β : Type} (g : Blob → β) (hfold : ∀ b r, g (b.fold r) = g b)
    (hfront : ∀ (b : Blob) f lo hi, g { b with front := f, frontLo := lo, frontHi := hi } = g b) (b : Blob) (n : Nat)
    (runs : List PixelRun) : g (b.extend n runs) = g b := by
  unfold Blob.extend
  split
  · rfl
  · exact (hfront _ _ _ _).trans (foldl_kept hfold _ _)

/-- What a blob holds that runs of line n have made of the blobs they reach, PARTIAL_VIEW of the line apart (R64). -/
structure Blob.Grown (n : Nat) (olds : List Blob) (runs : List PixelRun) (b : Blob) : Prop where
  front : b.front = n
  frontLo : b.frontLo = least (runs.map (·.lo))
  frontHi : b.frontHi = most (runs.map (·.hi))
  lo : b.lo = least (olds.map (·.lo) ++ runs.map (·.lo))
  hi : b.hi = most (olds.map (·.hi) ++ runs.map (·.hi))
  dark : b.dark = true ↔ (∃ o ∈ olds, o.dark = true) ∨ ∃ r ∈ runs, r.polarity ≠ .bright
  bright : b.bright = true ↔ (∃ o ∈ olds, o.bright = true) ∨ ∃ r ∈ runs, r.polarity ≠ .dark
  level : b.level.code = most (olds.map (·.level.code) ++ runs.map (·.level.code))
  peak : b.peak = most (olds.map (·.peak) ++ runs.map (·.peak))
  sum : b.sum = min 4294967295 ((olds.map (·.sum)).sum + (runs.map (·.sum)).sum)
  area : b.area = min 4294967295 ((olds.map (·.area)).sum + (runs.map fun r => r.last - r.first + 1).sum)
  lanes : ∀ k : LaneId, b.lanes[k] = true ↔ (∃ o ∈ olds, o.lanes[k] = true) ∨ ∃ r ∈ runs, r.lane = k
  merged : b.flags.merged = true ↔ 1 < olds.length ∨ ∃ o ∈ olds, o.flags.merged = true
  crowded : b.flags.crowded = true ↔ (∃ o ∈ olds, o.flags.crowded = true) ∨ ∃ r ∈ runs, r.crowded = true
  partialView : b.flags.partialView = true ↔ ∃ o ∈ olds, o.flags.partialView = true

/-- What a record holds of the blobs merged into it, as the runs come to it: its extent, level and peak may be those of a run
already, its totals are cut at the limit (R64). -/
structure Blob.Bases (olds : List Blob) (runs : List PixelRun) (b : Blob) : Prop where
  lo : (runs.map (·.lo)).foldl min b.lo = least (olds.map (·.lo) ++ runs.map (·.lo))
  hi : (runs.map (·.hi)).foldl max b.hi = most (olds.map (·.hi) ++ runs.map (·.hi))
  dark : b.dark = true ↔ ∃ o ∈ olds, o.dark = true
  bright : b.bright = true ↔ ∃ o ∈ olds, o.bright = true
  level : (runs.map (·.level.code)).foldl max b.level.code = most (olds.map (·.level.code) ++ runs.map (·.level.code))
  peak : (runs.map (·.peak)).foldl max b.peak = most (olds.map (·.peak) ++ runs.map (·.peak))
  sum : min max32 b.sum = min max32 (olds.map (·.sum)).sum
  area : min max32 b.area = min max32 (olds.map (·.area)).sum
  lanes : ∀ k : LaneId, b.lanes[k] = true ↔ ∃ o ∈ olds, o.lanes[k] = true
  merged : b.flags.merged = true ↔ 1 < olds.length ∨ ∃ o ∈ olds, o.flags.merged = true
  crowded : b.flags.crowded = true ↔ ∃ o ∈ olds, o.flags.crowded = true
  partialView : b.flags.partialView = true ↔ ∃ o ∈ olds, o.flags.partialView = true

/-- A record extended by the runs of line n (R64). -/
theorem Blob.Bases.grown {n : Nat} {olds : List Blob} {runs : List PixelRun} {b : Blob} (h : b.Bases olds runs)
    (hr : runs ≠ []) : (b.extend n runs).Grown n olds runs := by
  rw [Blob.extend_eq b n hr]
  exact {
    front := rfl
    frontLo := rfl
    frontHi := rfl
    lo := (foldl_item (g := Blob.lo) (p := PixelRun.lo) (fun _ _ => rfl) runs b).trans h.lo
    hi := (foldl_item (g := Blob.hi) (p := PixelRun.hi) (fun _ _ => rfl) runs b).trans h.hi
    dark := by
      rw [foldl_flag (g := Blob.dark) (p := fun r => decide (r.polarity ≠ .bright)) (fun _ _ => rfl), h.dark]
      simp
    bright := by
      rw [foldl_flag (g := Blob.bright) (p := fun r => decide (r.polarity ≠ .dark)) (fun _ _ => rfl), h.bright]
      simp
    level := (foldl_item (g := fun b : Blob => b.level.code) (p := fun r => r.level.code)
      (fun b r => severity_code_max b.level r.level) runs b).trans h.level
    peak := (foldl_item (g := Blob.peak) (p := PixelRun.peak) (fun _ _ => rfl) runs b).trans h.peak
    sum := (foldl_total (f := Blob.fold) (g := Blob.sum) (p := PixelRun.sum) (fun _ _ => rfl) b hr).trans
      (cut_add_congr h.sum _)
    area := (foldl_total (f := Blob.fold) (g := Blob.area) (p := fun r : PixelRun => r.last - r.first + 1)
      (fun _ _ => rfl) b hr).trans (cut_add_congr h.area _)
    lanes := fun k => by
      rw [foldl_flag (g := fun b : Blob => b.lanes[k]) (fun b r => Blob.fold_lanes b r k), h.lanes]
      simp
    merged := (congrArg (· = true) (foldl_kept (f := Blob.fold) (g := fun b : Blob => b.flags.merged)
      (fun _ _ => rfl) runs b)).to_iff.trans h.merged
    crowded := by
      rw [foldl_flag (g := fun b : Blob => b.flags.crowded) (p := PixelRun.crowded) (fun _ _ => rfl), h.crowded]
    partialView := (congrArg (· = true) (foldl_kept (f := Blob.fold) (g := fun b : Blob => b.flags.partialView)
      (fun _ _ => rfl) runs b)).to_iff.trans h.partialView }

/-! ### Records merged -/

theorem Blob.merge_lanes (b o : Blob) (k : LaneId) : (b.merge o).lanes[k] = (b.lanes[k] || o.lanes[k]) :=
  foldl_upd_allLanes (fun k x => x || o.lanes[k]) b.lanes k

theorem Blob.foldl_merge_merged : ∀ (others : List Blob) (b : Blob),
    (others.foldl Blob.merge b).flags.merged = true ↔ 0 < others.length ∨ b.flags.merged = true
  | [], b => by simp
  | o :: others, b => by
    rw [List.foldl_cons, Blob.foldl_merge_merged others]
    simp [Blob.merge]

/-- The record that the others are folded into (R64). -/
theorem Blob.bases_merge (b : Blob) (others : List Blob) (runs : List PixelRun) :
    (others.foldl Blob.merge b).Bases (b :: others) runs where
  lo := by
    rw [foldl_item (g := Blob.lo) (h := min) (p := Blob.lo) (fun _ _ => rfl), least_append (by simp), List.map_cons, least_cons]
  hi := by
    rw [foldl_item (g := Blob.hi) (h := max) (p := Blob.hi) (fun _ _ => rfl), most_append, List.map_cons, most_cons]
  dark := by rw [foldl_flag (g := Blob.dark) (p := Blob.dark) (fun _ _ => rfl)]; simp
  bright := by rw [foldl_flag (g := Blob.bright) (p := Blob.bright) (fun _ _ => rfl)]; simp
  level := by
    rw [foldl_item (g := fun b : Blob => b.level.code) (h := max) (p := fun b => b.level.code)
      (fun b o => severity_code_max b.level o.level), most_append, List.map_cons, most_cons]
  peak := by
    rw [foldl_item (g := Blob.peak) (h := max) (p := Blob.peak) (fun _ _ => rfl), most_append, List.map_cons, most_cons]
  sum := foldl_total_cut (g := Blob.sum) (p := Blob.sum) (fun _ _ => rfl) others b
  area := foldl_total_cut (g := Blob.area) (p := Blob.area) (fun _ _ => rfl) others b
  lanes k := by rw [foldl_flag (g := fun b : Blob => b.lanes[k]) (fun b o => Blob.merge_lanes b o k)]; simp
  merged := by
    by_cases h : others = []
    · subst h; simp
    · have hlen : 0 < others.length := List.length_pos_of_ne_nil h
      simp [Blob.foldl_merge_merged, hlen]
  crowded := by
    rw [foldl_flag (g := fun b : Blob => b.flags.crowded) (p := fun b => b.flags.crowded) (fun _ _ => rfl)]; simp
  partialView := by
    rw [foldl_flag (g := fun b : Blob => b.flags.partialView) (p := fun b => b.flags.partialView) (fun _ _ => rfl)]; simp

theorem Blob.foldl_merge_first (b : Blob) (others : List Blob) :
    (others.foldl Blob.merge b).first = least ((b :: others).map (·.first)) := by
  rw [foldl_item (g := Blob.first) (h := min) (p := Blob.first) (fun _ _ => rfl), List.map_cons, least_cons]

theorem Blob.foldl_merge_continued (b : Blob) (others : List Blob) :
    (others.foldl Blob.merge b).flags.continued = ((b :: others).filterMap (·.flags.continued)).min? := by
  rw [foldl_item (g := fun b : Blob => b.flags.continued) (h := lowerOf) (p := fun b => b.flags.continued) (fun _ _ => rfl),
    List.foldl_map, foldl_lowerOf (fun b : Blob => b.flags.continued)]
  cases h : b.flags.continued <;> simp [h]

/-- A new record, which its component's runs come to (R64). -/
theorem Blob.bases_new (id n : Nat) (r : PixelRun) (rest : List PixelRun) (continued : Option Nat) :
    (Blob.new id n r continued).Bases [] (r :: rest) where
  lo := by simp [Blob.new, least]
  hi := by simp [Blob.new, most]
  dark := by simp [Blob.new]
  bright := by simp [Blob.new]
  level := by simp [Blob.new, most]
  peak := by simp [Blob.new, most]
  sum := by simp [Blob.new]
  area := by simp [Blob.new]
  lanes k := by simp [Blob.new]
  merged := by simp [Blob.new, BlobFlags.none]
  crowded := by simp [Blob.new, BlobFlags.none]
  partialView := by simp [Blob.new, BlobFlags.none]

/-- What is gathered from blobs does not depend on their order. -/
theorem Blob.Grown.perm {n : Nat} {olds olds' : List Blob} {runs : List PixelRun} {b : Blob} (h : b.Grown n olds runs)
    (hp : olds.Perm olds') : b.Grown n olds' runs where
  front := h.front
  frontLo := h.frontLo
  frontHi := h.frontHi
  lo := h.lo.trans (least_perm ((hp.map _).append_right _))
  hi := h.hi.trans (most_perm ((hp.map _).append_right _))
  dark := by simpa only [hp.mem_iff] using h.dark
  bright := by simpa only [hp.mem_iff] using h.bright
  level := h.level.trans (most_perm ((hp.map _).append_right _))
  peak := h.peak.trans (most_perm ((hp.map _).append_right _))
  sum := by rw [h.sum, (hp.map _).sum_eq]
  area := by rw [h.area, (hp.map _).sum_eq]
  lanes k := by simpa only [hp.mem_iff] using h.lanes k
  merged := by simpa only [hp.mem_iff, hp.length_eq] using h.merged
  crowded := by simpa only [hp.mem_iff] using h.crowded
  partialView := by simpa only [hp.mem_iff] using h.partialView

end Sys2Proof.Machine
end

section
/-! How the components of a line are resolved: the blobs extended or merged, and the blobs made new (R64, R66, R68). -/

namespace Sys2Proof.Machine

/-! ### Components with blobs -/

/-- The blob that a component with blobs leaves of them: the one with the lowest id, grown; none of no blob (R64). -/
def Component.grown (n : Nat) (c : Component) : List Blob :=
  match sortBy (fun b o => decide (b.id < o.id)) c.blobs with
  | [] => []
  | b :: others => [(others.foldl Blob.merge b).extend n c.runs]

/-- Whether a component holds a blob with the id of this one. -/
def Component.holdsId (c : Component) (o : Blob) : Bool := c.blobs.any fun x => decide (x.id = o.id)

theorem Component.holdsId_iff (c : Component) (o : Blob) : c.holdsId o = true ↔ ∃ x ∈ c.blobs, x.id = o.id := by
  simp [Component.holdsId]

theorem resolveOld_eq (n : Nat) (blobs : List Blob) (c : Component) :
    resolveOld n blobs c = blobs.filter (fun o => !c.holdsId o) ++ c.grown n := by
  unfold resolveOld Component.grown
  cases h : sortBy (fun b o : Blob => decide (b.id < o.id)) c.blobs with
  | nil =>
    have hnone : c.blobs = [] := List.nil_perm.mp (h ▸ sortBy_perm _ c.blobs)
    simp [Component.holdsId, hnone]
  | cons b others => rfl

theorem least_eq {l : List Nat} {x : Nat} (hx : x ∈ l) (h : ∀ y ∈ l, x ≤ y) : least l = x :=
  Nat.le_antisymm (least_le hx) (h _ (least_mem (List.ne_nil_of_mem hx)))

/-- The blob of a component with blobs: the lowest id, the lowest first line, and the items of R64. -/
theorem Component.grown_spec {c : Component} (n : Nat) (hb : c.blobs ≠ []) (hr : c.runs ≠ []) :
    ∃ g : Blob, c.grown n = [g] ∧ g.id = least (c.blobs.map (·.id)) ∧ g.first = least (c.blobs.map (·.first)) ∧
      g.Grown n c.blobs c.runs ∧ g.flags.continued = (c.blobs.filterMap (·.flags.continued)).min? := by
  have hperm := sortBy_perm (fun b o : Blob => decide (b.id < o.id)) c.blobs
  have hsorted := sortBy_pairwise (before := fun b o : Blob => decide (b.id < o.id)) (R := fun b o : Blob => b.id ≤ o.id)
    (fun _ _ _ => Nat.le_trans) (fun a b h => by simp only [decide_eq_true_eq] at h; omega)
    (fun a b h => by simp only [decide_eq_true_eq] at h; omega) c.blobs
  unfold Component.grown
  cases h : sortBy (fun b o : Blob => decide (b.id < o.id)) c.blobs with
  | nil => exact absurd (List.nil_perm.mp (h ▸ hperm)) hb
  | cons b others =>
    rw [h] at hperm hsorted
    have hlowest : ∀ o ∈ b :: others, b.id ≤ o.id :=
      List.forall_mem_cons.mpr ⟨Nat.le_refl _, (List.pairwise_cons.mp hsorted).1⟩
    have hid : least (c.blobs.map (·.id)) = b.id :=
      (least_perm (hperm.map _).symm).trans (least_eq List.mem_cons_self (List.forall_mem_map.mpr hlowest))
    refine ⟨_, rfl, ?_, ?_, ((Blob.bases_merge b others c.runs).grown hr).perm hperm, ?_⟩
    · rw [hid, Blob.extend_keeps Blob.id (fun _ _ => rfl) (fun _ _ _ _ => rfl), foldl_kept (f := Blob.merge) (g := Blob.id) (fun _ _ => rfl)]
    · rw [Blob.extend_keeps Blob.first (fun _ _ => rfl) (fun _ _ _ _ => rfl), Blob.foldl_merge_first]
      exact least_perm (hperm.map _)
    · rw [Blob.extend_keeps (fun b : Blob => b.flags.continued) (fun _ _ => rfl) (fun _ _ _ _ => rfl),
        Blob.foldl_merge_continued]
      exact min?_perm (hperm.filterMap _)

/-- No id of one component's blobs is one of the other's. -/
def Component.IdsApart (c e : Component) : Prop := ∀ b ∈ c.blobs, ∀ o ∈ e.blobs, b.id ≠ o.id

theorem Component.grown_id {c : Component} {n : Nat} {g : Blob} (h : g ∈ c.grown n) : ∃ b ∈ c.blobs, b.id = g.id := by
  unfold Component.grown at h
  cases hs : sortBy (fun b o : Blob => decide (b.id < o.id)) c.blobs with
  | nil => rw [hs] at h; exact absurd h List.not_mem_nil
  | cons b others =>
    rw [hs] at h
    obtain rfl := List.mem_singleton.mp h
    refine ⟨b, (sortBy_perm _ c.blobs).mem_iff.mp (hs ▸ List.mem_cons_self), ?_⟩
    rw [Blob.extend_keeps Blob.id (fun _ _ => rfl) (fun _ _ _ _ => rfl), foldl_kept (f := Blob.merge) (g := Blob.id) (fun _ _ => rfl)]

/-- Components whose blobs differ in their ids are resolved side by side: the blobs of none are left, and each grows its own
(R64). -/
theorem foldl_resolveOld (n : Nat) : ∀ {cs : List Component} (blobs : List Blob), cs.Pairwise Component.IdsApart →
    cs.foldl (resolveOld n) blobs = blobs.filter (fun o => !cs.any (·.holdsId o)) ++ cs.flatMap (Component.grown n)
  | [], blobs, _ => by simp
  | c :: cs, blobs, h => by
    obtain ⟨hc, hcs⟩ := List.pairwise_cons.mp h
    have hkept : (c.grown n).filter (fun o => !cs.any (·.holdsId o)) = c.grown n := by
      refine List.filter_eq_self.mpr fun g hg => ?_
      obtain ⟨b, hb, hid⟩ := Component.grown_id hg
      have hnone : cs.any (·.holdsId g) = false := List.any_eq_false.mpr fun e he hholds => by
        obtain ⟨o, ho, hoid⟩ := (e.holdsId_iff g).mp hholds
        exact hc e he b hb o ho (hid.trans hoid.symm)
      rw [hnone]
      rfl
    rw [List.foldl_cons, resolveOld_eq, foldl_resolveOld n _ hcs, List.filter_append, hkept, List.filter_filter,
      List.flatMap_cons, List.append_assoc]
    simp [Bool.and_comm]

/-! ### New blobs -/

/-- A blob made new from runs at the join of line n, under an id (R64, R68). -/
structure Blob.Made (xb n : Nat) (markers : List Marker) (id : Nat) (runs : List PixelRun) (b : Blob) : Prop where
  id : b.id = id
  first : b.first = n
  grown : b.Grown n [] runs
  truncated : b.flags.truncated = false
  forced : b.flags.forced = false
  continued : b.flags.continued =
    ((markers.filter fun m => runs.any fun r => touches xb r m.lo m.hi).map (·.flaw)).min?

/-- Blobs made in turn from components, under ids that follow one another (R64). -/
def MadeInOrder (xb n : Nat) (markers : List Marker) (id : Nat) (ks : List Component) (news : List Blob) : Prop :=
  news.length = ks.length ∧
    ∀ (i : Nat) (k : Component) (b : Blob), ks[i]? = some k → news[i]? = some b → b.Made xb n markers (id + i) k.runs

theorem MadeInOrder.getElem? {xb n id : Nat} {markers : List Marker} {ks : List Component} {news : List Blob}
    (h : MadeInOrder xb n markers id ks news) {i : Nat} {k : Component} (hk : ks[i]? = some k) :
    ∃ b ∈ news, b.Made xb n markers (id + i) k.runs := by
  obtain ⟨hlen, hmade⟩ := h
  have hi : i < news.length := hlen ▸ (List.getElem?_eq_some_iff.mp hk).1
  exact ⟨news[i], List.getElem_mem hi, hmade i k _ hk (List.getElem?_eq_getElem hi)⟩

theorem MadeInOrder.mem {xb n id : Nat} {markers : List Marker} {ks : List Component} {news : List Blob}
    (h : MadeInOrder xb n markers id ks news) {b : Blob} (hb : b ∈ news) :
    ∃ i, ∃ k ∈ ks, b.Made xb n markers (id + i) k.runs := by
  obtain ⟨hlen, hmade⟩ := h
  obtain ⟨i, hi, rfl⟩ := List.mem_iff_getElem.mp hb
  have hk : i < ks.length := hlen ▸ hi
  exact ⟨i, ks[i], List.getElem_mem hk, hmade i _ _ (List.getElem?_eq_getElem hk) (List.getElem?_eq_getElem hi)⟩

theorem AsmStep.makeRoom_free (c : JoinContext) {r : AsmStep} (h : r.asm.blobs.length < 96) : r.makeRoom c = r :=
  if_neg (Nat.not_le.mpr h)

/-- A component without blobs makes its blob in the room there is, or that a forced closure leaves (R64, R66, R68). -/
theorem AsmStep.makeBlob_eq (c : JoinContext) (n : Nat) (r : AsmStep) {k : Component} (hr : k.runs ≠ []) :
    ∃ b : Blob, b.Made c.detect.crossBridge n (r.makeRoom c).asm.markers (r.makeRoom c).asm.nextBlob k.runs ∧
      r.makeBlob c n k = { r.makeRoom c with
        asm := { (r.makeRoom c).asm.countBlob with blobs := (r.makeRoom c).asm.blobs ++ [b] } } := by
  obtain ⟨runs, blobs⟩ := k
  obtain ⟨q, rest, rfl⟩ := List.exists_cons_of_ne_nil hr
  refine ⟨_, ?_, rfl⟩
  exact {
    id := Blob.extend_keeps Blob.id (fun _ _ => rfl) (fun _ _ _ _ => rfl) _ _ _
    first := Blob.extend_keeps Blob.first (fun _ _ => rfl) (fun _ _ _ _ => rfl) _ _ _
    grown := (Blob.bases_new _ n q rest _).grown hr
    truncated := Blob.extend_keeps (fun b : Blob => b.flags.truncated) (fun _ _ => rfl) (fun _ _ _ _ => rfl) _ _ _
    forced := Blob.extend_keeps (fun b : Blob => b.flags.forced) (fun _ _ => rfl) (fun _ _ _ _ => rfl) _ _ _
    continued := (Blob.extend_keeps (fun b : Blob => b.flags.continued) (fun _ _ => rfl) (fun _ _ _ _ => rfl) _ _ _).trans
      (continuedFrom_eq _ _ _) }

theorem Assembler.countBlob_eq {a : Assembler} (h : a.nextBlob < max32) :
    a.countBlob = { a with nextBlob := a.nextBlob + 1 } := by
  simp only [Assembler.countBlob, nextNumber, if_pos h]

/-- With room for all, the new blobs stand behind the others in turn, under the next ids (R64). -/
theorem AsmStep.foldl_makeBlob (c : JoinContext) (n : Nat) : ∀ (ks : List Component) (r : AsmStep),
    (∀ k ∈ ks, k.runs ≠ []) → r.asm.blobs.length + ks.length ≤ 96 → r.asm.nextBlob + ks.length ≤ max32 →
    ∃ news : List Blob, MadeInOrder c.detect.crossBridge n r.asm.markers r.asm.nextBlob ks news ∧
      ks.foldl (AsmStep.makeBlob c n) r = { r with
        asm := { r.asm with blobs := r.asm.blobs ++ news, nextBlob := r.asm.nextBlob + ks.length } }
  | [], r, _, _, _ => ⟨[], ⟨rfl, fun _ _ _ h => nomatch h⟩, by simp⟩
  | k :: ks, r, hruns, hroom, hnext => by
    obtain ⟨hk, hks⟩ := List.forall_mem_cons.mp hruns
    rw [List.length_cons] at hroom hnext
    obtain ⟨b, hb, hmake⟩ := AsmStep.makeBlob_eq c n r hk
    rw [AsmStep.makeRoom_free c (by omega)] at hb hmake
    rw [Assembler.countBlob_eq (by omega)] at hmake
    obtain ⟨news, ⟨hlen, hnews⟩, hfold⟩ := AsmStep.foldl_makeBlob c n ks (r.makeBlob c n k) hks
      (by rw [hmake]; simp only [List.length_append, List.length_singleton]; omega) (by rw [hmake]; dsimp only; omega)
    rw [hmake] at hfold hnews
    refine ⟨b :: news, ⟨congrArg (· + 1) hlen, fun i e o he ho => ?_⟩, ?_⟩
    · cases i with
      | zero =>
        obtain rfl := Option.some.inj he
        obtain rfl := Option.some.inj ho
        exact hb
      | succ i =>
        rw [List.getElem?_cons_succ] at he ho
        have := hnews i e o he ho
        rwa [Nat.add_right_comm] at this
    · rw [List.foldl_cons, hmake, hfold]
      simp [Nat.add_comm, Nat.add_left_comm]

/-! ### All the components of a line -/

/-- A component without blobs takes none away and grows none, so it may stand among those that are resolved first. -/
theorem foldl_resolveOld_filter (n : Nat) (cs : List Component) (blobs : List Blob) :
    (cs.filter fun k => !k.blobs.isEmpty).foldl (resolveOld n) blobs = cs.foldl (resolveOld n) blobs := by
  rw [List.foldl_filter]
  congr 1
  funext bs k
  split
  · rfl
  · rename_i h
    have hnone : k.blobs = [] := by simpa using h
    simp [resolveOld, hnone, sortBy]

/-- With room for every new blob, a line's components leave the blobs that none of them holds, the grown ones and the new
ones (R64). -/
theorem Assembler.resolve_room (a : Assembler) (c : JoinContext) (n : Nat) {cs fresh : List Component}
    (hids : cs.Pairwise Component.IdsApart) (hfresh : sortBy newBefore (cs.filter fun k => k.blobs.isEmpty) = fresh)
    (hruns : ∀ k ∈ cs, k.runs ≠ [])
    (hroom : (a.blobs.filter fun o => !cs.any (·.holdsId o)).length + (cs.flatMap (Component.grown n)).length +
      fresh.length ≤ 96)
    (hnext : a.nextBlob + fresh.length ≤ max32) :
    ∃ news : List Blob, MadeInOrder c.detect.crossBridge n a.markers a.nextBlob fresh news ∧
      a.resolve c n cs = Assembler.step { a with
        blobs := (a.blobs.filter fun o => !cs.any (·.holdsId o)) ++ cs.flatMap (Component.grown n) ++ news
        nextBlob := a.nextBlob + fresh.length } := by
  have hmem : ∀ k ∈ fresh, k.runs ≠ [] := fun k hk =>
    hruns k (List.mem_of_mem_filter ((sortBy_perm _ _).mem_iff.mp (hfresh ▸ hk)))
  unfold Assembler.resolve
  rw [hfresh, foldl_resolveOld_filter, foldl_resolveOld n a.blobs hids]
  rw [← List.length_append] at hroom
  exact AsmStep.foldl_makeBlob c n fresh (Assembler.step { a with blobs := _ }) hmem hroom hnext

/-! ### The order of the new blobs -/

/-- A component's lowest run lo and, among the runs at it, the lowest lane (R64). -/
def Component.rank (c : Component) : Nat × Nat :=
  (least (c.runs.map (·.lo)), least ((c.runs.filter fun r => decide (r.lo = least (c.runs.map (·.lo)))).map (·.lane.val)))

/-- A rank stands before another by its first number, then by its second. -/
def rankBefore (x y : Nat × Nat) : Prop := x.1 < y.1 ∨ (x.1 = y.1 ∧ x.2 < y.2)

theorem runKey_eq {c : Component} (hr : c.runs ≠ []) : runKey c.runs = c.rank := by
  let before : PixelRun → PixelRun → Bool := fun r q =>
    decide (r.lo < q.lo) || (decide (r.lo = q.lo) && decide (r.lane.val < q.lane.val))
  have hperm := sortBy_perm before c.runs
  have hsorted := sortBy_pairwise (before := before)
    (R := fun r q : PixelRun => r.lo < q.lo ∨ (r.lo = q.lo ∧ r.lane.val ≤ q.lane.val)) (fun a b c => by omega)
    (fun a b h => by simp only [before, Bool.or_eq_true, Bool.and_eq_true, decide_eq_true_eq] at h; omega)
    (fun a b h => by simp only [before, Bool.or_eq_true, Bool.and_eq_true, decide_eq_true_eq] at h; omega) c.runs
  show (match sortBy before c.runs with | [] => (0, 0) | r :: _ => (r.lo, r.lane.val)) = _
  cases h : sortBy before c.runs with
  | nil => exact absurd (List.nil_perm.mp (h ▸ hperm)) hr
  | cons r rest =>
    rw [h] at hperm hsorted
    have hmem : ∀ q, q ∈ c.runs ↔ q ∈ r :: rest := fun q => hperm.mem_iff.symm
    have hlowest : ∀ q ∈ c.runs, r.lo < q.lo ∨ (r.lo = q.lo ∧ r.lane.val ≤ q.lane.val) := fun q hq =>
      (List.mem_cons.mp ((hmem q).mp hq)).elim (fun hqr => .inr ⟨hqr ▸ rfl, hqr ▸ Nat.le_refl _⟩)
        ((List.pairwise_cons.mp hsorted).1 q)
    have hr' : r ∈ c.runs := (hmem r).mpr List.mem_cons_self
    have hlo : least (c.runs.map (·.lo)) = r.lo := least_eq (List.mem_map_of_mem hr')
      (List.forall_mem_map.mpr fun q hq => by have := hlowest q hq; omega)
    have hlane : least ((c.runs.filter fun q => decide (q.lo = r.lo)).map (·.lane.val)) = r.lane.val := by
      refine least_eq (List.mem_map.mpr ⟨r, List.mem_filter.mpr ⟨hr', decide_eq_true rfl⟩, rfl⟩)
        (List.forall_mem_map.mpr fun q hq => ?_)
      obtain ⟨hq, hqlo⟩ := List.mem_filter.mp hq
      have hlow := hlowest q hq
      have hat : q.lo = r.lo := of_decide_eq_true hqlo
      omega
    unfold Component.rank
    rw [hlo, hlane]

theorem newBefore_iff (c e : Component) : newBefore c e = true ↔ rankBefore (runKey c.runs) (runKey e.runs) := by
  simp [newBefore, rankBefore]

/-- The order of the new blobs is the one that their ranks give (R64). -/
theorem sortBy_newBefore {cs fresh : List Component} (hruns : ∀ c ∈ cs, c.runs ≠ []) (hperm : fresh.Perm cs)
    (hsorted : fresh.Pairwise fun c e => rankBefore c.rank e.rank) : sortBy newBefore cs = fresh := by
  have hbefore : ∀ c ∈ fresh, ∀ e ∈ fresh, newBefore c e = true ↔ rankBefore c.rank e.rank := fun c hc e he => by
    rw [newBefore_iff, runKey_eq (hruns c (hperm.mem_iff.mp hc)), runKey_eq (hruns e (hperm.mem_iff.mp he))]
  have hsort : (sortBy newBefore cs).Pairwise fun c e => ¬ newBefore e c = true :=
    sortBy_pairwise (fun a b c => by simp only [newBefore_iff, rankBefore]; omega)
      (fun a b h => by simp only [newBefore_iff, rankBefore] at *; omega) (fun _ _ h => h) cs
  have hfresh : fresh.Pairwise fun c e => ¬ newBefore e c = true := hsorted.imp_of_mem fun {c e} hc he h => by
    rw [hbefore e he c hc]
    unfold rankBefore at *
    omega
  refine List.Perm.eq_of_pairwise (fun c e hc he hce hec => ?_) hsort hfresh ((sortBy_perm _ _).trans hperm.symm)
  by_contra hne
  have hc' := hperm.mem_iff.mpr ((sortBy_perm _ _).mem_iff.mp hc)
  have _ : Std.Symm fun c e : Component => rankBefore c.rank e.rank ∨ rankBefore e.rank c.rank := ⟨fun _ _ => Or.symm⟩
  rcases (hsorted.imp Or.inl : fresh.Pairwise fun c e => rankBefore c.rank e.rank ∨ rankBefore e.rank c.rank).forall
    hc' he hne with h | h
  · exact hec ((hbefore c hc' e he).mpr h)
  · exact hce ((hbefore e he c hc').mpr h)

end Sys2Proof.Machine
end

section
/-! The join of line J + 1 as a whole (R61 to R68); with it O32. -/

namespace Sys2Proof.Machine

/-! ### The marked blobs -/

section
variable {sh : Shadow} {n : Nat} {entries : LaneId → Option JoinEntry}

theorem uninspected_iff (e : Option JoinEntry) : uninspected e = true ↔ ∀ x, e = some x → x.blind = true := by
  cases e <;> simp [uninspected]

/-- PARTIAL_VIEW is due where a lane that meets the blob and the net range did not inspect the line (R65). -/
theorem partialAt_iff (b : Blob) : partialAt sh entries b = true ↔ ∃ k : LaneId,
    (∀ x, entries k = some x → x.blind = true) ∧ sh.netLo ≤ sh.lanes[k].ownHi ∧ sh.lanes[k].ownLo ≤ sh.netHi ∧
      sh.lanes[k].ownLo ≤ b.hi ∧ b.lo ≤ sh.lanes[k].ownHi := by
  have hall : ∀ k : LaneId, k ∈ allLanes := by decide
  simp only [partialAt, List.any_eq_true, hall, true_and, meetsNet, Bool.and_eq_true, decide_eq_true_eq, uninspected_iff]
  exact exists_congr fun k => by tauto

theorem Blob.marked_partialView {b : Blob} (h : b.front = n) : (b.marked sh n entries).flags.partialView = true ↔
    b.flags.partialView = true ∨ partialAt sh entries b = true := by
  unfold Blob.marked
  by_cases hp : partialAt sh entries b = true <;> simp [h, hp]

/-- A grown blob of the line, once marked, is what the runs make of the blobs they reach (R64, R65). -/
theorem Blob.Grown.grownFrom {olds : List Blob} {runs : List PixelRun} {b : Blob} (h : b.Grown n olds runs) :
    (b.marked sh n entries).grownFrom sh n entries olds runs := by
  have hkeeps {β : Type} (f : Blob → β) (hf : ∀ (b : Blob) v, f { b with flags := { b.flags with partialView := v } } = f b) :
    f (b.marked sh n entries) = f b := Blob.marked_keeps f hf b
  refine ⟨(hkeeps Blob.front fun _ _ => rfl).trans h.front, (hkeeps Blob.frontLo fun _ _ => rfl).trans h.frontLo,
    (hkeeps Blob.frontHi fun _ _ => rfl).trans h.frontHi, (hkeeps Blob.lo fun _ _ => rfl).trans h.lo,
    (hkeeps Blob.hi fun _ _ => rfl).trans h.hi, ?_, ?_, (hkeeps (fun b => b.level.code) fun _ _ => rfl).trans h.level,
    (hkeeps Blob.peak fun _ _ => rfl).trans h.peak, (hkeeps Blob.sum fun _ _ => rfl).trans h.sum,
    (hkeeps Blob.area fun _ _ => rfl).trans h.area, fun k => ?_, ?_, ?_, ?_⟩
  · rw [hkeeps Blob.dark fun _ _ => rfl]; exact h.dark
  · rw [hkeeps Blob.bright fun _ _ => rfl]; exact h.bright
  · rw [hkeeps (fun b => b.lanes[k]) fun _ _ => rfl]; exact h.lanes k
  · rw [hkeeps (fun b => b.flags.merged) fun _ _ => rfl]; exact h.merged
  · rw [hkeeps (fun b => b.flags.crowded) fun _ _ => rfl]; exact h.crowded
  · rw [Blob.marked_partialView h.front, h.partialView, partialAt_iff, hkeeps Blob.hi fun _ _ => rfl,
      hkeeps Blob.lo fun _ _ => rfl]

theorem map_marked_others {blobs : List Blob} (h : ∀ b ∈ blobs, b.front ≠ n) :
    blobs.map (Blob.marked sh n entries) = blobs :=
  (List.map_congr_left fun b hb => Blob.marked_of_front b (h b hb)).trans (List.map_id _)

end

/-! ### Any join -/

section
variable (a : Assembler) (c : JoinContext) (sh : Shadow) (n : Nat) (entries : LaneId → Option JoinEntry)

/-- What every join leaves, and what it tells the Planner: held flaws, then the joined line (R62). -/
theorem Assembler.joinLine_within : (a.joinLine c sh n entries).asm.joined = n ∧
    (a.joinLine c sh n entries).asm.settled = a.settled ∧
    (a.joinLine c sh n entries).asm.gaps = a.gaps ∧ (a.joinLine c sh n entries).asm.gradedTail = a.gradedTail ∧
    ∃ flaws : List FlawEntry, (a.joinLine c sh n entries).planner = flaws.map .heldFlaw ++ [.joined n] := by
  rw [Assembler.joinLine_eq]
  obtain ⟨z, ⟨hsettled, hgaps, htail, flaws, hflaws⟩, hasm, hplanner⟩ :=
    (a.resolve_within c n (a.componentsAt c.detect n entries)).closePass (c := c) (sh := sh) (n := n) (entries := entries)
  rw [hasm, hplanner, hflaws]
  exact ⟨rfl, hsettled, hgaps, htail, flaws, rfl⟩

theorem Assembler.joinLine_open : ∀ b ∈ (a.joinLine c sh n entries).asm.blobs, b.closes c n = false := fun b hb => by
  rw [Assembler.joinLine_eq, AsmStep.closePass_blobs] at hb
  simpa using (List.mem_filter.mp hb).2

end

/-! ### A lone run -/

theorem flatMap_one_lane (r : PixelRun) (k : LaneId) : (allLanes.flatMap fun j => if j = k then [r] else []) = [r] := by
  fin_cases k <;> rfl

/-- A line whose one lane with runs delivers one run. -/
theorem runsOf_one {entries : LaneId → Option JoinEntry} {k : LaneId} {e : JoinEntry} {r : PixelRun} (hk : entries k = some e)
    (he : e.runs = [r]) (hothers : ∀ j : LaneId, j ≠ k → ∀ x, entries j = some x → x.runs = []) : runsOf entries = [r] := by
  have hlane : ∀ j : LaneId, ((entries j).map (·.runs)).getD [] = if j = k then [r] else [] := fun j => by
    by_cases hj : j = k
    · subst hj
      simp [hk, he]
    · rw [if_neg hj]
      cases hx : entries j with
      | none => rfl
      | some x => exact hothers j hj x hx
  unfold runsOf
  rw [funext hlane]
  exact flatMap_one_lane r k

theorem not_meets_of_apart {xb lo hi : Nat} {r : PixelRun} (h : hi + xb < r.lo ∨ r.hi + xb < lo) : ¬ r.Meets xb lo hi := by
  unfold PixelRun.Meets
  omega

/-- A run that no open blob meets makes its blob behind them (R63, R64, R66, R68). -/
theorem Assembler.resolve_lone (a : Assembler) (c : JoinContext) (n : Nat) (r : PixelRun) :
    ∃ b : Blob, b.Made c.detect.crossBridge n (a.step.makeRoom c).asm.markers (a.step.makeRoom c).asm.nextBlob [r] ∧
      a.resolve c n [{ runs := [r], blobs := [] }] = { a.step.makeRoom c with
        asm := { (a.step.makeRoom c).asm.countBlob with blobs := (a.step.makeRoom c).asm.blobs ++ [b] } } :=
  AsmStep.makeBlob_eq c n a.step (k := { runs := [r], blobs := [] }) (List.cons_ne_nil r [])

theorem Assembler.componentsAt_lone {a : Assembler} {d : DetectGroup} {n : Nat} {entries : LaneId → Option JoinEntry}
    {r : PixelRun} (hruns : runsOf entries = [r]) (h : ∀ b ∈ a.blobs, ¬ r.Meets d.crossBridge b.frontLo b.frontHi) :
    a.componentsAt d n entries = [{ runs := [r], blobs := [] }] := by
  rw [Assembler.componentsAt, hruns]
  exact components_lone fun b hb => h b (List.mem_of_mem_filter hb)

/-- A lone run finds room, and its blob stays open beside the others (R63, R64, R65). -/
theorem Assembler.joinLine_lone {a : Assembler} {c : JoinContext} {n : Nat} {r : PixelRun} (sh : Shadow)
    {entries : LaneId → Option JoinEntry} (hruns : runsOf entries = [r])
    (hothers : ∀ o ∈ a.blobs, o.front ≠ n ∧ n ≤ o.front + c.detect.alongGap ∧
      (o.frontHi + c.detect.crossBridge < r.lo ∨ r.hi + c.detect.crossBridge < o.frontLo))
    (hroom : a.blobs.length < 96) (hnext : a.nextBlob < max32) (hpitch : c.pitch < c.detect.maxLength) :
    ∃ b : Blob, b.Made c.detect.crossBridge n a.markers a.nextBlob [r] ∧
      a.joinLine c sh n entries =
        { asm := { a with
            blobs := a.blobs ++ [b.marked sh n entries], nextBlob := a.nextBlob + 1, markers := [], joined := n }
          planner := [.joined n], records := [], incs := [] } := by
  obtain ⟨b, hb, hresolve⟩ := a.resolve_lone c n r
  rw [AsmStep.makeRoom_free c (r := a.step) hroom] at hb hresolve
  rw [Assembler.countBlob_eq (a := a.step.asm) hnext] at hresolve
  refine ⟨b, hb, ?_⟩
  rw [Assembler.joinLine_eq, Assembler.componentsAt_lone hruns fun o ho => not_meets_of_apart (hothers o ho).2.2, hresolve,
    AsmStep.closePass_open]
  · simp only [List.map_append, map_marked_others (sh := sh) (entries := entries) fun o ho => (hothers o ho).1, Assembler.step]
    rfl
  · intro o ho
    refine Blob.closes_eq_false.mpr ?_
    rcases List.mem_append.mp ho with ho | ho
    · obtain ⟨hfront, hgap, _⟩ := hothers o ho
      exact ⟨fun h => absurd h hfront, hgap⟩
    · obtain rfl := List.mem_singleton.mp ho
      rw [hb.first, hb.grown.front]
      exact ⟨fun _ => by simpa using hpitch, Nat.le_add_right _ _⟩

/-! ### A forced closure -/

/-- The blob colder than every other is the coldest of the table (R66). -/
theorem coldest_eq {cold : Blob} : ∀ {b : Blob} {rest : List Blob}, cold ∈ b :: rest →
    (∀ o ∈ b :: rest, o ≠ cold → cold.front < o.front ∨ (cold.front = o.front ∧ cold.id < o.id)) → coldest b rest = cold
  | b, [], hmem, _ => (List.mem_singleton.mp hmem).symm
  | b, o :: rest, hmem, hcold => by
    have hcolder : ∀ x y : Blob, x.colder y = true ↔ x.front < y.front ∨ (x.front = y.front ∧ x.id < y.id) := fun x y => by
      simp [Blob.colder]
    obtain ⟨hb, ho, hrest⟩ := List.forall_mem_cons.mp hcold |>.imp_right List.forall_mem_cons.mp
    unfold coldest
    refine coldest_eq ?_ ?_
    · rcases List.mem_cons.mp hmem with rfl | hmem
      · by_cases hoc : o = cold
        · simp [hoc]
        · have hno : ¬ o.colder cold = true := by
            rw [hcolder]
            have := ho hoc
            omega
          simp [hno]
      · rcases List.mem_cons.mp hmem with rfl | hmem
        · by_cases hbc : b = cold
          · simp [hbc]
          · have hyes : cold.colder b = true := (hcolder _ _).mpr (hb hbc)
            simp [hyes]
        · exact List.mem_cons_of_mem _ hmem
    · refine List.forall_mem_cons.mpr ⟨?_, hrest⟩
      split
      · exact ho
      · exact hb

/-- The flaw of a forced closure (R66). -/
def Assembler.forcedFlaw (c : JoinContext) (a : Assembler) (cold : Blob) : FlawRecord :=
  a.flawOf c { cold with flags := { cold.flags with forced := true } }

/-- The assembler once a forced closure has freed the place of a blob (R66). -/
def Assembler.forceOut (c : JoinContext) (a : Assembler) (cold : Blob) : Assembler :=
  ({ a with blobs := a.blobs.filter fun o => decide (o.id ≠ cold.id), forced := bump a.forced } : Assembler).takeFlaw
    (a.forcedFlaw c cold)

/-- A full table closes its coldest blob with FORCED (R66). -/
theorem Assembler.makeRoom_full (c : JoinContext) {a : Assembler} {cold : Blob} (hfull : 96 ≤ a.blobs.length)
    (hmem : cold ∈ a.blobs)
    (hcold : ∀ o ∈ a.blobs, o ≠ cold → cold.front < o.front ∨ (cold.front = o.front ∧ cold.id < o.id)) :
    a.step.makeRoom c =
      { asm := a.forceOut c cold
        planner := if (a.forcedFlaw c cold).disposition = .held then [.heldFlaw (a.forcedFlaw c cold).entry] else []
        records := [a.forcedFlaw c cold], incs := [(a.forcedFlaw c cold).increment] } := by
  unfold AsmStep.makeRoom
  rw [if_pos (show Config.blobLimit ≤ a.step.asm.blobs.length from hfull)]
  split
  · rename_i hnone
    exact absurd ((show a.blobs = [] from hnone) ▸ hmem) List.not_mem_nil
  · rename_i b rest hblobs
    have hlist : a.blobs = b :: rest := hblobs
    rw [hlist] at hmem hcold
    rw [coldest_eq hmem hcold, AsmStep.close_eq]
    rfl

/-- A lone run beside a full table forces the coldest blob closed, and its own blob stays open beside the others (R66). -/
theorem Assembler.joinLine_forced {a : Assembler} {c : JoinContext} {n : Nat} {r : PixelRun} {cold : Blob} (sh : Shadow)
    {entries : LaneId → Option JoinEntry} (hruns : runsOf entries = [r])
    (hothers : ∀ o ∈ a.blobs, o.front ≠ n ∧ n ≤ o.front + c.detect.alongGap ∧
      (o.frontHi + c.detect.crossBridge < r.lo ∨ r.hi + c.detect.crossBridge < o.frontLo))
    (hfull : a.blobs.length = 96) (hmem : cold ∈ a.blobs)
    (hcold : ∀ o ∈ a.blobs, o ≠ cold → cold.front < o.front ∨ (cold.front = o.front ∧ cold.id < o.id))
    (hnext : a.nextBlob < max32) (hpitch : c.pitch < c.detect.maxLength) :
    ∃ b : Blob, b.Made c.detect.crossBridge n a.markers a.nextBlob [r] ∧ a.joinLine c sh n entries =
      { asm := { a.forceOut c cold with
          blobs := (a.blobs.filter fun o => decide (o.id ≠ cold.id)) ++ [b.marked sh n entries]
          nextBlob := a.nextBlob + 1, markers := [], joined := n }
        planner := (if (a.forcedFlaw c cold).disposition = .held then [.heldFlaw (a.forcedFlaw c cold).entry] else []) ++
          [.joined n]
        records := [a.forcedFlaw c cold], incs := [(a.forcedFlaw c cold).increment] } := by
  obtain ⟨b, hb, hresolve⟩ := a.resolve_lone c n r
  rw [Assembler.makeRoom_full c hfull.ge hmem hcold] at hb hresolve
  rw [Assembler.countBlob_eq (a := a.forceOut c cold) hnext] at hresolve
  refine ⟨b, hb, ?_⟩
  have hkept : ∀ o ∈ (a.forceOut c cold).blobs, o ∈ a.blobs := fun o ho => List.mem_of_mem_filter ho
  rw [Assembler.joinLine_eq, Assembler.componentsAt_lone hruns fun o ho => not_meets_of_apart (hothers o ho).2.2, hresolve,
    AsmStep.closePass_open]
  · simp only [List.map_append, map_marked_others (sh := sh) (entries := entries) fun o ho => (hothers o (hkept o ho)).1]
    rfl
  · intro o ho
    refine Blob.closes_eq_false.mpr ?_
    rcases List.mem_append.mp ho with ho | ho
    · obtain ⟨hfront, hgap, _⟩ := hothers o (hkept o ho)
      exact ⟨fun h => absurd h hfront, hgap⟩
    · obtain rfl := List.mem_singleton.mp ho
      rw [hb.first, hb.grown.front]
      exact ⟨fun _ => by simpa using hpitch, Nat.le_add_right _ _⟩

/-! ### Runs that meet every open blob -/

/-- Runs that all touch every open blob leave one blob of them (R63, R64). -/
theorem Assembler.resolve_meeting {a : Assembler} (c : JoinContext) {n : Nat} {entries : LaneId → Option JoinEntry}
    (hruns : runsOf entries ≠ []) (hne : a.blobs ≠ []) (hnear : ∀ b ∈ a.blobs, n ≤ b.front + 1 + c.detect.alongGap)
    (hmeet : ∀ b ∈ a.blobs, ∀ r ∈ runsOf entries, r.Meets c.detect.crossBridge b.frontLo b.frontHi) :
    ∃ g : Blob, g.id = least (a.blobs.map (·.id)) ∧ g.first = least (a.blobs.map (·.first)) ∧
      g.Grown n a.blobs (runsOf entries) ∧ g.flags.continued = (a.blobs.filterMap (·.flags.continued)).min? ∧
      a.resolve c n (a.componentsAt c.detect n entries) = Assembler.step { a with blobs := [g] } := by
  let k : Component := { runs := runsOf entries, blobs := a.blobs }
  obtain ⟨g, hg, hid, hfirst, hgrown, hcontinued⟩ := Component.grown_spec (c := k) n hne hruns
  refine ⟨g, hid, hfirst, hgrown, hcontinued, ?_⟩
  have heligible : a.blobs.filter (·.eligible n c.detect.alongGap) = a.blobs :=
    List.filter_eq_self.mpr fun b hb => decide_eq_true (hnear b hb)
  have hcs : a.componentsAt c.detect n entries = [k] := by
    rw [Assembler.componentsAt, heligible]
    exact components_all_meet hne hruns fun r hr b hb => hmeet b hb r hr
  have hgone : a.blobs.filter (fun o => !k.holdsId o) = [] := List.filter_eq_nil_iff.mpr fun b hb => by
    simp [(k.holdsId_iff b).mpr ⟨b, hb, rfl⟩]
  have hempty : k.blobs.isEmpty = false := List.isEmpty_eq_false_iff.mpr hne
  have hold : resolveOld n a.blobs k = [g] := by rw [resolveOld_eq, hgone, hg]; rfl
  rw [hcs, Assembler.resolve]
  simp [hempty, hold, sortBy]

/-- The flaw of a blob that closes at the maximum length (R67). -/
def Assembler.truncatedFlaw (c : JoinContext) (a : Assembler) (b : Blob) : FlawRecord :=
  a.flawOf c { b with flags := { b.flags with truncated := true } }

theorem Assembler.closeAt_overlong {c : JoinContext} {n : Nat} {b : Blob} (h : b.overlong c n = true) (a : Assembler) :
    AsmStep.closeAt c n (a.step, []) b =
      ({ asm := ({ a with truncated := bump a.truncated } : Assembler).takeFlaw (a.truncatedFlaw c b)
         planner := if (a.truncatedFlaw c b).disposition = .held then [.heldFlaw (a.truncatedFlaw c b).entry] else []
         records := [a.truncatedFlaw c b], incs := [(a.truncatedFlaw c b).increment] },
        [{ lo := b.frontLo, hi := b.frontHi, flaw := a.nextFlaw }]) := by
  unfold AsmStep.closeAt
  rw [if_pos h]
  simp only [AsmStep.close_eq]
  rfl

/-- The one blob of a line, of the maximum length, closes with TRUNCATED and leaves its marker (R67, R68). -/
theorem Assembler.closePass_truncated {a : Assembler} {c : JoinContext} {n : Nat} (sh : Shadow)
    (entries : LaneId → Option JoinEntry) {g : Blob} (hfront : g.front = n)
    (hlong : c.detect.maxLength ≤ (n - g.first + 1) * c.pitch) :
    (Assembler.step { a with blobs := [g] }).closePass c sh n entries =
      let b := g.marked sh n entries
      let flaw := a.truncatedFlaw c b
      { asm := { ({ a with blobs := [], truncated := bump a.truncated } : Assembler).takeFlaw flaw with
          markers := [{ lo := b.frontLo, hi := b.frontHi, flaw := a.nextFlaw }], joined := n }
        planner := (if flaw.disposition = .held then [.heldFlaw flaw.entry] else []) ++ [.joined n]
        records := [flaw], incs := [flaw.increment] } := by
  have hover : g.overlong c n = true := by simp [Blob.overlong, hfront, hlong]
  have hcloses : g.closes c n = true := by simp [Blob.closes, hover]
  have hmarked : (g.marked sh n entries).overlong c n = true :=
    (Blob.marked_keeps (fun b => b.overlong c n) (fun _ _ => rfl) g).trans hover
  refine (AsmStep.closePass_closing (r := Assembler.step { a with blobs := [g] }) rfl hcloses).trans ?_
  exact congrArg (fun z : AsmStep × List Marker => { z.1 with
    asm := { z.1.asm with markers := z.2, joined := n }, planner := z.1.planner ++ [AsmMsg.joined n] })
    (Assembler.closeAt_overlong hmarked { a with blobs := [] })

/-- The one blob of a line that stays open, below the maximum length (R67, R68). -/
theorem Assembler.closePass_grown {a : Assembler} {c : JoinContext} {n : Nat} (sh : Shadow)
    (entries : LaneId → Option JoinEntry) {g : Blob} (hfront : g.front = n)
    (hshort : (n - g.first + 1) * c.pitch < c.detect.maxLength) :
    (Assembler.step { a with blobs := [g] }).closePass c sh n entries =
      { asm := { a with blobs := [g.marked sh n entries], markers := [], joined := n }
        planner := [.joined n], records := [], incs := [] } := by
  refine AsmStep.closePass_open (r := Assembler.step { a with blobs := [g] }) fun b hb => ?_
  rw [List.mem_singleton.mp hb]
  exact Blob.closes_eq_false.mpr ⟨fun _ => hshort, hfront ▸ Nat.le_add_right _ _⟩

/-- Runs that all touch every open blob make one blob of them, which closes when it reaches the maximum length (R63 to R65, R67,
R68). -/
theorem Assembler.joinLine_meeting {a : Assembler} (c : JoinContext) (sh : Shadow) {n : Nat}
    {entries : LaneId → Option JoinEntry} (hruns : runsOf entries ≠ []) (hne : a.blobs ≠ [])
    (hnear : ∀ b ∈ a.blobs, n ≤ b.front + 1 + c.detect.alongGap)
    (hmeet : ∀ b ∈ a.blobs, ∀ r ∈ runsOf entries, r.Meets c.detect.crossBridge b.frontLo b.frontHi) :
    ∃ b : Blob, b.id = least (a.blobs.map (·.id)) ∧ b.first = least (a.blobs.map (·.first)) ∧
      b.grownFrom sh n entries a.blobs (runsOf entries) ∧
      b.flags.continued = (a.blobs.filterMap (·.flags.continued)).min? ∧ a.joinLine c sh n entries =
        if c.detect.maxLength ≤ (n - b.first + 1) * c.pitch then
          let flaw := a.truncatedFlaw c b
          { asm := { ({ a with blobs := [], truncated := bump a.truncated } : Assembler).takeFlaw flaw with
              markers := [{ lo := b.frontLo, hi := b.frontHi, flaw := a.nextFlaw }], joined := n }
            planner := (if flaw.disposition = .held then [.heldFlaw flaw.entry] else []) ++ [.joined n]
            records := [flaw], incs := [flaw.increment] }
        else
          { asm := { a with blobs := [b], markers := [], joined := n }
            planner := [.joined n], records := [], incs := [] } := by
  obtain ⟨g, hid, hfirst, hgrown, hcontinued, hresolve⟩ := Assembler.resolve_meeting c hruns hne hnear hmeet
  refine ⟨g.marked sh n entries, g.marked_id.trans hid, g.marked_first.trans hfirst, hgrown.grownFrom,
    g.marked_continued.trans hcontinued, ?_⟩
  rw [Assembler.joinLine_eq, hresolve, g.marked_first]
  split
  · exact Assembler.closePass_truncated sh entries hgrown.front ‹_›
  · exact Assembler.closePass_grown sh entries hgrown.front (Nat.lt_of_not_le ‹_›)

/-! ### Several components -/

/-- The blobs of a line's components are open blobs. -/
theorem Assembler.componentsAt_blobs {a : Assembler} {d : DetectGroup} {n : Nat} {entries : LaneId → Option JoinEntry} :
    ∀ k ∈ a.componentsAt d n entries, ∀ b ∈ k.blobs, b ∈ a.blobs := fun k hk b hb => by
  obtain ⟨others, hperm, _⟩ := components_blobs d.crossBridge (a.blobs.filter (·.eligible n d.alongGap)) (runsOf entries)
  exact List.mem_of_mem_filter (hperm.mem_iff.mp (List.mem_append_left _ (List.mem_flatMap.mpr ⟨k, hk, hb⟩)))

section
variable {a : Assembler} {d : DetectGroup} {n : Nat} {entries : LaneId → Option JoinEntry}

/-- Where the open blobs differ in their ids, so do the blobs of the components. -/
theorem Assembler.componentsAt_nodup (hids : (a.blobs.map (·.id)).Nodup) :
    (((a.componentsAt d n entries).flatMap (·.blobs)).map (·.id)).Nodup := by
  obtain ⟨others, hperm, _⟩ := components_blobs d.crossBridge (a.blobs.filter (·.eligible n d.alongGap)) (runsOf entries)
  have hall := (hperm.map (·.id)).nodup_iff.mpr (hids.sublist (List.filter_sublist.map _))
  rw [List.map_append] at hall
  exact hall.of_append_left

theorem Assembler.componentsAt_idsApart (hids : (a.blobs.map (·.id)).Nodup) :
    (a.componentsAt d n entries).Pairwise Component.IdsApart := by
  have hnodup := Assembler.componentsAt_nodup (d := d) (n := n) (entries := entries) hids
  rw [List.map_flatMap] at hnodup
  refine (List.nodup_flatMap.mp hnodup).2.imp fun {k e} hdisj b hb o ho hid => ?_
  exact hdisj (List.mem_map_of_mem hb) (hid ▸ List.mem_map_of_mem ho)

/-- A blob has the id of a component's blob when the component holds it. -/
theorem Assembler.componentsAt_holdsId (hids : (a.blobs.map (·.id)).Nodup) {b : Blob} (hb : b ∈ a.blobs) :
    (a.componentsAt d n entries).any (·.holdsId b) = true ↔ b ∈ (a.componentsAt d n entries).flatMap (·.blobs) := by
  rw [List.any_eq_true, List.mem_flatMap]
  refine exists_congr fun k => and_congr_right fun hk => (k.holdsId_iff b).trans ⟨?_, fun h => ⟨b, h, rfl⟩⟩
  rintro ⟨o, ho, hid⟩
  exact List.inj_on_of_nodup_map hids (Assembler.componentsAt_blobs k hk o ho) hb hid ▸ ho

/-- The open blobs are those of the components and the blobs that none of them holds. -/
theorem Assembler.componentsAt_length (hids : (a.blobs.map (·.id)).Nodup) :
    (a.blobs.filter fun o => !(a.componentsAt d n entries).any (·.holdsId o)).length +
      ((a.componentsAt d n entries).flatMap (·.blobs)).length = a.blobs.length := by
  have hheld : (a.blobs.filter fun o => (a.componentsAt d n entries).any (·.holdsId o)).Perm
      ((a.componentsAt d n entries).flatMap (·.blobs)) := by
    refine (List.perm_ext_iff_of_nodup (hids.of_map.filter _) (Assembler.componentsAt_nodup hids).of_map).mpr fun b => ?_
    rw [List.mem_filter]
    refine ⟨fun h => (Assembler.componentsAt_holdsId hids h.1).mp h.2, fun h => ?_⟩
    obtain ⟨k, hk, hbk⟩ := List.mem_flatMap.mp h
    have hb := Assembler.componentsAt_blobs k hk b hbk
    exact ⟨hb, (Assembler.componentsAt_holdsId hids hb).mpr h⟩
  have hsplit := (List.filter_append_perm (fun o => (a.componentsAt d n entries).any (·.holdsId o)) a.blobs).length_eq
  rw [List.length_append, hheld.length_eq] at hsplit
  omega

end

/-- Of the components of a line, each with blobs grows one of them, and the others none. -/
theorem flatMap_grown_length (n : Nat) : ∀ cs : List Component, (∀ c ∈ cs, c.runs ≠ []) →
    (cs.flatMap (Component.grown n)).length + (cs.filter fun k => k.blobs.isEmpty).length = cs.length ∧
      (cs.flatMap (Component.grown n)).length ≤ (cs.flatMap (·.blobs)).length
  | [], _ => ⟨rfl, Nat.le_refl 0⟩
  | c :: cs, h => by
    obtain ⟨hc, hcs⟩ := List.forall_mem_cons.mp h
    obtain ⟨hcount, hle⟩ := flatMap_grown_length n cs hcs
    by_cases hb : c.blobs = []
    · have hgrown : c.grown n = [] := by simp [Component.grown, hb, sortBy]
      simp only [List.flatMap_cons, hgrown, hb, List.isEmpty_nil, List.filter_cons_of_pos, List.length_cons, List.nil_append]
      omega
    · obtain ⟨g, hgrown, _⟩ := Component.grown_spec n hb hc
      have hpos : 0 < c.blobs.length := List.length_pos_of_ne_nil hb
      have hfilter : (c :: cs).filter (fun k => k.blobs.isEmpty) = cs.filter fun k => k.blobs.isEmpty :=
        List.filter_cons_of_neg (by simpa using hb)
      simp only [hfilter, List.flatMap_cons, hgrown, List.length_append, List.length_cons, List.length_nil]
      omega

/-- A line that closes no blob: the blobs that no component holds are left, each component with blobs grows one, and the
others make theirs (R63, R64). -/
theorem Assembler.joinLine_several {a : Assembler} {c : JoinContext} {n : Nat} (sh : Shadow)
    {entries : LaneId → Option JoinEntry} {fresh : List Component} (hids : (a.blobs.map (·.id)).Nodup)
    (hfront : ∀ b ∈ a.blobs, b.front < n)
    (hperm : fresh.Perm ((a.componentsAt c.detect n entries).filter fun k => k.blobs.isEmpty))
    (hsorted : fresh.Pairwise fun k e => rankBefore k.rank e.rank) (hroom : a.blobs.length + fresh.length ≤ 96)
    (hnext : a.nextBlob + fresh.length ≤ max32)
    (hleft : ∀ b ∈ a.blobs, (∀ k ∈ a.componentsAt c.detect n entries, b ∉ k.blobs) → n ≤ b.front + c.detect.alongGap)
    (hlong : ∀ b ∈ a.blobs, (n - b.first + 1) * c.pitch < c.detect.maxLength) (hpitch : c.pitch < c.detect.maxLength) :
    ∃ left news : List Blob, MadeInOrder c.detect.crossBridge n a.markers a.nextBlob fresh news ∧
      (∀ b, b ∈ left ↔ b ∈ a.blobs ∧ ∀ k ∈ a.componentsAt c.detect n entries, b ∉ k.blobs) ∧
      (left ++ (a.componentsAt c.detect n entries).flatMap (Component.grown n) ++ news).length +
        ((a.componentsAt c.detect n entries).flatMap (·.blobs)).length =
          a.blobs.length + (a.componentsAt c.detect n entries).length ∧
      a.joinLine c sh n entries =
        { asm := { a with
            blobs := (left ++ (a.componentsAt c.detect n entries).flatMap (Component.grown n) ++ news).map
              (Blob.marked sh n entries)
            nextBlob := a.nextBlob + fresh.length, markers := [], joined := n }
          planner := [.joined n], records := [], incs := [] } := by
  let cs := a.componentsAt c.detect n entries
  let left := a.blobs.filter fun o => !cs.any (·.holdsId o)
  have hruns : ∀ k ∈ cs, k.runs ≠ [] := components_runs_ne_nil _ _ _
  have hlength : left.length + (cs.flatMap (·.blobs)).length = a.blobs.length := Assembler.componentsAt_length hids
  obtain ⟨hcount, hgrown⟩ := flatMap_grown_length n cs hruns
  have hfresh : fresh.length = (cs.filter fun k => k.blobs.isEmpty).length := hperm.length_eq
  have hmem : ∀ b, b ∈ left ↔ b ∈ a.blobs ∧ ∀ k ∈ cs, b ∉ k.blobs := fun b => by
    refine List.mem_filter.trans (and_congr_right fun hb => ?_)
    rw [Bool.not_eq_true', Bool.eq_false_iff, ne_eq, Assembler.componentsAt_holdsId hids hb, List.mem_flatMap]
    exact ⟨fun h k hk hbk => h ⟨k, hk, hbk⟩, fun h ⟨k, hk, hbk⟩ => h k hk hbk⟩
  have hfit : left.length + (cs.flatMap (Component.grown n)).length + fresh.length ≤ 96 := by omega
  obtain ⟨news, hnews, hresolve⟩ := a.resolve_room c n (Assembler.componentsAt_idsApart hids)
    (sortBy_newBefore (fun k hk => hruns k (List.mem_of_mem_filter hk)) hperm hsorted) hruns hfit hnext
  have hnewsLength : news.length = fresh.length := hnews.1
  have htotal : (left ++ cs.flatMap (Component.grown n) ++ news).length + (cs.flatMap (·.blobs)).length =
      a.blobs.length + cs.length := by
    rw [List.length_append, List.length_append]
    omega
  refine ⟨left, news, hnews, hmem, htotal, ?_⟩
  rw [Assembler.joinLine_eq, hresolve, AsmStep.closePass_open]
  · rfl
  intro b hb
  refine Blob.closes_eq_false.mpr ?_
  rcases List.mem_append.mp hb with hb | hb
  · rcases List.mem_append.mp hb with hb | hb
    · obtain ⟨hb, hnone⟩ := (hmem b).mp hb
      exact ⟨fun h => absurd h (hfront b hb).ne, hleft b hb hnone⟩
    · obtain ⟨k, hk, hbk⟩ := List.mem_flatMap.mp hb
      obtain ⟨o, ho, _⟩ := Component.grown_id hbk
      obtain ⟨g, hg, _, hfirst, hitems, _⟩ := Component.grown_spec n (List.ne_nil_of_mem ho) (hruns k hk)
      obtain rfl := List.mem_singleton.mp (hg ▸ hbk)
      have hne : k.blobs.map (·.first) ≠ [] := by simpa using List.ne_nil_of_mem ho
      obtain ⟨x, hx, hxfirst⟩ := List.mem_map.mp (least_mem hne)
      rw [hitems.front, hfirst, ← hxfirst]
      exact ⟨fun _ => hlong x (Assembler.componentsAt_blobs k hk x hx), Nat.le_add_right _ _⟩
  · obtain ⟨i, k, _, hmade⟩ := hnews.mem hb
    rw [hmade.first, hmade.grown.front]
    exact ⟨fun _ => by simpa using hpitch, Nat.le_add_right _ _⟩

/-! ### The statement -/

theorem Severity.code_inj {v w : Severity} (h : v.code = w.code) : v = w := by
  cases v <;> cases w <;> simp [Severity.code] at h ⊢

/-- The items of a blob of one run (R64, R65). -/
theorem Blob.grownFrom_lone {sh : Shadow} {n : Nat} {entries : LaneId → Option JoinEntry} {r : PixelRun} {b : Blob}
    (h : b.grownFrom sh n entries [] [r]) :
    b.front = n ∧ b.frontLo = r.lo ∧ b.frontHi = r.hi ∧ b.lo = r.lo ∧ b.hi = r.hi ∧
      (b.dark = true ↔ r.polarity ≠ .bright) ∧ (b.bright = true ↔ r.polarity ≠ .dark) ∧ b.level = r.level ∧ b.peak = r.peak ∧
      b.sum = min 4294967295 r.sum ∧ b.area = min 4294967295 (r.last - r.first + 1) ∧
      (∀ j : LaneId, b.lanes[j] = true ↔ j = r.lane) ∧ b.flags.crowded = r.crowded ∧ b.flags.merged = false ∧
      (b.flags.partialView = true ↔ ∃ j : LaneId, (∀ x, entries j = some x → x.blind = true) ∧
        sh.netLo ≤ sh.lanes[j].ownHi ∧ sh.lanes[j].ownLo ≤ sh.netHi ∧ sh.lanes[j].ownLo ≤ r.hi ∧ r.lo ≤ sh.lanes[j].ownHi) := by
  obtain ⟨hfront, hfrontLo, hfrontHi, hlo, hhi, hdark, hbright, hlevel, hpeak, hsum, harea, hlanes, hmerged, hcrowded,
    hpartial⟩ := h
  simp only [List.map_nil, List.map_cons, List.nil_append, least_cons, most_cons, List.foldl_nil, List.sum_nil, List.sum_cons,
    Nat.zero_add, Nat.add_zero, List.not_mem_nil, List.mem_singleton, false_and, exists_false, false_or, exists_eq_left,
    List.length_nil, Nat.not_lt_zero, iff_false, Bool.not_eq_true] at *
  rw [hlo, hhi] at hpartial
  exact ⟨hfront, hfrontLo, hfrontHi, hlo, hhi, hdark, hbright, Severity.code_inj hlevel, hpeak, hsum, harea,
    fun j => (hlanes j).trans eq_comm, Bool.eq_iff_iff.mpr hcrowded, hmerged, hpartial⟩

/-- What the join of line J + 1 leaves, by what the assembler makes of the line (R62). -/
structure State.JoinLeaves (s : State) (r : AsmStep) (t : State) : Prop where
  asm : t.asm = r.asm
  planner : t.wires.asmPlanner = s.wires.asmPlanner ++ s.tagAll r.planner
  records : t.wires.flawRecords = s.wires.flawRecords ++ r.records
  cmd : t.cmd = { s.cmd with detect := s.cmd.detect.activate }
  engine : t.engine = s.engine.takeLine (s.asm.joined + 1)
  lanes : t.lanes = s.lanes

theorem exec_join_leaves {s : State} {sh : Shadow} {d : DetectGroup} (hr : s.inReset = false)
    (hst : s.cmd.runState = .running) (hlt : s.asm.joined < s.asm.frontier) (hsh : s.cmd.shadow = some sh)
    (hd : s.cmd.detect.activate.inUse = some d) {r : AsmStep}
    (hjoin : s.asm.joinLine (s.joinContext sh d) sh (s.asm.joined + 1) (s.engine.entryFor (s.asm.joined + 1)) = r) :
    ∃ t : State, exec .join s = .next t ∧ s.JoinLeaves r t :=
  hjoin ▸ ⟨_, exec_join hr hst hlt hsh hd, rfl, rfl, rfl, rfl, rfl, rfl⟩

/-- Settles O32, clause by clause: any join (`Assembler.joinLine_within`), a lone run (`Assembler.joinLine_lone`), runs that meet
every blob (`Assembler.resolve_meeting`), a forced closure (`Assembler.joinLine_forced`), the components (`groupsOf_grouped`), and
several of them (`Assembler.joinLine_several`). -/
theorem joinTakesTheNextLine : Obligations.JoinTakesTheNextLine := by
  refine ⟨?_, ?_, ?_, ?_, ?_, ?_⟩
  · intro s sh d hr hst hlt hsh hd
    obtain ⟨hjoined, hsettled, hgaps, htail, flaws, hflaws⟩ := s.asm.joinLine_within (s.joinContext sh d) sh
      (s.asm.joined + 1) (s.engine.entryFor (s.asm.joined + 1))
    have hopen := s.asm.joinLine_open (s.joinContext sh d) sh (s.asm.joined + 1) (s.engine.entryFor (s.asm.joined + 1))
    obtain ⟨t, hexec, hasm, hplanner, _, hcmd, hengine, hlanes⟩ := exec_join_leaves hr hst hlt hsh hd rfl
    rw [hflaws] at hplanner
    rw [← hasm] at hjoined hsettled hgaps htail hopen
    exact ⟨t, hexec, hjoined, hsettled, hgaps, htail, hcmd, (congrArg Engine.analysis hengine :),
      (congrArg Engine.ready hengine :), hlanes,
      fun k => (congrArg (fun e : Engine => e.lanes[k]) hengine).trans (s.engine.takeLine_lane _ k),
      fun b hb => (Blob.closes_eq_false.mp (hopen b hb)).symm, flaws, hplanner⟩
  · intro s sh d k e r hr hst hlt hsh hd hroom hothers hnext hk he hlane hnone hpitch
    obtain ⟨b, hb, hjoin⟩ := Assembler.joinLine_lone (c := s.joinContext sh d) sh (runsOf_one hk he hnone) hothers hroom hnext
      hpitch
    obtain ⟨t, hexec, hasm, _, hrecords, _⟩ := exec_join_leaves hr hst hlt hsh hd hjoin
    obtain ⟨hfront, hfrontLo, hfrontHi, hlo, hhi, hdark, hbright, hlevel, hpeak, hsum, harea, hlanes, hcrowded, hmerged,
      hpartial⟩ := Blob.grownFrom_lone (hb.grown.grownFrom (sh := sh) (entries := s.engine.entryFor (s.asm.joined + 1)))
    refine ⟨t, _, hexec, congrArg Assembler.blobs hasm, (congrArg Assembler.markers hasm :),
      (congrArg Assembler.nextBlob hasm :), b.marked_id.trans hb.id, b.marked_first.trans hb.first, hfront, hfrontLo, hfrontHi,
      hlo, hhi, hdark, hbright, hlevel, hpeak, hsum, harea, hlanes, hcrowded, hmerged, b.marked_truncated.trans hb.truncated,
      b.marked_forced.trans hb.forced, hpartial, b.marked_continued.trans (hb.continued.trans ?_),
      hrecords.trans (List.append_nil _), (congrArg Assembler.table hasm :), (congrArg Assembler.nextFlaw hasm :)⟩
    simp only [touches, List.any_cons, List.any_nil, Bool.or_false]
    rfl
  · intro s sh d hr hst hlt hsh hd hnext n entry runs old hruns hold hids hmeet
    obtain ⟨b, hid, hfirst, hgrown, hcontinued, hjoin⟩ := Assembler.joinLine_meeting (s.joinContext sh d) sh (entries := entry)
      hruns hold (fun b hb => (hmeet b hb).2.1) fun b hb r hr => (hmeet b hb).2.2 r hr
    obtain ⟨t, hexec, hasm, _, hrecords, _⟩ := exec_join_leaves hr hst hlt hsh hd hjoin
    refine ⟨t, b, hexec, hid, hfirst, hgrown, hcontinued, ?_⟩
    by_cases hlong : d.maxLength ≤ (n - b.first + 1) * sh.travel.pitch
    · rw [if_pos (show (s.joinContext sh d).detect.maxLength ≤ (n - b.first + 1) * (s.joinContext sh d).pitch from hlong)]
        at hasm hrecords
      rw [if_pos hlong]
      have hflaws : t.asm.nextFlaw = s.asm.nextFlaw + 1 := (congrArg Assembler.nextFlaw hasm).trans (if_pos hnext)
      exact ⟨s.asm.truncatedFlaw (s.joinContext sh d) b, (congrArg Assembler.blobs hasm :), hflaws,
        (congrArg Assembler.markers hasm :), (congrArg Assembler.truncated hasm :), hrecords, rfl, rfl, rfl,
        hgrown.1, rfl, rfl, rfl, rfl, rfl, rfl, rfl⟩
    · rw [if_neg (show ¬ (s.joinContext sh d).detect.maxLength ≤ (n - b.first + 1) * (s.joinContext sh d).pitch from hlong)]
        at hasm hrecords
      rw [if_neg hlong]
      exact ⟨congrArg Assembler.blobs hasm, (congrArg Assembler.markers hasm :), (congrArg Assembler.truncated hasm :),
        (congrArg Assembler.nextFlaw hasm :), hrecords.trans (List.append_nil _)⟩
  · intro s sh d k e r cold hr hst hlt hsh hd hnext hflaw hk he hnone hpitch hfull hids hothers hmem hcold
    obtain ⟨b, hb, hjoin⟩ := Assembler.joinLine_forced (c := s.joinContext sh d) sh (runsOf_one hk he hnone) hothers hfull hmem
      hcold hnext hpitch
    obtain ⟨t, hexec, hasm, _, hrecords, _⟩ := exec_join_leaves hr hst hlt hsh hd hjoin
    obtain ⟨_, _, _, hlo, hhi, _⟩ :=
      Blob.grownFrom_lone (hb.grown.grownFrom (sh := sh) (entries := s.engine.entryFor (s.asm.joined + 1)))
    have hflaws : t.asm.nextFlaw = s.asm.nextFlaw + 1 := (congrArg Assembler.nextFlaw hasm).trans (if_pos hflaw)
    exact ⟨t, _, s.asm.forcedFlaw (s.joinContext sh d) cold, hexec, congrArg Assembler.blobs hasm, b.marked_id.trans hb.id,
      b.marked_first.trans hb.first, hlo, hhi, (congrArg Assembler.nextBlob hasm :), (congrArg Assembler.forced hasm :),
      hflaws, hrecords, rfl, rfl, rfl, rfl, rfl, rfl⟩
  · intro xb blobs runs cs meets
    exact ⟨components_runs xb blobs runs, components_runs_ne_nil xb blobs runs, components_blobs xb blobs runs,
      components_apart xb blobs runs, fun c hc p q => (components_linked xb blobs runs c hc).crossed⟩
  · intro s sh d fresh hr hst hlt hsh hd n entry runs old cs firstLo firstLane hids hfront hperm hsorted hroom hnext hleft hlong
      hpitch
    obtain ⟨left, news, hnews, hmem, hlength, hjoin⟩ := Assembler.joinLine_several (c := s.joinContext sh d) sh (entries := entry)
      hids hfront hperm hsorted hroom hnext hleft hlong hpitch
    obtain ⟨t, hexec, hasm, _, hrecords, _⟩ := exec_join_leaves hr hst hlt hsh hd hjoin
    have hblobs : t.asm.blobs = (left ++ cs.flatMap (Component.grown n) ++ news).map (Blob.marked sh n entry) :=
      congrArg Assembler.blobs hasm
    have hmarked : ∀ b, b ∈ left ++ cs.flatMap (Component.grown n) ++ news → b.marked sh n entry ∈ t.asm.blobs :=
      fun b hb => hblobs ▸ List.mem_map_of_mem hb
    refine ⟨t, hexec, ?_, (congrArg Assembler.nextBlob hasm :), (congrArg Assembler.markers hasm :),
      (congrArg Assembler.nextFlaw hasm :), (congrArg Assembler.table hasm :), hrecords.trans (List.append_nil _),
      fun b hb hnone => ?_, fun k hk hne => ?_, fun i k hk => ?_⟩
    · rw [hblobs, List.length_map]
      exact hlength
    · have hkept := hmarked b (List.mem_append_left _ (List.mem_append_left _ ((hmem b).mpr ⟨hb, hnone⟩)))
      rwa [Blob.marked_of_front b (hfront b hb).ne] at hkept
    · obtain ⟨g, hg, hid, hfirst, hgrown, hcontinued⟩ := Component.grown_spec n hne (components_runs_ne_nil _ _ _ k hk)
      have hgm : g ∈ cs.flatMap (Component.grown n) := List.mem_flatMap.mpr ⟨k, hk, hg ▸ List.mem_singleton_self g⟩
      exact ⟨g.marked sh n entry, hmarked g (List.mem_append_left _ (List.mem_append_right _ hgm)), g.marked_id.trans hid,
        g.marked_first.trans hfirst, hgrown.grownFrom, g.marked_continued.trans hcontinued⟩
    · obtain ⟨b, hb, hmade⟩ := hnews.getElem? hk
      exact ⟨b.marked sh n entry, hmarked b (List.mem_append_right _ hb), b.marked_id.trans hmade.id,
        b.marked_first.trans hmade.first, hmade.grown.grownFrom, b.marked_truncated.trans hmade.truncated,
        b.marked_forced.trans hmade.forced, b.marked_continued.trans hmade.continued⟩

end Sys2Proof.Machine
end

section
/-! The operations of the Cut Planner in closed form: room, Cf, a piece placed, an open piece fixed and followed by the next, and
what an event hands on (R80, R81, R84, R86, R88 to R90, R96, R98, R103). -/

namespace Sys2Proof.Machine

/-! ### Room and Cf -/

section
variable {p : Planner} {o : OpenPiece}

theorem Planner.room_iff (ho : p.openPiece = some o) (cuts pieces : Nat) :
    p.room cuts pieces = true ↔ p.cuts.length + cuts ≤ 32 ∧ p.pieces.length + 1 + pieces ≤ 40 := by
  simp only [Planner.room, Planner.count, ho, Option.isSome_some, if_true, Bool.and_eq_true, decide_eq_true_eq]

theorem Planner.room_eq_false {cuts pieces : Nat} (ho : p.openPiece = some o)
    (h : 32 < p.cuts.length + cuts ∨ 40 < p.pieces.length + 1 + pieces) : p.room cuts pieces = false := by
  refine Bool.eq_false_of_not_eq_true fun hroom => ?_
  have := (Planner.room_iff ho cuts pieces).mp hroom
  omega

theorem Planner.aboveCf_iff (p : Planner) (x : Nat) : p.aboveCf x = true ↔ ∀ cf, p.cf = some cf → cf < (x : Int) := by
  unfold Planner.aboveCf
  cases p.cf with
  | none => simp
  | some c => simp

theorem Planner.aboveCf_iff_not_below (p : Planner) (x : Nat) :
    p.aboveCf x = true ↔ ¬ ∃ cf, p.cf = some cf ∧ (x : Int) ≤ cf := by
  rw [Planner.aboveCf_iff]
  exact ⟨fun h ⟨cf, hcf, hle⟩ => absurd (h cf hcf) (Int.not_lt.mpr hle),
    fun h cf hcf => Int.not_le.mp fun hle => h ⟨cf, hcf, hle⟩⟩

theorem Planner.aboveCf_eq_false {x : Nat} {cf : Int} (hcf : p.cf = some cf) (hle : (x : Int) ≤ cf) : p.aboveCf x = false :=
  Bool.eq_false_of_not_eq_true fun h => (Planner.aboveCf_iff_not_below p x).mp h ⟨cf, hcf, hle⟩

theorem Planner.overTail_some {cf : Int} (h : p.cf = some cf) : p.overTail = max p.frontier (cf + 1).toNat := by
  unfold Planner.overTail
  rw [h]

/-- With Cf absent the frontier position is the highest (R89, R90). -/
theorem Planner.overTail_eq (p : Planner) :
    p.overTail = max p.frontier (match p.cf with | none => 0 | some cf => (cf + 1).toNat) := by
  cases h : p.cf with
  | none => simp [Planner.overTail, h]
  | some cf => exact Planner.overTail_some h

end

/-! ### Pieces placed and open pieces created -/

section
variable {r : PlanStep} {g : PlanGroup}

/-- A piece joins the end of the table and its tail the end of the queue; the tail is offered when it is the head (R80, R81,
R103). -/
theorem PlanStep.place_eq (hnext : r.p.nextPiece < 4294967295) (kind : PieceKind) (head : Option Nat) (tail : Nat)
    (sizes : PlanGroup) :
    r.place kind head tail sizes = { r with
      p := { r.p with
        pieces := r.p.pieces ++
          [{ number := r.p.nextPiece, kind := kind, head := head, tail := tail, state := .planned, sizes := sizes }]
        cuts := r.p.cuts ++ [{ pos := tail, kind := kind.cutKind, committed := false }]
        nextPiece := r.p.nextPiece + 1 }
      toStrike := r.toStrike ++ if r.p.cuts.isEmpty then [.offer (some tail)] else [] } := by
  have hplace : r.p.place kind head tail sizes = { r.p with
      pieces := r.p.pieces ++
        [{ number := r.p.nextPiece, kind := kind, head := head, tail := tail, state := .planned, sizes := sizes }]
      cuts := r.p.cuts ++ [{ pos := tail, kind := kind.cutKind, committed := false }]
      nextPiece := r.p.nextPiece + 1 } := by
    simp only [Planner.place, Planner.countPiece, nextNumber, if_pos (show r.p.nextPiece < max32 from hnext)]
  unfold PlanStep.place PlanStep.change PlanStep.offerChange
  simp only [hplace, Planner.headCut]
  cases r.p.cuts with
  | nil => simp
  | cons x cs => simp

theorem PlanStep.createOpen_eq (hg : r.plan.activate.inUse = some g) (h : Nat) :
    r.createOpen h = { r with
      plan := r.plan.activate
      p := { r.p with openPiece := some { head := h, sizes := g }, overdue := false }
      toAsm := r.toAsm ++ [.scan h (h + g.l1) g.level] } := by
  unfold PlanStep.createOpen
  simp only [hg]

theorem PlanStep.fix_eq (hnext : r.p.nextPiece < 4294967295) (hg : r.plan.activate.inUse = some g) (o : OpenPiece)
    (kind : PieceKind) (tail : Nat) :
    r.fix o kind tail = { r with
      p := { r.p with
        pieces := r.p.pieces ++
          [{ number := r.p.nextPiece, kind := kind, head := some o.head, tail := tail, state := .planned, sizes := o.sizes }]
        cuts := r.p.cuts ++ [{ pos := tail, kind := kind.cutKind, committed := false }]
        nextPiece := r.p.nextPiece + 1
        openPiece := some { head := tail, sizes := g }
        overdue := false }
      plan := r.plan.activate
      toAsm := r.toAsm ++ [.scan tail (tail + g.l1) g.level]
      toStrike := r.toStrike ++ if r.p.cuts.isEmpty then [.offer (some tail)] else [] } := by
  rw [PlanStep.fix, PlanStep.place_eq hnext]
  exact PlanStep.createOpen_eq (by exact hg) tail

/-- With the flag clear a fix leaves it so. -/
theorem PlanStep.fix_of_not_overdue (hover : r.p.overdue = false) (hnext : r.p.nextPiece < 4294967295)
    (hg : r.plan.activate.inUse = some g) (o : OpenPiece) (kind : PieceKind) (tail : Nat) :
    r.fix o kind tail = { r with
      p := { r.p with
        pieces := r.p.pieces ++
          [{ number := r.p.nextPiece, kind := kind, head := some o.head, tail := tail, state := .planned, sizes := o.sizes }]
        cuts := r.p.cuts ++ [{ pos := tail, kind := kind.cutKind, committed := false }]
        nextPiece := r.p.nextPiece + 1
        openPiece := some { head := tail, sizes := g } }
      plan := r.plan.activate
      toAsm := r.toAsm ++ [.scan tail (tail + g.l1) g.level]
      toStrike := r.toStrike ++ if r.p.cuts.isEmpty then [.offer (some tail)] else [] } := by
  rw [PlanStep.fix_eq hnext hg]
  simp only [hover]

end

/-! ### Work that waits on room -/

section
variable {c : PlanContext} {r : PlanStep} {o : OpenPiece}

theorem PlanStep.due_overdue (h : r.p.room 1 1 = false) (o : OpenPiece) :
    r.due o = { r with p := { r.p with overdue := true } } := by
  simp [PlanStep.due, h, PlanStep.change]

theorem PlanStep.due_size (hroom : r.p.room 1 1 = true) (habove : r.p.aboveCf o.candidate = true) :
    r.due o = r.fix o (.size 0) o.candidate := by
  simp [PlanStep.due, hroom, habove]

theorem PlanStep.due_overlength (hroom : r.p.room 1 1 = true) (hbelow : r.p.aboveCf o.candidate = false) :
    r.due o = r.fix o .overlength r.p.overTail := by
  simp [PlanStep.due, hroom, hbelow]

theorem PlanStep.retryOverdue_made (ho : r.p.openPiece = some o) (hover : r.p.overdue = true) (hroom : r.p.room 1 1 = true) :
    r.retryOverdue = (r.fix o .overlength r.p.overTail).count .queueFull := by
  simp [PlanStep.retryOverdue, ho, hover, hroom]

theorem PlanStep.retryOverdue_left (h : r.p.overdue = false ∨ r.p.room 1 1 = false) : r.retryOverdue = r := by
  unfold PlanStep.retryOverdue
  cases r.p.openPiece with
  | none => rfl
  | some o => rcases h with h | h <;> simp [h]

/-- The RUN_END piece, with no open piece after it (R98). -/
theorem PlanStep.retryRunEnd_made (ho : r.p.openPiece = some o) (hwait : r.p.runEnd = .waiting) (hroom : r.p.room 1 0 = true)
    (hnext : r.p.nextPiece < 4294967295) :
    r.retryRunEnd c =
      (let tail := max r.p.overTail (o.head + c.minTrim)
       { r with
         p := { r.p with
           pieces := r.p.pieces ++
             [{ number := r.p.nextPiece, kind := .runEnd, head := some o.head, tail := tail, state := .planned,
                sizes := o.sizes }]
           cuts := r.p.cuts ++ [{ pos := tail, kind := .runEnd, committed := false }]
           nextPiece := r.p.nextPiece + 1, openPiece := none, overdue := false, runEnd := .fixed }
         toStrike := r.toStrike ++ if r.p.cuts.isEmpty then [.offer (some tail)] else [] }) := by
  simp only [PlanStep.retryRunEnd, ho, hwait, hroom, and_self, if_true, PlanStep.place_eq hnext]
  rfl

theorem PlanStep.retryRunEnd_left (h : r.p.runEnd ≠ .waiting ∨ r.p.room 1 0 = false) : r.retryRunEnd c = r := by
  unfold PlanStep.retryRunEnd
  cases r.p.openPiece with
  | none => rfl
  | some o => exact if_neg fun hw => h.elim (fun h => h hw.1) fun h => Bool.false_ne_true (h.symm.trans hw.2)

theorem PlanStep.takeUpRoom_running (h : c.running = true) : r.takeUpRoom c = r.retryOverdue := if_pos h

theorem PlanStep.takeUpRoom_not_running (h : c.running = false) : r.takeUpRoom c = r.retryRunEnd c :=
  if_neg (Bool.not_eq_true _ ▸ h)

theorem PlanStep.takeUpRoom_idle (hover : r.p.overdue = false) (hend : r.p.runEnd ≠ .waiting) : r.takeUpRoom c = r := by
  unfold PlanStep.takeUpRoom
  split
  · exact PlanStep.retryOverdue_left (.inl hover)
  · exact PlanStep.retryRunEnd_left (.inl hend)

end

/-! ### What an event of the Planner leaves -/

section
variable {s : State} {sh : Shadow}

theorem State.tagAll_nil {α : Type} (s : State) : s.tagAll ([] : List α) = [] := rfl

theorem State.tagAll_append {α : Type} (s : State) (ms ns : List α) : s.tagAll (ms ++ ns) = s.tagAll ms ++ s.tagAll ns :=
  List.map_append

theorem State.tagAll_if {α : Type} (s : State) (b : Prop) [Decidable b] (m : α) :
    s.tagAll (if b then [m] else []) = if b then [s.tag m] else [] := by
  split <;> rfl

theorem State.finishPlan_eq (s : State) (r : PlanStep) :
    s.finishPlan r = { s with
      planner := r.p
      cmd := { s.cmd with plan := r.plan }
      wires := { s.wires with
        plannerAsm := s.wires.plannerAsm ++ s.tagAll r.toAsm
        plannerStrike := s.wires.plannerStrike ++ s.tagAll r.toStrike
        increments := s.wires.increments ++ r.incs.map fun i => (.planner, i) } } := rfl

/-- An event that sends nothing. -/
theorem State.finishPlan_silent {r : PlanStep} (hasm : r.toAsm = []) (hstrike : r.toStrike = []) (hincs : r.incs = []) :
    s.finishPlan r = { s with planner := r.p, cmd := { s.cmd with plan := r.plan } } := by
  rw [State.finishPlan_eq, hasm, hstrike, hincs]
  simp only [State.tagAll_nil, List.map_nil, List.append_nil]

/-- An event that sends to the Strike Unit alone. -/
theorem State.finishPlan_offers {r : PlanStep} (hasm : r.toAsm = []) (hincs : r.incs = []) :
    s.finishPlan r = { s with
      planner := r.p
      cmd := { s.cmd with plan := r.plan }
      wires := { s.wires with plannerStrike := s.wires.plannerStrike ++ s.tagAll r.toStrike } } := by
  rw [State.finishPlan_eq, hasm, hincs]
  simp only [State.tagAll_nil, List.map_nil, List.append_nil]

/-- A message of the assembler, of the kind a row names, is taken by the Planner. -/
theorem takeAsmIf_taken {kind : AsmMsg → Bool} {m : AsmMsg} {rest : List (Tagged AsmMsg)} (hr : s.inReset = false)
    (hw : s.wires.asmPlanner = { epoch := s.epoch, msg := m } :: rest) (hk : kind m = true) (hsh : s.cmd.shadow = some sh) :
    takeAsmIf kind s = State.finishPlan { s with wires := { s.wires with asmPlanner := rest } }
      (s.planStep.takeAsm (s.planContext sh) sh.travel.pitch m) := by
  refine (receiveIf_taken hr hw hk).trans ?_
  simp only [takeAsmMsg, hsh]
  rfl

end

end Sys2Proof.Machine
end

section
/-! The open piece at its end: due at a joined line or a rise, and fixed at the run end (R86, R88 to R90, R98); with them O37 and
O38. -/

namespace Sys2Proof.Machine

/-! ### The due tests -/

section
variable {r : PlanStep} {o : OpenPiece}

theorem PlanStep.dueByFrontier_due (ho : r.p.openPiece = some o) (hover : r.p.overdue = false)
    (hdue : o.head + o.sizes.l1 ≤ r.p.frontier) : r.dueByFrontier = r.due o := by
  simp [PlanStep.dueByFrontier, ho, hover, OpenPiece.candidate, hdue]

theorem PlanStep.dueByFrontier_left
    (h : ∀ o, r.p.openPiece = some o → r.p.overdue = true ∨ r.p.frontier < o.head + o.sizes.l1) : r.dueByFrontier = r := by
  unfold PlanStep.dueByFrontier
  cases ho : r.p.openPiece with
  | none => rfl
  | some o =>
    rcases h o ho with hover | hlt
    · simp [hover]
    · simp [OpenPiece.candidate, Nat.not_le.mpr hlt]

theorem PlanStep.dueByRise_due (ho : r.p.openPiece = some o) (hover : r.p.overdue = false)
    (hdue : r.p.aboveCf (o.head + o.sizes.l1) = false) : r.dueByRise = r.due o := by
  simp [PlanStep.dueByRise, ho, hover, OpenPiece.candidate, hdue]

theorem PlanStep.dueByRise_left
    (h : ∀ o, r.p.openPiece = some o → r.p.overdue = true ∨ r.p.aboveCf (o.head + o.sizes.l1) = true) : r.dueByRise = r := by
  unfold PlanStep.dueByRise
  cases ho : r.p.openPiece with
  | none => rfl
  | some o =>
    rcases h o ho with hover | habove
    · simp [hover]
    · simp [OpenPiece.candidate, habove]

end

/-! ### JOINED_LINE and FLUSH_END -/

section
variable {s : State} {sh : Shadow} {rest : List (Tagged AsmMsg)}

theorem exec_joinedLine {n : Nat} (hr : s.inReset = false)
    (hw : s.wires.asmPlanner = { epoch := s.epoch, msg := .joined n } :: rest) (hsh : s.cmd.shadow = some sh) :
    exec .joinedLine s = .next (State.finishPlan { s with wires := { s.wires with asmPlanner := rest } }
      (PlanStep.dueByFrontier
        { s.planStep with p := { s.planner with frontier := (n + 1) * sh.travel.pitch } })) :=
  congrArg Host.Outcome.next (takeAsmIf_taken hr hw rfl hsh)

theorem exec_flushEnd (hr : s.inReset = false) (hw : s.wires.asmPlanner = { epoch := s.epoch, msg := .flushEnd } :: rest)
    (hsh : s.cmd.shadow = some sh) :
    exec .flushEnd s = .next (State.finishPlan { s with wires := { s.wires with asmPlanner := rest } }
      (PlanStep.retryRunEnd (s.planContext sh)
        { s.planStep with p := { s.planner with runEnd := .waiting, overdue := false } })) :=
  congrArg Host.Outcome.next (takeAsmIf_taken hr hw rfl hsh)

end

/-! ### PLANNER_RISE -/

section
variable {s : State} {sh : Shadow}

theorem exec_plannerRise {m : Rise} {rest : List (Tagged Rise)} (hr : s.inReset = false)
    (hw : s.wires.plannerRises = { epoch := s.epoch, msg := m } :: rest) (hsh : s.cmd.shadow = some sh)
    (hle : sh.dCommit ≤ sh.dCut) :
    exec .plannerRise s = .next (State.finishPlan { s with wires := { s.wires with plannerRises := rest } }
      (PlanStep.dueByRise
        { s.planStep with p := s.planner.setCf ((m.p1 : Int) - ((sh.dCut : Int) - sh.dCommit)) })) := by
  refine congrArg Host.Outcome.next ((receive_taken hr hw).trans ?_)
  simp only [takePlannerRise, hsh, ← Int.natCast_sub hle]
  rfl

end

/-- Settles O38: Cf moved and the cuts at or below it committed (`exec_plannerRise`), then the due test at Cf in its cases. -/
theorem riseCommitsCuts : Obligations.RiseCommitsCuts := by
  unfold Obligations.RiseCommitsCuts
  refine ⟨fun m rest s sh hr hw hsh hle => ?_, fun m rest s sh o hr hw hsh hle ho hover => ?_⟩
  · intro cf hleft
    have habove : ∀ o, s.planner.openPiece = some o →
        s.planner.overdue = true ∨ (s.planner.setCf cf).aboveCf (o.head + o.sizes.l1) = true := fun o ho =>
      (hleft o ho).imp_right fun hlt => (Planner.aboveCf_iff _ _).mpr fun x hx =>
        Option.some.inj (show some cf = some x from hx) ▸ hlt
    rw [exec_plannerRise hr hw hsh hle, PlanStep.dueByRise_left habove]
    exact congrArg Host.Outcome.next (State.finishPlan_silent rfl rfl rfl)
  · intro cf committed hdue
    have hbelow : committed.aboveCf (o.head + o.sizes.l1) = false := Planner.aboveCf_eq_false rfl hdue
    have hcuts : committed.cuts.length = s.planner.cuts.length := List.length_map _
    have hpieces : committed.pieces.length = s.planner.pieces.length := List.length_map _
    rw [exec_plannerRise hr hw hsh hle, PlanStep.dueByRise_due ho hover hbelow]
    refine ⟨fun hfull => ?_, fun g hfree hslots hnext hg => ?_⟩
    · rw [PlanStep.due_overdue (Planner.room_eq_false (p := committed) ho (by rwa [hcuts, hpieces]))]
      exact congrArg Host.Outcome.next (State.finishPlan_silent rfl rfl rfl)
    · intro tail
      rw [PlanStep.due_overlength ((Planner.room_iff (p := committed) ho 1 1).mpr (by
          rw [hcuts, hpieces]; exact ⟨hfree, hslots⟩)) hbelow,
        PlanStep.fix_of_not_overdue (by exact hover) (by exact hnext) (by exact hg), Planner.overTail_some rfl]
      simp only [State.finishPlan_eq, State.planStep, List.nil_append, List.map_nil, List.append_nil, State.tagAll_if,
        Planner.setCf, List.isEmpty_map]
      rfl

/-- Settles O37: the due test at the frontier in its cases (`PlanStep.due_size`, `PlanStep.due_overlength`,
`PlanStep.due_overdue`), and the run end with and without a free queue entry (`PlanStep.retryRunEnd_made`). -/
theorem openPieceFixedAtItsEnd : Obligations.OpenPieceFixedAtItsEnd := by
  unfold Obligations.OpenPieceFixedAtItsEnd
  refine ⟨fun n rest s sh hr hw hsh => ?_, fun n rest s sh o g cf hr hw hsh ho hover hcf => ?_,
    fun rest s sh o hr hw hsh ho hpieces hnext => ⟨fun hfull => ?_, fun hfree => ?_⟩⟩
  · intro frontier
    refine ⟨fun hleft => ?_, fun o ho hover hdue => ?_⟩
    · rw [exec_joinedLine hr hw hsh, PlanStep.dueByFrontier_left hleft]
      exact congrArg Host.Outcome.next (State.finishPlan_silent rfl rfl rfl)
    rw [exec_joinedLine hr hw hsh, PlanStep.dueByFrontier_due ho hover hdue]
    refine ⟨fun hfull => ?_, fun g hcuts hpieces habove hnext hg => ⟨_, rfl, ?_⟩⟩
    · rw [PlanStep.due_overdue (Planner.room_eq_false (by exact ho) hfull)]
      exact congrArg Host.Outcome.next (State.finishPlan_silent rfl rfl rfl)
    · rw [PlanStep.due_size ((Planner.room_iff ho 1 1).mpr ⟨hcuts, hpieces⟩) ((Planner.aboveCf_iff _ _).mpr habove),
        PlanStep.fix_of_not_overdue (by exact hover) (by exact hnext) (by exact hg)]
      exact ⟨rfl, rfl, congrArg (s.wires.plannerStrike ++ ·) (s.tagAll_if _ _), rfl, List.append_nil _, rfl⟩
  · intro frontier hdue hbelow hcuts hpieces hnext hg tail
    have hnot : s.planner.aboveCf (o.head + o.sizes.l1) = false := Planner.aboveCf_eq_false hcf hbelow
    rw [exec_joinedLine hr hw hsh, PlanStep.dueByFrontier_due ho hover hdue,
      PlanStep.due_overlength ((Planner.room_iff ho 1 1).mpr ⟨hcuts, hpieces⟩) hnot,
      PlanStep.fix_of_not_overdue (by exact hover) (by exact hnext) (by exact hg), Planner.overTail_some (by exact hcf)]
    simp only [State.finishPlan_eq, State.planStep, List.nil_append, List.map_nil, List.append_nil, State.tagAll_if]
    rfl
  · have hroom : Planner.room { s.planner with runEnd := .waiting, overdue := false } 1 0 = false :=
      Planner.room_eq_false ho (.inl (by simp [hfull]))
    rw [exec_flushEnd hr hw hsh, PlanStep.retryRunEnd_left (.inr hroom)]
    exact congrArg Host.Outcome.next (State.finishPlan_silent rfl rfl rfl)
  · rw [exec_flushEnd hr hw hsh, PlanStep.retryRunEnd_made (by exact ho) rfl
      ((Planner.room_iff ho 1 0).mpr ⟨hfree, hpieces⟩) (by exact hnext)]
    refine ⟨_, _, rfl, ?_, rfl, rfl, List.append_nil _, congrArg (s.wires.plannerStrike ++ ·) (s.tagAll_if _ _)⟩
    rw [Planner.overTail_eq, max_comm]
    rfl

end Sys2Proof.Machine
end

section
/-! Claims, offers and removals: the strike of the head cut, what its queue entry or a piece's table slot is freed for, and the
claim state (R80, R87, R88, R90, R98, R99, R103, R104, R125); with them O39 and O40. -/

namespace Sys2Proof.Machine

/-! ### A claim of the head cut -/

section
variable {k : PlanContext} {r : PlanStep} {q : Piece} {c : Nat}

theorem PlanStep.claim_withdrawn (h : r.p.headCut ≠ some c) :
    r.claim k c = { r with toStrike := r.toStrike ++ [.withdrawal] } := by
  unfold PlanStep.claim
  split
  · exact if_neg h
  · rfl

/-- The piece whose tail is a position, where only one has it. -/
theorem find?_tail_eq {ps : List Piece} (hq : q ∈ ps) (htail : q.tail = c) (huniq : ∀ x ∈ ps, x.tail = c → x = q) :
    ps.find? (fun x => decide (x.tail = c)) = some q := by
  cases h : ps.find? (fun x => decide (x.tail = c)) with
  | none => exact absurd htail (by simpa using List.find?_eq_none.mp h q hq)
  | some x => rw [huniq x (List.mem_of_find?_eq_some h) (by simpa using List.find?_some h)]

theorem PlanStep.claim_granted {x : Cut} {cs : List Cut} (hcuts : r.p.cuts = x :: cs) (hx : x.pos = c) (hq : q ∈ r.p.pieces)
    (htail : q.tail = c) (huniq : ∀ y ∈ r.p.pieces, y.tail = c → y = q) :
    r.claim k c = PlanStep.takeUpRoom k { r with
      p := { r.p with
        cuts := cs
        pieces := r.p.pieces.map fun y => if y.tail = c then { y with state := .struck } else y }
      toStrike := r.toStrike ++ [.grant q.number q.kind q.head q.tail, .offer (cs.head?.map (·.pos))] } := by
  have hhead : r.p.headCut = some c := by simp [Planner.headCut, hcuts, hx]
  unfold PlanStep.claim
  simp only [find?_tail_eq hq htail huniq, hhead, if_true]
  simp only [PlanStep.strike, Planner.headCut, hcuts, htail, List.tail_cons]

end

section
variable {s : State} {sh : Shadow}

theorem exec_strikeClaim {c : Nat} {rest : List (Tagged Nat)} (hr : s.inReset = false)
    (hw : s.wires.claims = { epoch := s.epoch, msg := c } :: rest) (hsh : s.cmd.shadow = some sh) :
    exec .strikeClaim s = .next (State.finishPlan { s with wires := { s.wires with claims := rest } }
      (s.planStep.claim (s.planContext sh) c)) := by
  refine congrArg Host.Outcome.next ((receive_taken hr hw).trans ?_)
  simp only [takeClaim, hsh]
  rfl

end

/-! ### Offers and withdrawals -/

section
variable {t : Strike} {dCut : Nat}

theorem Strike.offer_held {c : Option Nat} (h : t.claiming ≠ none ∨ c = none ∨ ∃ x, c = some x ∧ t.lastPos < x + dCut) :
    t.offer dCut c = { t := { t with offered := c }, claims := [] } := by
  unfold Strike.offer StrikeStep.takeUp
  split
  case h_1 x hclaim hc =>
    refine if_neg fun hle => ?_
    rcases h with h | h | ⟨y, hy, hlt⟩
    · exact h hclaim
    · exact Option.some_ne_none x (hc.symm.trans h)
    · have hxy : x = y := Option.some.inj (hc.symm.trans hy)
      exact absurd hle (Nat.not_le.mpr (hxy ▸ hlt))
  case h_2 => rfl

theorem Strike.offer_claimed {x : Nat} (hidle : t.claiming = none) (hle : x + dCut ≤ t.lastPos) :
    t.offer dCut (some x) = { t := { t with offered := some x, claiming := some x }, claims := [x] } := by
  simp [Strike.offer, StrikeStep.takeUp, hidle, hle, StrikeStep.claim]

/-- A withdrawal ends the claim; the head then held is claimed if it is another cut whose target has arrived (R104). -/
theorem Strike.withdraw_eq {x : Nat} (h : t.claiming = some x) :
    t.withdraw dCut =
      (let taken := match t.offered with
        | some c => if c ≠ x ∧ c + dCut ≤ t.lastPos then [c] else []
        | none => []
       { t := { t with claiming := taken.head?, withdrawn := min 4294967295 (t.withdrawn + 1) }, claims := taken }) := by
  unfold Strike.withdraw
  simp only [h, Strike.endClaim, bump, satAdd]
  cases hoff : t.offered with
  | none => simp [StrikeStep.takeUp]
  | some c =>
    by_cases hcx : c = x
    · simp [hcx]
    · by_cases hle : c + dCut ≤ t.lastPos
      · simp [StrikeStep.takeUp, StrikeStep.claim, hcx, hle]
      · simp [StrikeStep.takeUp, hcx, hle]

end

section
variable {s : State} {sh : Shadow} {rest : List (Tagged StrikeMsg)}

theorem State.finishStrike_eq (s : State) (r : StrikeStep) :
    s.finishStrike r = { s with strike := r.t, wires := { s.wires with claims := s.wires.claims ++ s.tagAll r.claims } } := rfl

theorem exec_headOffer {c : Option Nat} (hr : s.inReset = false)
    (hw : s.wires.plannerStrike = { epoch := s.epoch, msg := .offer c } :: rest) (hsh : s.cmd.shadow = some sh) :
    exec .headOffer s = .next (State.finishStrike { s with wires := { s.wires with plannerStrike := rest } }
      (s.strike.offer sh.dCut c)) := by
  refine congrArg Host.Outcome.next ((receiveIf_taken hr hw rfl).trans ?_)
  simp only [takeStrikeMsg, hsh]

theorem exec_claimWithdrawal (hr : s.inReset = false)
    (hw : s.wires.plannerStrike = { epoch := s.epoch, msg := .withdrawal } :: rest) (hsh : s.cmd.shadow = some sh) :
    exec .claimWithdrawal s = .next (State.finishStrike { s with wires := { s.wires with plannerStrike := rest } }
      (s.strike.withdraw sh.dCut)) := by
  refine congrArg Host.Outcome.next ((receiveIf_taken hr hw rfl).trans ?_)
  simp only [takeStrikeMsg, hsh]

end

/-- Settles O39: a claim granted (`PlanStep.claim_granted`) or withdrawn, what the freed entry is for
(`PlanStep.retryOverdue_made`, `PlanStep.retryRunEnd_made`), and the claim state at an offer and at a withdrawal. -/
theorem claimsOffersAndWithdrawals : Obligations.ClaimsOffersAndWithdrawals := by
  unfold Obligations.ClaimsOffersAndWithdrawals
  refine ⟨fun c rest s sh hr hw hsh hover hend => ⟨fun x cs q hcuts hx hq htail huniq => ?_, fun hhead => ?_⟩,
    fun c rest s sh o x cs q hr hw hsh ho hcuts hx hfree hq htail huniq => ?_, fun c rest s sh hr hw hsh => ?_,
    fun x rest s sh hr hw hsh hclaim => ?_⟩
  · rw [exec_strikeClaim hr hw hsh, PlanStep.claim_granted (r := s.planStep) hcuts hx hq htail huniq,
      PlanStep.takeUpRoom_idle hover hend]
    exact congrArg Host.Outcome.next (State.finishPlan_offers rfl rfl)
  · rw [exec_strikeClaim hr hw hsh, PlanStep.claim_withdrawn (r := s.planStep) hhead]
    exact congrArg Host.Outcome.next (State.finishPlan_offers rfl rfl)
  · intro struck lengthened answer offered
    have hlen : struck.length = s.planner.pieces.length := List.length_map _
    have hgrant := PlanStep.claim_granted (k := s.planContext sh) (r := s.planStep) hcuts hx hq htail huniq
    rw [exec_strikeClaim hr hw hsh, hgrant]
    refine ⟨fun hrun hover => ?_, fun hdrain hwait hslot hnext => ?_⟩
    · rw [PlanStep.takeUpRoom_running (decide_eq_true hrun)]
      refine ⟨fun hfull => ?_, fun g hslots hnext hg => ?_⟩
      · rw [PlanStep.retryOverdue_left (.inr (Planner.room_eq_false (by exact ho) (.inr (by
          show 40 < struck.length + 1 + 1
          omega))))]
        exact congrArg Host.Outcome.next (State.finishPlan_offers rfl rfl)
      · have hroom : Planner.room { s.planner with cuts := cs, pieces := struck } 1 1 = true :=
          (Planner.room_iff (by exact ho) 1 1).mpr ⟨hfree, by rw [hlen]; exact hslots⟩
        rw [PlanStep.retryOverdue_made (by exact ho) hover hroom, PlanStep.fix_eq (by exact hnext) (by exact hg),
          Planner.overTail_eq]
        rfl
    · have hroom : Planner.room { s.planner with cuts := cs, pieces := struck } 1 0 = true :=
        (Planner.room_iff (by exact ho) 1 0).mpr ⟨hfree, by rw [hlen]; exact hslot⟩
      rw [PlanStep.takeUpRoom_not_running (by simp [State.planContext, hdrain]),
        PlanStep.retryRunEnd_made (by exact ho) hwait hroom (by exact hnext), Planner.overTail_eq]
      exact congrArg Host.Outcome.next (State.finishPlan_offers rfl rfl)
  · rw [exec_headOffer hr hw hsh]
    intro held
    cases hclaim : s.strike.claiming with
    | some y =>
      rw [Strike.offer_held (.inl (by simp [hclaim])), State.finishStrike_eq, State.tagAll_nil]
      simp only [List.append_nil]
      rfl
    | none =>
      cases c with
      | none =>
        rw [Strike.offer_held (.inr (.inl rfl)), State.finishStrike_eq, State.tagAll_nil]
        simp only [List.append_nil]
        rfl
      | some x =>
        by_cases hle : x + sh.dCut ≤ s.strike.lastPos
        · rw [Strike.offer_claimed hclaim hle]
          simp only [if_pos hle]
          rfl
        · rw [Strike.offer_held (.inr (.inr ⟨x, rfl, Nat.not_le.mp hle⟩)), State.finishStrike_eq, State.tagAll_nil]
          simp only [if_neg hle, List.append_nil]
          rfl
  · intro taken
    rw [exec_claimWithdrawal hr hw hsh, Strike.withdraw_eq hclaim]
    rfl

/-! ### Removals and moves -/

section
variable {s : State} {sh : Shadow} {n : Nat} {rest : List (Tagged PieceReq)}

theorem exec_pieceRemoval (hr : s.inReset = false)
    (hw : s.wires.pieceReqs = { epoch := s.epoch, msg := .removal n } :: rest) (hsh : s.cmd.shadow = some sh) :
    exec .pieceRemoval s = .next (State.runEndDone
      (State.finishPlan { s with wires := { s.wires with pieceReqs := rest } } (s.planStep.remove (s.planContext sh) n))) := by
  refine congrArg Host.Outcome.next ((receiveIf_taken hr hw rfl).trans ?_)
  simp only [takePieceReq, hsh]
  rfl

theorem exec_waitingLogMove (hr : s.inReset = false)
    (hw : s.wires.pieceReqs = { epoch := s.epoch, msg := .waitingLog n } :: rest) (hsh : s.cmd.shadow = some sh) :
    exec .waitingLogMove s = .next { s with
      planner := { s.planner with
        pieces := s.planner.pieces.map fun q => if q.number = n then { q with state := .waitingLog } else q }
      wires := { s.wires with pieceReqs := rest } } := by
  refine congrArg Host.Outcome.next ((receiveIf_taken hr hw rfl).trans ?_)
  simp only [takePieceReq, hsh]

/-- The table with its open piece is empty when it holds no piece and none is open. -/
theorem Planner.count_eq_zero_iff (p : Planner) : p.count = 0 ↔ p.pieces.isEmpty = true ∧ p.openPiece.isNone = true := by
  rw [Planner.count, Nat.add_eq_zero_iff, List.isEmpty_iff, List.length_eq_zero_iff]
  cases p.openPiece <;> simp

theorem State.runEndDone_eq (s : State) :
    s.runEndDone = { s with wires := { s.wires with
      runEnds := s.wires.runEnds ++
        (if s.planner.runEnd = .fixed ∧ s.planner.pieces.isEmpty = true ∧ s.planner.openPiece.isNone = true then [s.tag ()]
         else []) } } := by
  unfold State.runEndDone
  simp only [Planner.count_eq_zero_iff]
  split
  · rfl
  · rw [List.append_nil]

theorem State.runEndDone_of_not_fixed (h : s.planner.runEnd ≠ .fixed) : s.runEndDone = s := if_neg fun hf => h hf.1

end

/-- Settles O40: a removal with and without work that waits on its room (`PlanStep.takeUpRoom_idle`,
`PlanStep.retryOverdue_made`), and the completion of the run end (`State.runEndDone_eq`). -/
theorem removalsAndFreedRoom : Obligations.RemovalsAndFreedRoom := by
  unfold Obligations.RemovalsAndFreedRoom
  refine ⟨fun n rest s sh hr hsh hover hend => ⟨fun hw => ?_, fun hw => exec_waitingLogMove hr hw hsh⟩,
    fun n rest s sh o g hr hsh hrun ho hover hend hg hw hcuts hnext => ?_⟩
  · rw [exec_pieceRemoval hr hw hsh, PlanStep.remove, PlanStep.takeUpRoom_idle hover hend, State.runEndDone_eq]
    simp only [State.finishPlan_eq, State.planStep, PlanStep.change, State.tagAll_nil, List.map_nil, List.append_nil]
    rfl
  · intro pieces hslots
    have hroom : Planner.room { s.planner with pieces := pieces } 1 1 = true :=
      (Planner.room_iff (by exact ho) 1 1).mpr ⟨hcuts, hslots⟩
    rw [exec_pieceRemoval hr hw hsh, PlanStep.remove, PlanStep.takeUpRoom_running (decide_eq_true hrun),
      PlanStep.retryOverdue_made (by exact ho) hover hroom, PlanStep.fix_eq (by exact hnext) (by exact hg), Planner.overTail_eq,
      State.runEndDone_of_not_fixed (by exact hend)]
    exact ⟨_, _, rfl, rfl, rfl, rfl, rfl, rfl⟩

end Sys2Proof.Machine
end

section
/-! One flaw examined against the open piece: the marks, and the replans of R92 to R94 with the checks of R95. -/

namespace Sys2Proof.Machine

/-! ### Marks -/

/-- The flaws that a LATE mark of f is sent for: f, unless it carries the flag or was marked in this run (R95). -/
def Planner.lates (p : Planner) (f : FlawEntry) : List Nat :=
  if f.late = true ∨ f.number ∈ p.markedLate then [] else [f.number]

/-- The flaws that an UNPLANNED mark of f is sent for (R95). -/
def Planner.unplanneds (p : Planner) (f : FlawEntry) : List Nat :=
  if f.unplanned = true ∨ f.number ∈ p.markedUnplanned then [] else [f.number]

/-- LATE marks sent, and counted. -/
def PlanStep.markLates (r : PlanStep) (ns : List Nat) : PlanStep :=
  { r with
    p := { r.p with markedLate := r.p.markedLate ++ ns }
    toAsm := r.toAsm ++ ns.map PlanReq.markLate
    incs := r.incs ++ ns.map fun _ => .lateFlaw }

/-- UNPLANNED marks sent, and counted. -/
def PlanStep.markUnplanneds (r : PlanStep) (ns : List Nat) : PlanStep :=
  { r with
    p := { r.p with markedUnplanned := r.p.markedUnplanned ++ ns }
    toAsm := r.toAsm ++ ns.map PlanReq.markUnplanned
    incs := r.incs ++ ns.map fun _ => .unplannedFlaw }

section
variable {c : PlanContext} {r : PlanStep} {o : OpenPiece} {f : FlawEntry}

theorem PlanStep.markLates_nil (r : PlanStep) : r.markLates [] = r := by
  simp only [PlanStep.markLates, List.map_nil, List.append_nil]

theorem PlanStep.markUnplanneds_nil (r : PlanStep) : r.markUnplanneds [] = r := by
  simp only [PlanStep.markUnplanneds, List.map_nil, List.append_nil]

theorem PlanStep.late_eq (r : PlanStep) (f : FlawEntry) : r.late f = r.markLates (r.p.lates f) := by
  unfold PlanStep.late Planner.lates
  simp only [Bool.or_eq_true, List.contains_iff_mem]
  split
  · exact r.markLates_nil.symm
  · rfl

theorem PlanStep.unplanned_eq (r : PlanStep) (f : FlawEntry) : r.unplanned f = r.markUnplanneds (r.p.unplanneds f) := by
  unfold PlanStep.unplanned Planner.unplanneds
  simp only [Bool.or_eq_true, List.contains_iff_mem]
  split
  · exact r.markUnplanneds_nil.symm
  · rfl

theorem PlanStep.lateBelow_eq (r : PlanStep) (f : FlawEntry) (head : Nat) :
    r.lateBelow f head = r.markLates (if f.start < head then r.p.lates f else []) := by
  unfold PlanStep.lateBelow
  split
  · exact r.late_eq f
  · exact r.markLates_nil.symm

theorem PlanStep.noRoom_eq (r : PlanStep) (f : FlawEntry) :
    r.noRoom f = (r.markUnplanneds (r.p.unplanneds f)).count .queueFull := by
  rw [PlanStep.noRoom, PlanStep.unplanned_eq]

/-- A flaw is marked LATE once. -/
theorem Planner.lates_of_marked {p : Planner} (h : f.late = true ∨ f.number ∈ p.markedLate) : p.lates f = [] := if_pos h

theorem PlanStep.late_marked (r : PlanStep) (f : FlawEntry) : f.late = true ∨ f.number ∈ (r.late f).p.markedLate := by
  by_cases h : f.late = true ∨ f.number ∈ r.p.markedLate
  · rw [PlanStep.late_eq, Planner.lates_of_marked h, PlanStep.markLates_nil]
    exact h
  · rw [PlanStep.late_eq, Planner.lates, if_neg h]
    exact .inr (List.mem_append_right _ (List.mem_singleton_self _))

theorem PlanStep.late_late (r : PlanStep) (f : FlawEntry) : (r.late f).late f = r.late f := by
  rw [(r.late f).late_eq f, Planner.lates_of_marked (r.late_marked f), PlanStep.markLates_nil]

theorem PlanStep.lateBelow_of_marked (h : f.late = true ∨ f.number ∈ r.p.markedLate) (head : Nat) :
    r.lateBelow f head = r := by
  rw [PlanStep.lateBelow_eq, Planner.lates_of_marked h, ite_self, PlanStep.markLates_nil]

/-! ### Which examination a flaw gets (R91) -/

theorem PlanStep.examine_left (ho : r.p.openPiece = some o)
    (h : f.severity.code < o.sizes.level ∨ (o.head < f.stop ∧ o.head + o.sizes.l1 ≤ f.start)) : r.examine c f = r := by
  unfold PlanStep.examine
  simp only [ho]
  rcases h with h | ⟨hstop, hstart⟩
  · exact if_pos h
  · rw [if_neg (Nat.not_le.mpr hstop), if_pos (show o.candidate ≤ f.start from hstart), ite_self]

theorem PlanStep.examine_closed (ho : r.p.openPiece = none) : r.examine c f = r := by
  unfold PlanStep.examine
  simp only [ho]

theorem PlanStep.examine_covered (ho : r.p.openPiece = some o) (hstop : f.stop ≤ o.head) (hcov : r.p.covered f = true) :
    r.examine c f = r := by
  unfold PlanStep.examine
  simp only [ho, if_pos hstop, if_pos hcov, ite_self]

theorem PlanStep.examine_behind (ho : r.p.openPiece = some o) (hlevel : o.sizes.level ≤ f.severity.code)
    (hstop : f.stop ≤ o.head) (hcov : r.p.covered f = false) : r.examine c f = r.late f := by
  unfold PlanStep.examine
  simp only [ho, if_neg (Nat.not_lt.mpr hlevel), if_pos hstop, hcov, Bool.false_eq_true, if_false]

theorem PlanStep.examine_ahead (ho : r.p.openPiece = some o) (hlevel : o.sizes.level ≤ f.severity.code)
    (hstop : o.head < f.stop) (hstart : f.start < o.head + o.sizes.l1) : r.examine c f = r.replan c o f := by
  unfold PlanStep.examine
  simp only [ho, if_neg (Nat.not_lt.mpr hlevel), if_neg (Nat.not_le.mpr hstop)]
  exact if_neg (Nat.not_le.mpr hstart)

/-! ### Sizes that fit (R92) -/

/-- A plate of size l from the open head ends at or before f0 and above Cf. -/
def Planner.fits (p : Planner) (o : OpenPiece) (f : FlawEntry) (l : Nat) : Prop :=
  o.head + l + o.sizes.margin ≤ f.start ∧ p.aboveCf (o.head + l) = true

theorem Planner.fits_iff (p : Planner) (o : OpenPiece) (f : FlawEntry) (l : Nat) :
    (decide (o.head + l + o.sizes.margin ≤ f.start) && p.aboveCf (o.head + l)) = true ↔ p.fits o f l := by
  rw [Bool.and_eq_true, decide_eq_true_eq, Planner.fits]

theorem Planner.sizedPlate_eq_none {p : Planner} (h : ∀ z ∈ o.sizes.numbered, ¬ p.fits o f z.2) : p.sizedPlate o f = none :=
  List.find?_eq_none.mpr fun z hz hfit => h z hz ((p.fits_iff o f z.2).mp hfit)

theorem Planner.sizedPlate_eq_some {p : Planner} {i : Nat} {z : Fin 4 × Nat} (hz : o.sizes.numbered[i]? = some z)
    (hfit : p.fits o f z.2) (hfirst : ∀ j y, j < i → o.sizes.numbered[j]? = some y → ¬ p.fits o f y.2) :
    p.sizedPlate o f = some z := by
  obtain ⟨hi, hget⟩ := List.getElem?_eq_some_iff.mp hz
  refine List.find?_eq_some_iff_getElem.mpr ⟨(p.fits_iff o f z.2).mpr hfit, i, hi, hget, fun j hj => ?_⟩
  have hearlier := hfirst j _ hj (List.getElem?_eq_getElem (hj.trans hi))
  rwa [Bool.not_eq_true', ← Bool.not_eq_true, Planner.fits_iff]

theorem Planner.sizedPlate_isSome {p : Planner} (h : ∃ z ∈ o.sizes.numbered, p.fits o f z.2) :
    ∃ z, p.sizedPlate o f = some z := by
  obtain ⟨z, hz, hfit⟩ := h
  exact Option.isSome_iff_exists.mp (List.find?_isSome.mpr ⟨z, hz, (p.fits_iff o f z.2).mpr hfit⟩)

/-! ### The CULLET piece before the open piece (R93) -/

/-- A CULLET piece that ends at the open head and stays within L1 with the flaw taken in. -/
def canMerge (c : PlanContext) (o : OpenPiece) (f : FlawEntry) (q : Piece) : Prop :=
  q.kind = .cullet ∧ q.tail = o.head ∧ mergeTail c o f q ≤ q.head.getD 0 + o.sizes.l1

theorem Planner.culletBefore_eq {p : Planner} {q : Piece} (hq : q ∈ p.pieces) (hkind : q.kind = .cullet)
    (htail : q.tail = o.head) (huniq : ∀ x ∈ p.pieces, x.tail = o.head → x = q) : p.culletBefore o = some q := by
  unfold Planner.culletBefore
  cases h : p.pieces.find? fun q => decide (q.kind = .cullet) && decide (q.tail = o.head) with
  | none => exact absurd (by simp [hkind, htail]) (List.find?_eq_none.mp h q hq)
  | some x =>
    have hx : x.kind = .cullet ∧ x.tail = o.head := by simpa using List.find?_some h
    rw [huniq x (List.mem_of_find?_eq_some h) hx.2]

/-! ### Which replan a flaw gets -/

theorem PlanStep.replan_sized {z : Fin 4 × Nat} (h : r.p.sizedPlate o f = some z) :
    r.replan c o f = r.sizedReplan c o f z := by
  unfold PlanStep.replan
  simp only [h]

theorem PlanStep.replan_cullet (hnone : r.p.sizedPlate o f = none) (hmerge : ∀ q ∈ r.p.pieces, ¬ canMerge c o f q) :
    r.replan c o f = r.culletReplan c o f := by
  unfold PlanStep.replan
  simp only [hnone]
  cases h : r.p.culletBefore o with
  | none => rfl
  | some q =>
    have hq : q.kind = .cullet ∧ q.tail = o.head := by simpa using List.find?_some h
    have hfits : mergeFits c o f q = false := decide_eq_false fun hle =>
      hmerge q (List.mem_of_find?_eq_some h) ⟨hq.1, hq.2, hle⟩
    simp only [hfits, Bool.false_eq_true, if_false]

section
variable {q : Piece} (hnone : r.p.sizedPlate o f = none) (hq : q ∈ r.p.pieces) (hmerge : canMerge c o f q)
  (huniq : ∀ x ∈ r.p.pieces, x.tail = o.head → x = q)
include hnone hq hmerge huniq

theorem PlanStep.replan_merge (hstate : q.state = .planned) : r.replan c o f = r.mergeReplan c o f q := by
  obtain ⟨hkind, htail, hle⟩ := hmerge
  have hfits : mergeFits c o f q = true := decide_eq_true hle
  simp only [PlanStep.replan, hnone, Planner.culletBefore_eq hq hkind htail huniq, hfits, hstate, if_true]

/-- A committed cut bars the merge (R93). -/
theorem PlanStep.replan_barred (hstate : q.state ≠ .planned) : r.replan c o f = (r.late f).culletReplan c o f := by
  obtain ⟨hkind, htail, hle⟩ := hmerge
  have hfits : mergeFits c o f q = true := decide_eq_true hle
  simp only [PlanStep.replan, hnone, Planner.culletBefore_eq hq hkind htail huniq, hfits, hstate, if_true, if_false]

end

/-! ### What each replan comes to -/

/-- Room for a replan, of an open piece that is not overdue (R88, R95). -/
theorem Planner.replanRoom_iff {p : Planner} (ho : p.openPiece = some o) (cuts pieces : Nat) :
    (!p.overdue && p.room cuts pieces) = true ↔
      p.overdue = false ∧ p.cuts.length + cuts ≤ 32 ∧ p.pieces.length + 1 + pieces ≤ 40 := by
  rw [Bool.and_eq_true, Bool.not_eq_true', Planner.room_iff ho]

theorem PlanStep.sizedReplan_refused {z : Fin 4 × Nat} (h : ¬ (!r.p.overdue && r.p.room 2 2) = true) :
    r.sizedReplan c o f z = r.noRoom f := if_neg h

theorem PlanStep.sizedReplan_made {z : Fin 4 × Nat} {g : PlanGroup} (h : (!r.p.overdue && r.p.room 2 2) = true)
    (hnext : r.p.nextPiece + 1 < 4294967295) (hg : r.plan.activate.inUse = some g) :
    r.sizedReplan c o f z =
      (let cut := o.head + z.2
       let e := trimEnd c o f cut
       { r with
         p := { r.p with
           pieces := r.p.pieces ++
             [{ number := r.p.nextPiece, kind := .size z.1, head := some o.head, tail := cut, state := .planned,
                sizes := o.sizes },
              { number := r.p.nextPiece + 1, kind := .cullet, head := some cut, tail := e, state := .planned,
                sizes := o.sizes }]
           cuts := r.p.cuts ++
             [{ pos := cut, kind := .size, committed := false }, { pos := e, kind := .trim, committed := false }]
           nextPiece := r.p.nextPiece + 2
           openPiece := some { head := e, sizes := g }
           overdue := false }
         plan := r.plan.activate
         toAsm := r.toAsm ++ [.scan e (e + g.l1) g.level]
         toStrike := r.toStrike ++ if r.p.cuts.isEmpty then [.offer (some cut)] else [] }) := by
  have hqueued : ∀ x : Cut, (r.p.cuts ++ [x]).isEmpty = false := fun x => by simp
  unfold PlanStep.sizedReplan
  rw [if_pos h]
  dsimp only
  rw [PlanStep.place_eq (Nat.lt_of_succ_lt hnext), PlanStep.place_eq (by exact hnext),
    PlanStep.createOpen_eq (by exact hg)]
  simp only [PieceKind.cutKind, hqueued, Bool.false_eq_true, if_false, List.append_nil, List.append_assoc]
  rfl

theorem PlanStep.culletReplan_floored (h : r.p.aboveCf (culletTail c o f) = false) :
    r.culletReplan c o f = r.late f := by
  simp [PlanStep.culletReplan, h]

theorem PlanStep.culletReplan_refused (habove : r.p.aboveCf (culletTail c o f) = true)
    (h : ¬ (!r.p.overdue && r.p.room 1 1) = true) : r.culletReplan c o f = r.noRoom f := by
  unfold PlanStep.culletReplan
  simp only [habove, Bool.not_true, Bool.false_eq_true, if_false]
  exact if_neg h

theorem PlanStep.culletReplan_made (habove : r.p.aboveCf (culletTail c o f) = true)
    (h : (!r.p.overdue && r.p.room 1 1) = true) :
    r.culletReplan c o f = (r.fix o .cullet (culletTail c o f)).lateBelow f o.head := by
  unfold PlanStep.culletReplan
  simp only [habove, Bool.not_true, Bool.false_eq_true, if_false]
  exact if_pos h

theorem PlanStep.mergeReplan_floored {q : Piece} (h : r.p.aboveCf (mergeTail c o f q) = false) :
    r.mergeReplan c o f q = r.late f := by
  simp [PlanStep.mergeReplan, h]

/-- The last cut moved to e, and the new head of the queue offered when the queue held that cut alone (R93, R103). -/
theorem PlanStep.mergeReplan_made {q : Piece} {cuts : List Cut} {x : Cut} {g : PlanGroup}
    (habove : r.p.aboveCf (mergeTail c o f q) = true) (hcuts : r.p.cuts = cuts ++ [x]) (hx : x.pos = q.tail)
    (hothers : ∀ y ∈ cuts, y.pos ≠ q.tail) (hmoved : mergeTail c o f q ≠ q.tail) (hg : r.plan.activate.inUse = some g) :
    r.mergeReplan c o f q =
      (let e := mergeTail c o f q
       PlanStep.lateBelow { r with
         p := { r.p with
           pieces := r.p.pieces.map fun y => if y.tail = q.tail then { y with tail := e } else y
           cuts := cuts ++ [{ pos := e, kind := .trim, committed := false }]
           openPiece := some { head := e, sizes := g }
           overdue := false }
         plan := r.plan.activate
         toAsm := r.toAsm ++ [.scan e (e + g.l1) g.level]
         toStrike := r.toStrike ++ if cuts.isEmpty then [.offer (some e)] else [] } f (q.head.getD 0)) := by
  have hkept : r.p.cuts.filter (fun y => decide (y.pos ≠ q.tail)) = cuts := by
    rw [hcuts, List.filter_append, List.filter_eq_self.mpr fun y hy => decide_eq_true (hothers y hy)]
    simp [hx]
  have hmerge : r.p.mergeCullet q (mergeTail c o f q) = { r.p with
      pieces := r.p.pieces.map fun y => if y.tail = q.tail then { y with tail := mergeTail c o f q } else y
      cuts := cuts ++ [{ pos := mergeTail c o f q, kind := .trim, committed := false }] } := by
    rw [Planner.mergeCullet, hkept]
  have hoffer : PlanStep.offerChange r.p.headCut (r.change fun p => p.mergeCullet q (mergeTail c o f q)) =
      { r with
        p := r.p.mergeCullet q (mergeTail c o f q)
        toStrike := r.toStrike ++ if cuts.isEmpty then [.offer (some (mergeTail c o f q))] else [] } := by
    unfold PlanStep.offerChange PlanStep.change
    simp only [hmerge, Planner.headCut, hcuts]
    cases cuts with
    | nil => simp [hx, hmoved]
    | cons y ys => simp
  unfold PlanStep.mergeReplan
  simp only [habove, if_true, hoffer]
  rw [PlanStep.createOpen_eq (by exact hg), hmerge]

end

end Sys2Proof.Machine
end

section
/-! What the CULLET and OVERLENGTH pieces of the table cover of a span (R91). -/

namespace Sys2Proof.Machine

/-- A CULLET or OVERLENGTH piece that holds the micrometre x. -/
def Piece.covers (q : Piece) (x : Nat) : Prop :=
  (q.kind = .cullet ∨ q.kind = .overlength) ∧ q.head.getD 0 ≤ x ∧ x < q.tail

theorem coveredTo_cons_of_covers {q : Piece} {x : Nat} (h : q.covers x) (ps : List Piece) :
    coveredTo x (q :: ps) = coveredTo q.tail ps := congrArg (coveredTo · ps) (if_pos h)

theorem coveredTo_cons_of_not_covers {q : Piece} {x : Nat} (h : ¬ q.covers x) (ps : List Piece) :
    coveredTo x (q :: ps) = coveredTo x ps := congrArg (coveredTo · ps) (if_neg h)

theorem le_coveredTo (ps : List Piece) (x : Nat) : x ≤ coveredTo x ps := by
  induction ps generalizing x with
  | nil => exact Nat.le_refl x
  | cons q ps ih =>
    by_cases h : q.covers x
    · rw [coveredTo_cons_of_covers h]
      exact h.2.2.le.trans (ih q.tail)
    · rw [coveredTo_cons_of_not_covers h]
      exact ih x

theorem exists_covers_of_lt_coveredTo {ps : List Piece} {x y : Nat} (hxy : x ≤ y) (hy : y < coveredTo x ps) :
    ∃ q ∈ ps, q.covers y := by
  induction ps generalizing x with
  | nil => exact absurd hy (Nat.not_lt.mpr hxy)
  | cons q ps ih =>
    have hlater : ∀ {z}, z ≤ y → y < coveredTo z ps → ∃ r ∈ q :: ps, r.covers y := fun hz hlt =>
      let ⟨r, hr, hc⟩ := ih hz hlt
      ⟨r, List.mem_cons_of_mem q hr, hc⟩
    by_cases h : q.covers x
    · rw [coveredTo_cons_of_covers h] at hy
      by_cases htail : y < q.tail
      · exact ⟨q, List.mem_cons_self, h.1, h.2.1.trans hxy, htail⟩
      · exact hlater (Nat.not_lt.mp htail) hy
    · rw [coveredTo_cons_of_not_covers h] at hy
      exact hlater hxy hy

/-- Pieces that all begin past x cover nothing of a span from x on. -/
theorem coveredTo_of_lt_heads {ps : List Piece} {x : Nat} (h : ∀ q ∈ ps, x < q.head.getD 0) : coveredTo x ps = x := by
  induction ps with
  | nil => rfl
  | cons q ps ih =>
    rw [coveredTo_cons_of_not_covers fun hc => absurd (h q List.mem_cons_self) (Nat.not_lt.mpr hc.2.1)]
    exact ih fun r hr => h r (List.mem_cons_of_mem q hr)

/-- Where the cover of pieces in order breaks off, no piece holds the next micrometre. -/
theorem not_covers_coveredTo {ps : List Piece} (hsorted : ps.Pairwise fun q r => q.tail ≤ r.head.getD 0)
    (hlen : ∀ q ∈ ps, q.head.getD 0 ≤ q.tail) (x : Nat) : ∀ q ∈ ps, ¬ q.covers (coveredTo x ps) := by
  induction ps generalizing x with
  | nil => exact fun _ h => nomatch h
  | cons q ps ih =>
    obtain ⟨hafter, hrest⟩ := List.pairwise_cons.mp hsorted
    have hlater := ih hrest fun r hr => hlen r (List.mem_cons_of_mem q hr)
    by_cases h : q.covers x
    · rw [coveredTo_cons_of_covers h]
      refine List.forall_mem_cons.mpr ⟨fun hc => ?_, hlater q.tail⟩
      exact absurd hc.2.2 (Nat.not_lt.mpr (le_coveredTo ps q.tail))
    · rw [coveredTo_cons_of_not_covers h]
      refine List.forall_mem_cons.mpr ⟨fun ⟨hkind, hhead, htail⟩ => ?_, hlater x⟩
      have hx : x < q.head.getD 0 := by
        refine Nat.not_le.mp fun hle => h ⟨hkind, hle, ?_⟩
        exact (le_coveredTo ps x).trans_lt htail
      have hstays : coveredTo x ps = x := coveredTo_of_lt_heads fun r hr =>
        hx.trans_le ((hlen q List.mem_cons_self).trans (hafter r hr))
      exact absurd hx (Nat.not_lt.mpr (hstays ▸ hhead))

theorem Planner.covered_iff {p : Planner} (hsorted : p.pieces.Pairwise fun q r => q.tail ≤ r.head.getD 0)
    (hlen : ∀ q ∈ p.pieces, q.head.getD 0 ≤ q.tail) (f : FlawEntry) :
    p.covered f = true ↔ ∀ x, f.start ≤ x → x < f.stop → ∃ q ∈ p.pieces, q.covers x := by
  rw [Planner.covered, decide_eq_true_eq]
  refine ⟨fun hcov x hlo hhi => exists_covers_of_lt_coveredTo hlo (hhi.trans_le hcov), fun hall => ?_⟩
  refine Nat.not_lt.mp fun hbreak => ?_
  obtain ⟨q, hq, hc⟩ := hall _ (le_coveredTo p.pieces f.start) hbreak
  exact not_covers_coveredTo hsorted hlen f.start q hq hc

end Sys2Proof.Machine
end

section
/-! The flaws of a scan's answer examined one after another: what each examination sends follows what was sent before it
(R96); and with it O36. -/

namespace Sys2Proof.Machine

/-! ### Examinations one after another -/

/-- A step after another: what it sends goes behind what the earlier one sent. -/
def PlanStep.after (a r : PlanStep) : PlanStep :=
  { r with toAsm := a.toAsm ++ r.toAsm, toStrike := a.toStrike ++ r.toStrike, incs := a.incs ++ r.incs }

section
variable {c : PlanContext} (a r : PlanStep) (o : OpenPiece) (f : FlawEntry)

@[simp] theorem PlanStep.after_p : (a.after r).p = r.p := rfl

theorem PlanStep.change_after (p : Planner → Planner) : (a.after r).change p = a.after (r.change p) := rfl

theorem PlanStep.offerChange_after (before : Option Nat) :
    PlanStep.offerChange before (a.after r) = a.after (r.offerChange before) := by
  unfold PlanStep.offerChange
  rw [PlanStep.after_p]
  split
  · rfl
  · simp only [PlanStep.after, List.append_assoc]

theorem PlanStep.place_after (kind : PieceKind) (head : Option Nat) (tail : Nat) (sizes : PlanGroup) :
    (a.after r).place kind head tail sizes = a.after (r.place kind head tail sizes) := by
  rw [PlanStep.place, PlanStep.change_after, PlanStep.offerChange_after, PlanStep.after_p, PlanStep.place]

theorem PlanStep.createOpen_after (h : Nat) : (a.after r).createOpen h = a.after (r.createOpen h) := by
  unfold PlanStep.createOpen
  dsimp only [PlanStep.after]
  cases r.plan.activate.inUse with
  | none => rfl
  | some g => simp only [List.append_assoc]

theorem PlanStep.fix_after (kind : PieceKind) (tail : Nat) :
    (a.after r).fix o kind tail = a.after (r.fix o kind tail) := by
  rw [PlanStep.fix, PlanStep.place_after, PlanStep.createOpen_after, PlanStep.fix]

theorem PlanStep.markLates_after (ns : List Nat) : (a.after r).markLates ns = a.after (r.markLates ns) := by
  simp only [PlanStep.markLates, PlanStep.after, List.append_assoc]

theorem PlanStep.late_after : (a.after r).late f = a.after (r.late f) := by
  rw [PlanStep.late_eq, PlanStep.late_eq, PlanStep.markLates_after, PlanStep.after_p]

theorem PlanStep.lateBelow_after (head : Nat) : (a.after r).lateBelow f head = a.after (r.lateBelow f head) := by
  rw [PlanStep.lateBelow_eq, PlanStep.lateBelow_eq, PlanStep.markLates_after, PlanStep.after_p]

theorem PlanStep.noRoom_after : (a.after r).noRoom f = a.after (r.noRoom f) := by
  rw [PlanStep.noRoom_eq, PlanStep.noRoom_eq]
  simp only [PlanStep.markUnplanneds, PlanStep.count, PlanStep.after, List.append_assoc]

theorem PlanStep.sizedReplan_after (z : Fin 4 × Nat) :
    (a.after r).sizedReplan c o f z = a.after (r.sizedReplan c o f z) := by
  unfold PlanStep.sizedReplan
  rw [PlanStep.after_p]
  split
  · simp only [PlanStep.place_after, PlanStep.createOpen_after]
  · exact a.noRoom_after r f

theorem PlanStep.culletReplan_after : (a.after r).culletReplan c o f = a.after (r.culletReplan c o f) := by
  unfold PlanStep.culletReplan
  dsimp only
  rw [PlanStep.after_p]
  split
  · exact a.late_after r f
  · split
    · rw [PlanStep.fix_after, PlanStep.lateBelow_after]
    · exact a.noRoom_after r f

theorem PlanStep.mergeReplan_after (q : Piece) : (a.after r).mergeReplan c o f q = a.after (r.mergeReplan c o f q) := by
  unfold PlanStep.mergeReplan
  dsimp only
  rw [PlanStep.after_p]
  split
  · rw [PlanStep.change_after, PlanStep.offerChange_after, PlanStep.createOpen_after, PlanStep.lateBelow_after]
  · exact a.late_after r f

theorem PlanStep.replan_after : (a.after r).replan c o f = a.after (r.replan c o f) := by
  unfold PlanStep.replan
  rw [PlanStep.after_p]
  split
  · exact a.sizedReplan_after r o f _
  · split
    · exact a.culletReplan_after r o f
    · split
      · split
        · exact a.mergeReplan_after r o f _
        · rw [PlanStep.late_after, PlanStep.culletReplan_after]
      · exact a.culletReplan_after r o f

theorem PlanStep.examine_after : (a.after r).examine c f = a.after (r.examine c f) := by
  unfold PlanStep.examine
  rw [PlanStep.after_p]
  split
  · rfl
  · split
    · rfl
    · split
      · split
        · rfl
        · exact a.late_after r f
      · split
        · rfl
        · exact a.replan_after r _ f

theorem PlanStep.foldl_examine_after (fs : List FlawEntry) (r : PlanStep) :
    fs.foldl (PlanStep.examine c) (a.after r) = a.after (fs.foldl (PlanStep.examine c) r) := by
  induction fs generalizing r with
  | nil => rfl
  | cons f fs ih => rw [List.foldl_cons, PlanStep.examine_after, ih, List.foldl_cons]

end

/-- Flaws that each leave the step as it was leave it so together. -/
theorem PlanStep.foldl_examine_kept {c : PlanContext} {r : PlanStep} {fs : List FlawEntry}
    (h : ∀ f ∈ fs, r.examine c f = r) : fs.foldl (PlanStep.examine c) r = r := by
  induction fs with
  | nil => rfl
  | cons f fs ih =>
    rw [List.foldl_cons, h f List.mem_cons_self]
    exact ih fun g hg => h g (List.mem_cons_of_mem f hg)

section
variable {s : State} {sh : Shadow}

/-- Two events of the Planner on end leave what one leaves that sends the second's messages behind the first's. -/
theorem State.finishPlan_finishPlan (a r : PlanStep) : (s.finishPlan a).finishPlan r = s.finishPlan (a.after r) := by
  simp only [State.finishPlan_eq, PlanStep.after, State.tagAll_append, List.map_append, List.append_assoc]
  rfl

theorem PlanStep.after_planStep (s : State) (a : PlanStep) : a.after (s.finishPlan a).planStep = a := by
  simp only [State.planStep, PlanStep.after, List.append_nil]
  rfl

end

/-! ### The messages -/

section
variable {s : State} {sh : Shadow} {f : FlawEntry} {rest : List (Tagged AsmMsg)}

theorem exec_heldFlaw_taken (hr : s.inReset = false)
    (hw : s.wires.asmPlanner = { epoch := s.epoch, msg := .heldFlaw f } :: rest) :
    exec .heldFlaw s = .next (takeAsmMsg (.heldFlaw f) { s with wires := { s.wires with asmPlanner := rest } }) :=
  congrArg Host.Outcome.next (receiveIf_taken hr hw rfl)

theorem exec_scanAnswer_taken {fs : List FlawEntry} (hr : s.inReset = false)
    (hw : s.wires.asmPlanner = { epoch := s.epoch, msg := .scanAnswer fs } :: rest) :
    exec .scanAnswer s = .next (takeAsmMsg (.scanAnswer fs) { s with wires := { s.wires with asmPlanner := rest } }) :=
  congrArg Host.Outcome.next (receiveIf_taken hr hw rfl)

theorem exec_heldFlaw (hr : s.inReset = false) (hw : s.wires.asmPlanner = { epoch := s.epoch, msg := .heldFlaw f } :: rest)
    (hsh : s.cmd.shadow = some sh) :
    exec .heldFlaw s = .next (State.finishPlan { s with wires := { s.wires with asmPlanner := rest } }
      (s.planStep.examine (s.planContext sh) f)) :=
  congrArg Host.Outcome.next (takeAsmIf_taken hr hw rfl hsh)

theorem exec_scanAnswer {fs : List FlawEntry} (hr : s.inReset = false)
    (hw : s.wires.asmPlanner = { epoch := s.epoch, msg := .scanAnswer fs } :: rest) (hsh : s.cmd.shadow = some sh) :
    exec .scanAnswer s = .next (State.finishPlan { s with wires := { s.wires with asmPlanner := rest } }
      (fs.foldl (PlanStep.examine (s.planContext sh)) s.planStep)) :=
  congrArg Host.Outcome.next (takeAsmIf_taken hr hw rfl hsh)

/-- An answer taken acts as its first flaw held, then as the answer of the others (R96). -/
theorem takeAsmMsg_scanAnswer_cons (f : FlawEntry) (fs : List FlawEntry) (s : State) :
    takeAsmMsg (.scanAnswer (f :: fs)) s = takeAsmMsg (.scanAnswer fs) (takeAsmMsg (.heldFlaw f) s) := by
  unfold takeAsmMsg
  cases hsh : s.cmd.shadow with
  | none => simp only [hsh]
  | some sh =>
    have hkept : ∀ r, (s.finishPlan r).cmd.shadow = some sh := fun _ => hsh
    simp only [PlanStep.takeAsm, hkept, List.foldl_cons, State.finishPlan_finishPlan]
    rw [← PlanStep.foldl_examine_after, PlanStep.after_planStep]
    rfl

theorem takeAsmMsg_asmPlanner (m : AsmMsg) (s : State) : (takeAsmMsg m s).wires.asmPlanner = s.wires.asmPlanner := by
  unfold takeAsmMsg
  split <;> rfl

theorem State.asmPlanner_put {t : State} (h : t.wires.asmPlanner = rest) :
    { t with wires := { t.wires with asmPlanner := rest } } = t := by
  subst h
  rfl

theorem exec_scanAnswer_in_reset (hr : s.inReset = true) : exec .scanAnswer s = .next s :=
  congrArg Host.Outcome.next (if_pos hr)

/-! ### What an examined flaw leaves of the machine -/

theorem State.finishPlan_unchanged (s : State) (rest : List (Tagged AsmMsg)) :
    State.finishPlan { s with wires := { s.wires with asmPlanner := rest } } s.planStep =
      { s with wires := { s.wires with asmPlanner := rest } } := State.finishPlan_planStep _

theorem State.finishPlan_markLates (s : State) (rest : List (Tagged AsmMsg)) (ns : List Nat) :
    State.finishPlan { s with wires := { s.wires with asmPlanner := rest } } (s.planStep.markLates ns) = { s with
      planner := { s.planner with markedLate := s.planner.markedLate ++ ns }
      wires := { s.wires with
        asmPlanner := rest
        plannerAsm := s.wires.plannerAsm ++ s.tagAll (ns.map PlanReq.markLate)
        increments := s.wires.increments ++ ns.map fun _ => (.planner, .lateFlaw) } } := by
  simp only [State.finishPlan_eq, State.planStep, PlanStep.markLates, List.nil_append, State.tagAll_nil, List.append_nil,
    List.map_map]
  rfl

/-- A replan refused for want of room, after LATE marks (R95). -/
theorem State.finishPlan_markLates_noRoom (s : State) (rest : List (Tagged AsmMsg)) (ns : List Nat) (f : FlawEntry) :
    State.finishPlan { s with wires := { s.wires with asmPlanner := rest } } ((s.planStep.markLates ns).noRoom f) =
      (let us := s.planner.unplanneds f
       { s with
         planner := { s.planner with
           markedLate := s.planner.markedLate ++ ns, markedUnplanned := s.planner.markedUnplanned ++ us }
         wires := { s.wires with
           asmPlanner := rest
           plannerAsm := s.wires.plannerAsm ++ s.tagAll (ns.map PlanReq.markLate ++ us.map PlanReq.markUnplanned)
           increments := s.wires.increments ++
             (ns.map (fun _ => Increment.lateFlaw) ++ (us.map (fun _ => Increment.unplannedFlaw) ++ [Increment.queueFull])).map
               fun i => (Sender.planner, i) } }) := by
  rw [PlanStep.noRoom_eq]
  simp only [State.finishPlan_eq, State.planStep, PlanStep.markLates, PlanStep.markUnplanneds, PlanStep.count,
    List.nil_append, State.tagAll_nil, List.append_nil, List.append_assoc]
  rfl

theorem State.finishPlan_noRoom (s : State) (rest : List (Tagged AsmMsg)) (f : FlawEntry) :
    State.finishPlan { s with wires := { s.wires with asmPlanner := rest } } (s.planStep.noRoom f) =
      (let us := s.planner.unplanneds f
       { s with
         planner := { s.planner with markedUnplanned := s.planner.markedUnplanned ++ us }
         wires := { s.wires with
           asmPlanner := rest
           plannerAsm := s.wires.plannerAsm ++ s.tagAll (us.map PlanReq.markUnplanned)
           increments := s.wires.increments ++ us.map (fun _ => (Sender.planner, Increment.unplannedFlaw)) ++
             [(Sender.planner, Increment.queueFull)] } }) := by
  have h := s.finishPlan_markLates_noRoom rest [] f
  rw [PlanStep.markLates_nil] at h
  rw [h]
  simp only [List.append_nil, List.map_nil, List.nil_append, List.map_append, List.map_map, List.append_assoc]
  rfl

end

/-- Settles O36: a flaw ahead is replanned as `PlanStep.replan_sized`, `PlanStep.replan_merge`, `PlanStep.replan_barred` and
`PlanStep.replan_cullet` say, each replan with the checks of R95; the cover is `Planner.covered_iff`, and an answer's flaws follow
one another by `takeAsmMsg_scanAnswer_cons`. -/
theorem planningAroundAFlaw : Obligations.PlanningAroundAFlaw := by
  unfold Obligations.PlanningAroundAFlaw
  refine ⟨?sized, ?without, fun p f hsorted hlen => Planner.covered_iff hsorted hlen f, ?replans, ?barred, ?answer, ?one, ?all⟩
  case sized =>
    intro f rest s sh o i size g hr hw hsh ho hover hcuts hpieces hlevel hstop hstart ⟨hsize, hfit, hfirst⟩ hg hnext
    have hplate : s.planner.sizedPlate o f = some (i, size) :=
      Planner.sizedPlate_eq_some hsize (hfit.imp_right (Planner.aboveCf_iff _ _).mpr) fun j z hj hz hfits =>
        hfirst j z hj hz (hfits.imp_right (Planner.aboveCf_iff _ _).mp)
    have hroom := (Planner.replanRoom_iff ho 2 2).mpr ⟨hover, hcuts, by omega⟩
    rw [exec_heldFlaw hr hw hsh, PlanStep.examine_ahead ho hlevel hstop hstart, PlanStep.replan_sized hplate,
      PlanStep.sizedReplan_made hroom hnext hg]
    refine ⟨_, rfl, ?_, rfl, congrArg (s.wires.plannerStrike ++ ·) (s.tagAll_if _ _), rfl, List.append_nil _, rfl⟩
    simp only [State.finishPlan_planner, hover]
    rfl
  case without =>
    intro f rest s sh o hr hw hsh ho
    rw [exec_heldFlaw hr hw hsh]
    refine ⟨fun hleft => ?_, fun hlevel hstop hcov hlate hnew => ?_, fun hstop hcov => ?_⟩
    · rw [PlanStep.examine_left ho hleft, State.finishPlan_unchanged]
    · have hlates : s.planner.lates f = [f.number] := if_neg (by simp [hlate, hnew])
      rw [PlanStep.examine_behind ho hlevel hstop hcov, PlanStep.late_eq, State.finishPlan_markLates,
        show s.planStep.p.lates f = [f.number] from hlates]
      rfl
    · rw [PlanStep.examine_covered ho hstop hcov, State.finishPlan_unchanged]
  case replans =>
    intro f rest s sh o g hr hw hsh ho hlevel hstop hstart hg hnext p below fits room lates unplanned refused floored made
      merged canMergeWith
    have hexec := (exec_heldFlaw hr hw hsh).trans (congrArg (fun r => Host.Outcome.next (State.finishPlan _ r))
      (PlanStep.examine_ahead ho hlevel hstop hstart))
    have hfits : ∀ l, p.fits o f l ↔ fits l := fun l => and_congr_right' (p.aboveCf_iff_not_below _)
    have hnone : (∀ z ∈ o.sizes.numbered, ¬ fits z.2) → s.planStep.p.sizedPlate o f = none := fun h =>
      Planner.sizedPlate_eq_none fun z hz hfit => h z hz ((hfits z.2).mp hfit)
    have habove : ∀ x, ¬ below x → p.aboveCf x = true := fun x => (p.aboveCf_iff_not_below x).mpr
    have hbelow : ∀ x, below x → p.aboveCf x = false := fun x ⟨_, hcf, hle⟩ => Planner.aboveCf_eq_false hcf hle
    have hroom : ∀ n m, (!p.overdue && p.room n m) = true ↔ room n m := Planner.replanRoom_iff ho
    have hrefused : ∀ r, r = s.planStep.noRoom f →
        Host.Outcome.next (State.finishPlan { s with wires := { s.wires with asmPlanner := rest } } r) =
          (.next refused : Host.Outcome State Fault Refusal) := fun r hr => by
      rw [hr, State.finishPlan_noRoom]
      rfl
    have hfloored : ∀ r, r = s.planStep.late f →
        Host.Outcome.next (State.finishPlan { s with wires := { s.wires with asmPlanner := rest } } r) =
          (.next floored : Host.Outcome State Fault Refusal) := fun r hr => by
      rw [hr, PlanStep.late_eq, State.finishPlan_markLates]
      rfl
    rw [hexec]
    refine ⟨fun hsize hfull => ?_, fun hsize hcullet => ?_, fun q cuts hsize hq hmerge hstate huniq hothers hcuts => ?_⟩
    · obtain ⟨z, hz⟩ := Planner.sizedPlate_isSome (p := p) (hsize.imp fun z => And.imp_right (hfits z.2).mpr)
      refine hrefused _ ((PlanStep.replan_sized hz).trans (PlanStep.sizedReplan_refused ?_))
      exact fun h => hfull ((hroom 2 2).mp h)
    · intro e
      rw [PlanStep.replan_cullet (c := s.planContext sh) (hnone hsize) hcullet]
      refine ⟨fun he => hfloored _ (PlanStep.culletReplan_floored (hbelow e he)), fun he hfull => ?_, fun he hfree => ?_⟩
      · exact hrefused _ (PlanStep.culletReplan_refused (habove e he) fun h => hfull ((hroom 1 1).mp h))
      · rw [PlanStep.culletReplan_made (habove e he) ((hroom 1 1).mpr hfree), PlanStep.lateBelow_eq,
          PlanStep.fix_eq (by exact hnext) (by exact hg)]
        simp only [State.finishPlan_eq, State.planStep, PlanStep.markLates, List.nil_append, List.map_map]
        rfl
    · intro e
      rw [PlanStep.replan_merge (c := s.planContext sh) (hnone hsize) hq hmerge huniq hstate]
      refine ⟨fun he => hfloored _ (PlanStep.mergeReplan_floored (hbelow e he)), fun he => ?_⟩
      obtain ⟨_, htail, _⟩ := hmerge
      have hmade : s.planStep.p.aboveCf (mergeTail (s.planContext sh) o f q) = true := habove e he
      have hpast : f.stop + o.sizes.margin ≤ mergeTail (s.planContext sh) o f q := le_max_left _ _
      have hmoved : mergeTail (s.planContext sh) o f q ≠ q.tail := by omega
      rw [PlanStep.mergeReplan_made hmade hcuts htail.symm (htail ▸ hothers) hmoved hg, PlanStep.lateBelow_eq, htail]
      simp only [State.finishPlan_eq, State.planStep, PlanStep.markLates, List.nil_append, List.map_map]
      rfl
  case barred =>
    intro f rest s sh o g q hr hw hsh ho hlevel hstop hstart hg hnext p below hsize hq hkind htail huniq hstate hfits e room
      lates unplanned late told
    have hnone : s.planStep.p.sizedPlate o f = none := Planner.sizedPlate_eq_none fun z hz hfit =>
      hsize z hz (hfit.imp_right (p.aboveCf_iff_not_below _).mp)
    rw [exec_heldFlaw hr hw hsh, PlanStep.examine_ahead ho hlevel hstop hstart,
      PlanStep.replan_barred (c := s.planContext sh) hnone hq ⟨hkind, htail, hfits⟩ huniq hstate]
    have hp : (s.planStep.late f).p = late := by rw [PlanStep.late_eq]; rfl
    have hmarked : f.late = true ∨ f.number ∈ late.markedLate := hp ▸ s.planStep.late_marked f
    have hroom : (!late.overdue && late.room 1 1) = true ↔ room := Planner.replanRoom_iff (by exact ho) 1 1
    have habove : late.aboveCf e = true ↔ ¬ below e := late.aboveCf_iff_not_below e
    refine ⟨fun he => ?_, fun he hfull => ?_, fun he hfree => ?_⟩
    · have hnot : late.aboveCf e = false := Bool.eq_false_of_not_eq_true fun h => habove.mp h he
      rw [PlanStep.culletReplan_floored (hp ▸ hnot), PlanStep.late_late, PlanStep.late_eq, State.finishPlan_markLates]
      simp only [told, late, List.append_nil, List.map_map]
      rfl
    · rw [PlanStep.culletReplan_refused (hp ▸ habove.mpr he) (hp ▸ fun h => hfull (hroom.mp h)), PlanStep.late_eq,
        State.finishPlan_markLates_noRoom]
      rfl
    · rw [PlanStep.culletReplan_made (hp ▸ habove.mpr he) (hp ▸ hroom.mpr hfree), PlanStep.late_eq,
        PlanStep.fix_eq (by exact hnext) (by exact hg), PlanStep.lateBelow_of_marked]
      · simp only [State.finishPlan_eq, State.planStep, PlanStep.markLates, List.nil_append, told, List.append_nil]
        rfl
      · exact hmarked
  case answer =>
    intro f fs rest s hr hw
    refine ⟨_, _, exec_heldFlaw_taken (by exact hr) (by rfl), exec_scanAnswer_taken (rest := rest) ?_ (by rfl), ?_⟩
    · simpa using hr
    · rw [exec_scanAnswer_taken hr hw, takeAsmMsg_scanAnswer_cons]
      refine congrArg (fun x => Host.Outcome.next (takeAsmMsg (.scanAnswer fs) x)) ?_
      exact (State.asmPlanner_put (takeAsmMsg_asmPlanner _ _)).symm
  case one =>
    intro f rest s hw
    split
    next hr => exact exec_scanAnswer_in_reset hr
    next hr =>
      have hout : s.inReset = false := Bool.eq_false_of_not_eq_true hr
      rw [exec_scanAnswer_taken hout hw, exec_heldFlaw_taken (f := f) (rest := rest)]
      · rfl
      · exact hout
      · rfl
  case all =>
    intro fs rest s sh hr hw hsh hleft
    have hkept : ∀ f ∈ fs, s.planStep.examine (s.planContext sh) f = s.planStep := fun f hf => by
      cases ho : s.planner.openPiece with
      | none => exact PlanStep.examine_closed ho
      | some o => exact PlanStep.examine_left ho (hleft o ho f hf)
    rw [exec_scanAnswer hr hw hsh, PlanStep.foldl_examine_kept hkept, State.finishPlan_unchanged]

end Sys2Proof.Machine
end

section
/-! The levels of SCORE, SNAP and GATE: every event of the Strike Unit sets them from the track and the gate list, releases
them with both, or touches neither (R106, R110); with it O7. -/

namespace Sys2Proof.Machine

/-! ### The Strike Unit's levels -/

/-- `State.outputsRight`, said of the Strike Unit alone (R106, R110). -/
def Strike.OutputsRight (t : Strike) : Prop :=
  (t.score.level = true ↔ ∃ e ∈ t.track, e.score = .on) ∧ (t.snap.level = true ↔ ∃ e ∈ t.track, e.snap = .on) ∧
    (t.gate.level = true ↔ ∃ g ∈ t.gates, g.arrived = true)

theorem State.outputsRight_iff (s : State) : s.outputsRight ↔ s.strike.OutputsRight := Iff.rfl

theorem eq_any_iff {α : Type} (b : Bool) (p : α → Bool) (l : List α) :
    b = l.any p ↔ (b = true ↔ ∃ x ∈ l, p x = true) := by
  rw [Bool.eq_iff_iff, List.any_eq_true]

theorem Strike.outputsRight_iff_levels {t : Strike} :
    t.OutputsRight ↔ t.score.level = scoreLevel t.track ∧ t.snap.level = snapLevel t.track ∧
      t.gate.level = gateLevel t.gates := by
  simp only [Strike.OutputsRight, scoreLevel, snapLevel, gateLevel, eq_any_iff, decide_eq_true_eq]

theorem Strike.setLevels_outputsRight (t : Strike) : t.setLevels.OutputsRight :=
  Strike.outputsRight_iff_levels.mpr ⟨rfl, rfl, rfl⟩

/-- With nothing in the track and the gate list and every output released, the levels are right. -/
theorem Strike.OutputsRight.of_empty {t : Strike} (htrack : t.track = []) (hgates : t.gates = [])
    (hscore : t.score.level = false) (hsnap : t.snap.level = false) (hgate : t.gate.level = false) : t.OutputsRight := by
  rw [Strike.outputsRight_iff_levels, htrack, hgates]
  exact ⟨hscore, hsnap, hgate⟩

/-! ### The unit's events -/

theorem Strike.arrive_outputsRight (t : Strike) (v : Nat) : (t.arrive v).OutputsRight := Strike.setLevels_outputsRight _

theorem StrikeStep.value_outputsRight (r : StrikeStep) (dCut v : Nat) : (r.value dCut v).t.OutputsRight := by
  have harrived := r.t.arrive_outputsRight v
  unfold StrikeStep.value
  dsimp only
  split
  · split <;> exact harrived
  · exact harrived

theorem Strike.OutputsRight.rise {t : Strike} (h : t.OutputsRight) (dCut : Nat) (m : Rise) :
    (t.rise dCut m).t.OutputsRight :=
  List.foldlRecOn (motive := fun r : StrikeStep => r.t.OutputsRight) _ (StrikeStep.value dCut) h
    fun r _ v _ => r.value_outputsRight dCut v

theorem StrikeStep.takeUp_outputsRight {r : StrikeStep} (h : r.t.OutputsRight) (dCut : Nat) :
    (r.takeUp dCut).t.OutputsRight := by
  unfold StrikeStep.takeUp
  split
  · split <;> exact h
  · exact h

theorem Strike.OutputsRight.offer {t : Strike} (h : t.OutputsRight) (dCut : Nat) (c : Option Nat) :
    (t.offer dCut c).t.OutputsRight :=
  StrikeStep.takeUp_outputsRight (r := { t := { t with offered := c }, claims := [] }) h dCut

theorem Strike.OutputsRight.endClaim {t : Strike} (h : t.OutputsRight) (dCut : Nat) :
    (t.endClaim dCut).t.OutputsRight := by
  unfold Strike.endClaim
  dsimp only
  split
  · exact h
  · exact StrikeStep.takeUp_outputsRight (r := { t := { t with claiming := none }, claims := [] }) h dCut

theorem Strike.OutputsRight.withdraw {t : Strike} (h : t.OutputsRight) (dCut : Nat) :
    (t.withdraw dCut).t.OutputsRight := by
  unfold Strike.withdraw
  split
  · exact h
  · exact Strike.OutputsRight.endClaim (t := { t with withdrawn := bump t.withdrawn }) h dCut

/-- A strike sets the levels after the closure and the new entry together (R107), and again at each value that arrives. -/
theorem Strike.strikeAt_outputsRight (t : Strike) (dCut : Nat) (g : StrikeGroup) (c : Nat) :
    (t.strikeAt dCut g c).OutputsRight :=
  List.foldlRecOn (motive := Strike.OutputsRight) _ Strike.arrive (Strike.setLevels_outputsRight _)
    fun t _ v _ => t.arrive_outputsRight v

theorem Strike.enterWindow_outputsRight (t : Strike) (w : GateWindow) : (t.enterWindow w).OutputsRight :=
  Strike.setLevels_outputsRight _

theorem Strike.OutputsRight.answer {t : Strike} (h : t.OutputsRight) (dCut : Nat) (a : GradeAnswer) :
    (t.answer dCut a).OutputsRight := by
  unfold Strike.answer
  split
  · exact h
  · exact t.enterWindow_outputsRight _

theorem Strike.close_outputsRight (t : Strike) : t.close.OutputsRight := Strike.setLevels_outputsRight _

theorem Strike.runReset_outputsRight (t : Strike) : t.runReset.OutputsRight := .of_empty rfl rfl rfl rfl rfl

/-! ### Messages of the Strike Unit -/

theorem takeStrikeRise_outputsRight (m : Rise) {s : State} (h : s.outputsRight) : (takeStrikeRise m s).outputsRight := by
  unfold takeStrikeRise
  split
  · exact h
  · split
    · exact Strike.OutputsRight.rise h _ m
    · exact h

theorem takeGrant_outputsRight (number : Nat) (kind : PieceKind) (head : Option Nat) (tail : Nat) (sh : Shadow) {s : State}
    (h : s.outputsRight) : (takeGrant number kind head tail sh s).outputsRight := by
  unfold takeGrant
  dsimp only
  split
  · exact h
  · exact (s.strike.strikeAt_outputsRight _ _ _).endClaim _

theorem takeStrikeMsg_outputsRight (m : StrikeMsg) {s : State} (h : s.outputsRight) :
    (takeStrikeMsg m s).outputsRight := by
  unfold takeStrikeMsg
  split
  · exact h
  · exact Strike.OutputsRight.offer h _ _
  · exact takeGrant_outputsRight _ _ _ _ _ h
  · exact Strike.OutputsRight.withdraw h _

theorem takeGradeAnswer_outputsRight (a : GradeAnswer) {s : State} (h : s.outputsRight) :
    (takeGradeAnswer a s).outputsRight := by
  unfold takeGradeAnswer
  split
  · exact h
  · split
    · exact Strike.OutputsRight.answer h _ a
    · exact h

/-- The return to CONFIGURED closes the Strike Unit; any other message of a run end changes nothing in it (R112). -/
theorem takeRunEnd_outputsRight {s : State} (h : s.outputsRight) : (takeRunEnd s).outputsRight := by
  by_cases hdr : s.cmd.runState = .draining
  · rw [takeRunEnd_draining hdr, State.outputsRight_iff]
    simp only [State.writePages_frame]
    exact s.strike.close_outputsRight
  · rwa [takeRunEnd_discarded hdr]

theorem receiveWith_outputsRight {α : Type} {kind : α → Bool} {wire : Wires → List (Tagged α)}
    {put : Wires → List (Tagged α) → Wires} {act stale : α → State → State} {s : State} (h : s.outputsRight)
    (hact : ∀ m {s : State}, s.outputsRight → (act m s).outputsRight)
    (hstale : ∀ m {s : State}, s.outputsRight → (stale m s).outputsRight) :
    (receiveWith kind wire put act stale s).outputsRight := by
  rcases receiveWith_cases kind wire put act stale s with hs | ⟨m, r, _, _, _, ⟨_, hs⟩ | ⟨_, hs⟩⟩ <;> rw [hs]
  · exact h
  · exact hact m.msg (s := { s with wires := put s.wires r }) h
  · exact hstale m.msg (s := { s with wires := put s.wires r }) h

/-! ### Commands that reset the run -/

theorem startRun_outputsRight {s : State} (h : s.outputsRight) : (startRun s).2.outputsRight := by
  unfold startRun
  split
  · rw [State.outputsRight_iff, (State.enterRunning_frame _ _).2.2.2.2.2.1]
    exact s.strike.runReset_outputsRight
  all_goals exact h

theorem resetRun_outputsRight {s : State} (h : s.outputsRight) : (resetRun s).2.outputsRight := by
  have hreset : s.runReset.strike.OutputsRight := s.strike.runReset_outputsRight
  unfold resetRun
  split
  · exact h
  · exact hreset
  all_goals
    rw [State.outputsRight_iff]
    simpa [State.handRunState] using hreset

theorem onCommand_outputsRight {k : Option CommandKind} {f : List Byte → State → Option Reason × State} {s : State}
    (h : s.outputsRight) (hf : ∀ b, (f b s).2.outputsRight) : (onCommand k f s).outputsRight := by
  rcases onCommand_cases k f s with hs | ⟨n, b, _, _, _, hs⟩ <;> rw [hs]
  · exact h
  · exact hf b

/-! ### Every command -/

/-- The commands the Strike Unit takes part in (chapter 6). -/
def reachesStrike : Instr → Bool
  | .powerOn | .warmReset | .headOffer | .strikeRise | .strikeGrant | .claimWithdrawal | .gradeAnswer | .runEndCompletion
  | .startRun | .resetRun => true
  | _ => false

/-- The commands that reach the Strike Unit apart, none changes it (chapter 6). -/
theorem exec_keeps_strike {c : Instr} {s t : State} (hc : reachesStrike c = false) (h : exec c s = .next t) :
    t.strike = s.strike := by
  cases c <;> first
    | exact absurd hc Bool.noConfusion
    | (obtain rfl := Host.Outcome.next.inj h)
  case resetEnd => split <;> simp
  case tb32kPeriod => simp
  case encoderEdge | analysisBegin | join | gradingBegin | commandTake | configure | commandCompletion | mPortSend
      | memoryAnswer =>
    exact live_keeps State.strike fun _ => by simp
  case unitTick | travelSecondTick | writerSecondTick | analysisCompletion | tallyIncrement | fault =>
    exact live_keeps State.strike fun _ => by split <;> simp
  case stopTimerExpiry =>
    exact live_keeps State.strike fun _ => by (repeat' split) <;> simp
  case laneLineTrigger | gapLine | settledLine | scan | mark | gather | heldFlaw | scanAnswer | joinedLine | plannerRise
      | flushEnd | strikeClaim | pieceRemoval | waitingLogMove | gatherAnswer | stamp | plateOffer | plateAccepted
      | plateFull | plateRoom =>
    exact receiveIf_keeps State.strike (fun _ _ => rfl) fun _ _ => by simp
  case gradingHandoff =>
    exact receiveWith_keeps State.strike (fun _ _ => rfl) (fun _ _ => by simp) fun _ _ => by simp [staleHandoff]
  case landingWrite | gradingIncrements | shiftReportOffer | shiftAccepted | shiftFull | shiftRoom | flawRecord
      | releaseRequest | rewriteAnnouncement | seenWordWrite | verdictRequest | verdict =>
    exact receivePlainIf_keeps State.strike (fun _ _ => rfl) fun _ _ => by simp
  case stopRun | setClock | closeShift | laneEnable | laneDisable | manualCut | badCommand =>
    rcases onCommand_cases _ _ s with hs | ⟨n, b, _, _, _, hs⟩
    · exact congrArg State.strike hs
    · exact (congrArg State.strike hs).trans (by simp)
  case busRead | busWrite => simp
  case secondEnd | postWordWrite | sequenceWordWrite | takeViewRead | peekViewRead => split <;> simp

/-- Whatever a command does, the levels that were right before it are right after it. -/
theorem exec_keeps_outputsRight {c : Instr} {s t : State} (h : exec c s = .next t) (hs : s.outputsRight) :
    t.outputsRight := by
  cases hc : reachesStrike c with
  | false => rwa [State.outputsRight_iff, exec_keeps_strike hc h]
  | true =>
    cases c <;> first
      | exact absurd hc Bool.noConfusion
      | obtain rfl := Host.Outcome.next.inj h
    case powerOn => exact reset_outputsRight
    case warmReset => exact s.strike.runReset_outputsRight
    case headOffer | claimWithdrawal =>
      exact receiveWith_outputsRight hs takeStrikeMsg_outputsRight fun _ _ hs => hs
    case strikeGrant => exact receiveWith_outputsRight hs takeStrikeMsg_outputsRight fun _ _ hs => hs
    case strikeRise => exact receiveWith_outputsRight hs takeStrikeRise_outputsRight fun _ _ hs => hs
    case gradeAnswer => exact receiveWith_outputsRight hs takeGradeAnswer_outputsRight fun _ _ hs => hs
    case runEndCompletion =>
      exact receiveWith_outputsRight hs (fun _ _ => takeRunEnd_outputsRight) fun _ _ hs => hs
    case startRun => exact onCommand_outputsRight hs fun _ => startRun_outputsRight hs
    case resetRun => exact onCommand_outputsRight hs fun _ => resetRun_outputsRight hs

/-- Settles O7: a command that reaches the Strike Unit sets the levels, releases them or keeps what they rest on, and no other
command touches them. -/
theorem outputsFollowTrackAndGates : Obligations.OutputsFollowTrackAndGates := by
  intro s t hs h
  unfold step at h
  split at h
  · obtain rfl := Host.Outcome.next.inj h
    exact hs
  · exact exec_keeps_outputsRight h hs

end Sys2Proof.Machine
end

section
/-! Targets that arrive one value after another: what they leave of the track and the gate list, and which outputs they assert
(R106, R110). -/

namespace Sys2Proof.Machine

/-! ### Values in increasing order (R111) -/

theorem mem_inOrder {v : Nat} {vs : List Nat} : v ∈ inOrder vs ↔ v ∈ vs := (sortBy_perm _ vs).mem_iff

theorem inOrder_pairwise (vs : List Nat) : (inOrder vs).Pairwise (· ≤ ·) :=
  sortBy_pairwise (R := (· ≤ ·)) (fun _ _ _ => Nat.le_trans) (fun _ _ h => (of_decide_eq_true h).le)
    (fun _ _ h => Nat.le_of_not_lt fun hlt => h (decide_eq_true hlt)) vs

theorem decide_mem_cons (v : Nat) (vs : List Nat) :
    (fun x => decide (x = v) || decide (x ∈ vs)) = fun x => decide (x ∈ v :: vs) := by
  simp only [List.mem_cons, Bool.decide_or]

/-! ### The arrivals of a track entry (R106) -/

namespace TrackEntry

theorem startAt_endAt (e : TrackEntry) (v : Nat) : (e.endAt v).startAt v = e.after fun x => decide (x = v) := by
  unfold startAt endAt after
  by_cases hstop : e.snapEnd = v
  · simp [hstop]
  · by_cases hstart : e.snapStart = v <;> simp [hstop, hstart]

theorem after_after (p q : Nat → Bool) (e : TrackEntry) : (e.after p).after q = e.after fun v => p v || q v := by
  unfold after
  have hscore : (if q e.scoreEnd then ScoreState.done else if p e.scoreEnd then .done else e.score) =
      if p e.scoreEnd || q e.scoreEnd then .done else e.score := by
    cases p e.scoreEnd <;> simp
  have hsnap : (if q e.snapEnd then SnapState.done
      else if q e.snapStart && decide ((if p e.snapEnd then .done
          else if p e.snapStart && decide (e.snap = .waiting) then .on else e.snap) = SnapState.waiting) then .on
      else if p e.snapEnd then .done else if p e.snapStart && decide (e.snap = .waiting) then .on else e.snap) =
      if p e.snapEnd || q e.snapEnd then .done
      else if (p e.snapStart || q e.snapStart) && decide (e.snap = .waiting) then .on else e.snap := by
    cases p e.snapEnd
    · cases p e.snapStart <;> by_cases hw : e.snap = .waiting <;> simp [hw]
    · simp
  exact congrArg₂ (fun a b => { e with score := a, snap := b }) hscore hsnap

/-- Only the targets not yet arrived tell in an entry (R105). -/
theorem after_congr {p q : Nat → Bool} {e : TrackEntry} (h : ∀ v ∈ e.targets, p v = q v) : e.after p = e.after q := by
  obtain ⟨cut, strike, scoreEnd, snapStart, snapEnd, score, snap⟩ := e
  have hscore : (if p scoreEnd then ScoreState.done else score) = if q scoreEnd then .done else score := by
    cases score with
    | on => rw [h scoreEnd (by simp [targets])]
    | done => rw [ite_self, ite_self]
  have hsnap : (if p snapEnd then SnapState.done else if p snapStart && decide (snap = .waiting) then .on else snap) =
      if q snapEnd then .done else if q snapStart && decide (snap = .waiting) then .on else snap := by
    cases snap with
    | waiting => rw [h snapEnd (by simp [targets]), h snapStart (by simp [targets])]
    | on => rw [h snapEnd (by simp [targets])]; simp
    | done => simp
  exact congrArg₂ (fun a b => TrackEntry.mk cut strike scoreEnd snapStart snapEnd a b) hscore hsnap

theorem after_none : after (fun _ => false) = id := by
  funext e
  simp [after]

/-- An entry that has left the track does not come back. -/
theorem standing_of_after {p : Nat → Bool} {e : TrackEntry} (h : (e.after p).standing = true) : e.standing = true := by
  by_contra hgone
  simp only [standing, Bool.not_eq_true', Bool.not_eq_false, Bool.and_eq_true, decide_eq_true_eq] at hgone
  obtain ⟨hscore, hsnap⟩ := hgone
  simp [standing, after, hscore, hsnap] at h

theorem filter_standing_after (p : Nat → Bool) (es : List TrackEntry) :
    ((es.filter standing).map (after p)).filter standing = (es.map (after p)).filter standing := by
  induction es with
  | nil => rfl
  | cons e es ih =>
    by_cases he : e.standing = true
    · rw [List.filter_cons_of_pos he, List.map_cons, List.map_cons, List.filter_cons, List.filter_cons, ih]
    · rw [List.filter_cons_of_neg he, ih, List.map_cons, List.filter_cons_of_neg (mt standing_of_after he)]

end TrackEntry

/-! ### The arrivals of a gate window (R110) -/

theorem gatesAfter_gatesAfter (p q : Nat → Bool) (gs : List GateWindow) :
    gatesAfter q (gatesAfter p gs) = gatesAfter (fun v => p v || q v) gs := by
  simp only [gatesAfter, List.filter_map, List.map_map, List.filter_filter, Function.comp_def, Bool.not_or, Bool.or_assoc,
    Bool.and_comm]

/-- Only the targets not yet arrived tell in the gate list (R110). -/
theorem gatesAfter_congr {p q : Nat → Bool} {gs : List GateWindow} (h : ∀ g ∈ gs, ∀ v ∈ g.targets, p v = q v) :
    gatesAfter p gs = gatesAfter q gs := by
  unfold gatesAfter
  have hstop : ∀ g ∈ gs, p g.stop = q g.stop := fun g hg => h g hg _ (by simp [GateWindow.targets])
  rw [List.filter_congr fun g hg => congrArg not (hstop g hg)]
  refine List.map_congr_left fun g hg => ?_
  cases harr : g.arrived with
  | true => rfl
  | false => rw [h g (List.mem_of_mem_filter hg) g.start (by simp [GateWindow.targets, harr])]

theorem gatesAfter_none (gs : List GateWindow) : gatesAfter (fun _ => false) gs = gs := by
  simp [gatesAfter]

/-! ### The arrivals of one value (R111) -/

namespace Strike

theorem arrive_track (t : Strike) (v : Nat) :
    (t.arrive v).track = (t.track.map (TrackEntry.after fun x => decide (x = v))).filter TrackEntry.standing := by
  rw [← List.map_congr_left fun e _ => e.startAt_endAt v]
  rfl

theorem arrive_gates (t : Strike) (v : Nat) : (t.arrive v).gates = gatesAfter (fun x => decide (x = v)) t.gates := by
  have hstart (g : GateWindow) : g.startAt v = { g with arrived := g.arrived || decide (g.start = v) } := by
    by_cases h : g.start = v <;> simp [GateWindow.startAt, h]
  simp only [arrive, setLevels, gatesAfter, ← hstart, decide_not]

theorem arrive_snap (t : Strike) (v : Nat) : (t.arrive v).snap = t.snap.set (snapLevel (t.arrive v).track) := rfl

theorem arrive_gate (t : Strike) (v : Nat) : (t.arrive v).gate = t.gate.set (gateLevel (t.arrive v).gates) := rfl

/-! ### The arrivals of a list of values -/

theorem arriveAll_gates (vs : List Nat) (t : Strike) :
    (vs.foldl arrive t).gates = gatesAfter (fun v => decide (v ∈ vs)) t.gates := by
  induction vs generalizing t with
  | nil => simpa using (gatesAfter_none t.gates).symm
  | cons v vs ih => rw [List.foldl_cons, ih, arrive_gates, gatesAfter_gatesAfter, decide_mem_cons]

theorem arriveAll_standing (vs : List Nat) (t : Strike) :
    (vs.foldl arrive t).track.filter TrackEntry.standing =
      (t.track.map (TrackEntry.after fun v => decide (v ∈ vs))).filter TrackEntry.standing := by
  induction vs generalizing t with
  | nil => simp [TrackEntry.after_none]
  | cons v vs ih =>
    rw [List.foldl_cons, ih, arrive_track, TrackEntry.filter_standing_after, List.map_map]
    simp only [Function.comp_def, TrackEntry.after_after, decide_mem_cons]

theorem arriveAll_track {vs : List Nat} (hvs : vs ≠ []) (t : Strike) :
    (vs.foldl arrive t).track =
      (t.track.map (TrackEntry.after fun v => decide (v ∈ vs))).filter TrackEntry.standing := by
  rw [← arriveAll_standing, eq_comm, List.filter_eq_self, ← List.dropLast_append_getLast hvs, List.foldl_append,
    List.foldl_cons, List.foldl_nil, arrive_track]
  exact fun e he => (List.mem_filter.mp he).2

/-- Arrivals touch the track, the gate list and the outputs alone. -/
theorem arriveAll_frame (vs : List Nat) (t : Strike) :
    vs.foldl arrive t = { t with
      track := (vs.foldl arrive t).track
      gates := (vs.foldl arrive t).gates
      score := (vs.foldl arrive t).score
      snap := (vs.foldl arrive t).snap
      gate := (vs.foldl arrive t).gate } := by
  induction vs generalizing t with
  | nil => rfl
  | cons v vs ih => exact (ih (t.arrive v)).trans rfl

/-- Arrivals do not look at the claim. -/
theorem arriveAll_claiming (vs : List Nat) (t : Strike) (c : Option Nat) :
    vs.foldl arrive { t with claiming := c } = { vs.foldl arrive t with claiming := c } := by
  induction vs generalizing t with
  | nil => rfl
  | cons v vs ih => exact ih (t.arrive v)

end Strike

/-! ### Outputs asserted -/

theorem OutputLine.asserted_le_set (o : OutputLine) (b : Bool) : o.asserted ≤ (o.set b).asserted := by
  unfold OutputLine.set
  dsimp only
  split <;> omega

theorem OutputLine.asserted_lt_set {o : OutputLine} {b : Bool} (ho : o.level = false) (hb : b = true) :
    o.asserted < (o.set b).asserted := by
  simp [OutputLine.set, ho, hb]

namespace Strike

section
variable {line : Strike → OutputLine} {level : Strike → Bool}

theorem asserted_le_arriveAll (hset : ∀ t v, line (t.arrive v) = (line t).set (level (t.arrive v))) (vs : List Nat)
    (t : Strike) : (line t).asserted ≤ (line (vs.foldl arrive t)).asserted :=
  List.foldlRecOn (motive := fun u => (line t).asserted ≤ (line u).asserted) vs arrive le_rfl fun u hu v _ =>
    hu.trans (hset u v ▸ (line u).asserted_le_set _)

/-- A released output is asserted in a row of values that holds the start x of something pending: either the start finds it
released still, or it has been asserted before (R106, R110). -/
theorem asserted_lt_arriveAll (hset : ∀ t v, line (t.arrive v) = (line t).set (level (t.arrive v)))
    {pending : Strike → Prop} {x : Nat} (hstart : ∀ t, pending t → level (t.arrive x) = true)
    (hwait : ∀ t v, v < x → pending t → pending (t.arrive v)) {vs : List Nat} (horder : vs.Pairwise (· ≤ ·)) (hx : x ∈ vs)
    {t : Strike} (hreleased : (line t).level = false) (hpending : pending t) :
    (line t).asserted < (line (vs.foldl arrive t)).asserted := by
  induction vs generalizing t with
  | nil => exact absurd hx List.not_mem_nil
  | cons v vs ih =>
    obtain ⟨hle, hrest⟩ := List.pairwise_cons.mp horder
    have hlater := asserted_le_arriveAll hset vs (t.arrive v)
    cases hl : level (t.arrive v) with
    | true =>
      refine lt_of_lt_of_le ?_ hlater
      rw [hset]
      exact OutputLine.asserted_lt_set hreleased hl
    | false =>
      have hvx : v ≠ x := fun h => by
        rw [h, hstart t hpending] at hl
        exact Bool.noConfusion hl
      have hmem : x ∈ vs := (List.mem_cons.mp hx).resolve_left (Ne.symm hvx)
      have hstep : (line t).asserted ≤ (line (t.arrive v)).asserted := hset t v ▸ (line t).asserted_le_set _
      refine hstep.trans_lt (ih hrest hmem ?_ (hwait t v (lt_of_le_of_ne (hle x hmem) hvx) hpending))
      rw [hset, OutputLine.set]
      exact hl

end

/-- A track entry waits for its snap to start at x (R105). -/
def SnapPending (x : Nat) (t : Strike) : Prop :=
  ∃ e ∈ t.track, e.snap = .waiting ∧ e.snapStart = x ∧ x < e.snapEnd

/-- A gate window waits for its start at x (R110). -/
def GatePending (x : Nat) (t : Strike) : Prop :=
  ∃ g ∈ t.gates, g.arrived = false ∧ g.start = x ∧ x < g.stop

theorem mem_arrive_track {t : Strike} {e : TrackEntry} {v : Nat} (he : e ∈ t.track)
    (hsnap : (e.after fun x => decide (x = v)).snap ≠ .done) :
    (e.after fun x => decide (x = v)) ∈ (t.arrive v).track := by
  rw [arrive_track]
  exact List.mem_filter.mpr ⟨List.mem_map_of_mem he, by simp [TrackEntry.standing, hsnap]⟩

/-- A released SNAP is asserted where a WAITING snap starts, be its end among the values too (R106). -/
theorem snap_asserted_lt {vs : List Nat} (horder : vs.Pairwise (· ≤ ·)) {t : Strike} {e : TrackEntry} (he : e ∈ t.track)
    (hwaiting : e.snap = .waiting) (hstart : e.snapStart ∈ vs) (hlt : e.snapStart < e.snapEnd)
    (hreleased : t.snap.level = false) : t.snap.asserted < (vs.foldl arrive t).snap.asserted := by
  refine asserted_lt_arriveAll (line := Strike.snap) (level := fun t => snapLevel t.track) arrive_snap
    (pending := SnapPending e.snapStart) ?_ ?_ horder hstart hreleased ⟨e, he, hwaiting, rfl, hlt⟩
  · rintro t ⟨f, hf, hw, hx, hend⟩
    have hon : (f.after fun x => decide (x = e.snapStart)).snap = .on := by
      simp [TrackEntry.after, hw, hx, hend.ne']
    exact List.any_eq_true.mpr ⟨_, mem_arrive_track hf (by simp [hon]), by simp [hon]⟩
  · rintro t v hv ⟨f, hf, hw, hx, hend⟩
    have hkept : (f.after fun x => decide (x = v)).snap = .waiting := by
      simp [TrackEntry.after, hw, hx, hv.ne', (hv.trans hend).ne']
    exact ⟨_, mem_arrive_track hf (by simp [hkept]), hkept, hx, hend⟩

/-- A released GATE is asserted where a window starts, be its end among the values too (R110). -/
theorem gate_asserted_lt {vs : List Nat} (horder : vs.Pairwise (· ≤ ·)) {t : Strike} {g : GateWindow} (hg : g ∈ t.gates)
    (harrived : g.arrived = false) (hstart : g.start ∈ vs) (hlt : g.start < g.stop)
    (hreleased : t.gate.level = false) : t.gate.asserted < (vs.foldl arrive t).gate.asserted := by
  have hmem {t : Strike} {w : GateWindow} {v : Nat} (hw : w ∈ t.gates) (hv : w.stop ≠ v) :
      { w with arrived := w.arrived || decide (w.start = v) } ∈ (t.arrive v).gates := by
    rw [arrive_gates]
    exact List.mem_map.mpr ⟨w, List.mem_filter.mpr ⟨hw, by simp [hv]⟩, rfl⟩
  refine asserted_lt_arriveAll (line := Strike.gate) (level := fun t => gateLevel t.gates) arrive_gate
    (pending := GatePending g.start) ?_ ?_ horder hstart hreleased ⟨g, hg, harrived, rfl, hlt⟩
  · rintro t ⟨w, hw, _, hx, hend⟩
    exact List.any_eq_true.mpr ⟨_, hmem hw hend.ne', by simp [hx]⟩
  · rintro t v hv ⟨w, hw, ha, hx, hend⟩
    exact ⟨_, hmem hw (hv.trans hend).ne', by simp [ha, hx, hv.ne'], hx, hend⟩

end Strike

end Sys2Proof.Machine
end

section
/-! A rise of P at the Strike Unit: the targets it carries P past, and the claim at the strike target (R104, R111); with it
O41. -/

namespace Sys2Proof.Machine

/-! ### The values of a rise -/

/-- The targets of the unit that a rise reaches, in increasing order (R111). -/
def Strike.reachedTargets (t : Strike) (dCut : Nat) (m : Rise) : List Nat :=
  inOrder ((t.targets dCut).filter fun v => decide (m.p0 < v) && decide (v ≤ m.p1))

/-- The cut claimed among values that arrive: the offered head, with the claim state IDLE and its strike target among them
(R104). -/
def Strike.claimsAt (t : Strike) (dCut : Nat) (reached : Nat → Bool) : List Nat :=
  match t.claiming, t.offered with
  | none, some c => if reached (c + dCut) then [c] else []
  | _, _ => []

theorem Strike.claimsAt_none (t : Strike) (dCut : Nat) : t.claimsAt dCut (fun _ => false) = [] := by
  unfold Strike.claimsAt
  split <;> rfl

/-- A cut claimed among the values first told apart is not claimed among the others (R104). -/
theorem Strike.claimsAt_or (t : Strike) (dCut : Nat) (p q : Nat → Bool) :
    t.claimsAt dCut (fun v => p v || q v) =
      (let first := t.claimsAt dCut p
       first ++ Strike.claimsAt { t with claiming := t.claiming.or first.head? } dCut q) := by
  unfold Strike.claimsAt
  cases hclaim : t.claiming with
  | some x => rfl
  | none =>
    cases t.offered with
    | none => rfl
    | some c => cases hp : p (c + dCut) <;> simp [hp]

/-- The strike target of one value: the head is claimed there or not (R104, R111). -/
theorem StrikeStep.value_eq (dCut v : Nat) (r : StrikeStep) :
    r.value dCut v =
      (let claimed := r.t.claimsAt dCut fun x => decide (x = v)
       { t := { r.t.arrive v with claiming := r.t.claiming.or claimed.head? }, claims := r.claims ++ claimed }) := by
  obtain ⟨⟨offered, claiming, track, gates, lastPos, strikes, withdrawn, merges, score, snap, gate⟩, claims⟩ := r
  cases claiming with
  | some x => simp [StrikeStep.value, Strike.claimsAt, Strike.arrive, Strike.setLevels]
  | none =>
    cases offered with
    | none => simp [StrikeStep.value, Strike.claimsAt, Strike.arrive, Strike.setLevels]
    | some c =>
      by_cases h : c + dCut = v <;>
        simp [StrikeStep.value, Strike.claimsAt, Strike.arrive, Strike.setLevels, StrikeStep.claim, h]

theorem StrikeStep.values_eq (dCut : Nat) (vs : List Nat) (r : StrikeStep) :
    vs.foldl (StrikeStep.value dCut) r =
      (let claimed := r.t.claimsAt dCut fun x => decide (x ∈ vs)
       { t := { vs.foldl Strike.arrive r.t with claiming := r.t.claiming.or claimed.head? },
         claims := r.claims ++ claimed }) := by
  induction vs generalizing r with
  | nil => simp [Strike.claimsAt_none]
  | cons v vs ih =>
    rw [List.foldl_cons, ih, StrikeStep.value_eq, ← decide_mem_cons, Strike.claimsAt_or]
    simp only [Strike.arriveAll_claiming, List.head?_append, Option.or_assoc, List.append_assoc]
    rfl

/-! ### The targets held are all that a rise can reach -/

section
variable {t : Strike} {dCut : Nat} {m : Rise}

theorem Strike.mem_reachedTargets {v : Nat} (hv : v ∈ t.targets dCut) :
    decide (v ∈ t.reachedTargets dCut m) = (decide (m.p0 < v) && decide (v ≤ m.p1)) := by
  rw [Strike.reachedTargets, ← Bool.decide_and, decide_eq_decide, mem_inOrder, List.mem_filter]
  simp [hv]

theorem Strike.reachedTargets_pairwise : (t.reachedTargets dCut m).Pairwise (· ≤ ·) := inOrder_pairwise _

theorem Strike.targets_of_track {e : TrackEntry} (he : e ∈ t.track) {v : Nat} (hv : v ∈ e.targets) :
    v ∈ t.targets dCut :=
  List.mem_append_left _ (List.mem_append_left _ (List.mem_flatMap.mpr ⟨e, he, hv⟩))

theorem Strike.targets_of_gates {g : GateWindow} (hg : g ∈ t.gates) {v : Nat} (hv : v ∈ g.targets) :
    v ∈ t.targets dCut :=
  List.mem_append_left _ (List.mem_append_right _ (List.mem_flatMap.mpr ⟨g, hg, hv⟩))

theorem Strike.claimsAt_reached :
    t.claimsAt dCut (fun v => decide (v ∈ t.reachedTargets dCut m)) =
      t.claimsAt dCut fun v => decide (m.p0 < v) && decide (v ≤ m.p1) := by
  unfold Strike.claimsAt
  split
  next c hclaim hoff =>
    have htarget : c + dCut ∈ t.targets dCut :=
      List.mem_append_right _ (by simp [Strike.strikeTarget, hclaim, hoff])
    simp only [Strike.mem_reachedTargets htarget]
  next => rfl

theorem Strike.gatesAfter_reached :
    gatesAfter (fun v => decide (v ∈ t.reachedTargets dCut m)) t.gates =
      gatesAfter (fun v => decide (m.p0 < v) && decide (v ≤ m.p1)) t.gates :=
  gatesAfter_congr fun _ hg _ hv => Strike.mem_reachedTargets (Strike.targets_of_gates hg hv)

theorem Strike.map_after_reached :
    t.track.map (TrackEntry.after fun v => decide (v ∈ t.reachedTargets dCut m)) =
      t.track.map (TrackEntry.after fun v => decide (m.p0 < v) && decide (v ≤ m.p1)) :=
  List.map_congr_left fun _ he =>
    TrackEntry.after_congr fun _ hv => Strike.mem_reachedTargets (Strike.targets_of_track he hv)

end

/-- A rise is the arrivals of the targets it reaches, and the claim of the head whose strike target it reaches (R111). -/
theorem Strike.rise_eq (t : Strike) (dCut : Nat) (m : Rise) :
    t.rise dCut m =
      { t := { (t.reachedTargets dCut m).foldl Strike.arrive t with
          claiming := t.claiming.or (t.claimsAt dCut fun v => decide (m.p0 < v) && decide (v ≤ m.p1)).head?
          lastPos := m.p1 },
        claims := t.claimsAt dCut fun v => decide (m.p0 < v) && decide (v ≤ m.p1) } := by
  rw [← Strike.claimsAt_reached]
  exact congrArg (fun r : StrikeStep => { r with t := { r.t with lastPos := m.p1 } })
    (StrikeStep.values_eq dCut (t.reachedTargets dCut m) { t := t, claims := [] })

/-! ### The command -/

section
variable {s : State} {m : Rise} {rest : List (Tagged Rise)} {sh : Shadow}

theorem exec_strikeRise_counting (hr : s.inReset = false) (hw : s.wires.strikeRises = { epoch := s.epoch, msg := m } :: rest)
    (hsh : s.cmd.shadow = some sh) (hrun : s.cmd.runState.counting = true) :
    exec .strikeRise s = .next (State.finishStrike { s with wires := { s.wires with strikeRises := rest } }
      (s.strike.rise sh.dCut m)) := by
  refine congrArg Host.Outcome.next ((receive_taken hr hw).trans ?_)
  simp only [takeStrikeRise, hsh, hrun, if_true]

theorem exec_strikeRise_discarded (hr : s.inReset = false)
    (hw : s.wires.strikeRises = { epoch := s.epoch, msg := m } :: rest) (hsh : s.cmd.shadow = some sh)
    (hrun : ¬ s.cmd.runState.counting = true) :
    exec .strikeRise s = .next { s with wires := { s.wires with strikeRises := rest } } := by
  refine congrArg Host.Outcome.next ((receive_taken hr hw).trans ?_)
  simp only [takeStrikeRise, hsh, hrun]
  rfl

end

/-- Settles O41: a rise is the arrivals of the targets it reaches and the claim at the strike target (`Strike.rise_eq`), the
arrivals are those of O41's terms (`Strike.arriveAll_standing`, `Strike.arriveAll_gates`), and each start asserts its output
(`Strike.snap_asserted_lt`, `Strike.gate_asserted_lt`). -/
theorem riseReachesTheStrikeTarget : Obligations.RiseReachesTheStrikeTarget := by
  intro m rest s sh hr hw hsh
  split
  next hrun =>
    have hexec := exec_strikeRise_counting hr hw hsh hrun
    have horder := Strike.reachedTargets_pairwise (t := s.strike) (dCut := sh.dCut) (m := m)
    rw [Strike.rise_eq] at hexec
    refine ⟨_, hexec, rfl, ?_, ?_, fun e he => ?_, exec_keeps_outputsRight hexec, fun e he hwait hstart hlt hlevel => ?_,
      fun g hg harr hstart hlt hlevel => ?_⟩
    · rw [State.finishStrike_strike, Strike.arriveAll_frame, Strike.arriveAll_gates, Strike.gatesAfter_reached]
      rfl
    · rw [← Strike.map_after_reached (dCut := sh.dCut)]
      exact Strike.arriveAll_standing _ _
    · by_cases hvs : s.strike.reachedTargets sh.dCut m = []
      · rw [State.finishStrike_strike, hvs] at he
        exact .inr he
      · have htrack := Strike.arriveAll_track hvs s.strike
        exact .inl (List.mem_filter.mp (htrack ▸ he)).2
    · refine Strike.snap_asserted_lt horder he hwait (of_decide_eq_true ?_) hlt hlevel
      exact (Strike.mem_reachedTargets (Strike.targets_of_track he (by simp [TrackEntry.targets, hwait]))).trans hstart
    · refine Strike.gate_asserted_lt horder hg harr (of_decide_eq_true ?_) hlt hlevel
      exact (Strike.mem_reachedTargets (Strike.targets_of_gates hg (by simp [GateWindow.targets, harr]))).trans hstart
  next hrun => exact exec_strikeRise_discarded hr hw hsh hrun

end Sys2Proof.Machine
end

section
/-! A grant of the claim: the strike it makes, the targets of the strike already passed, and the claim's end (R102 to R108); with
it O42. -/

namespace Sys2Proof.Machine

/-! ### Room in the track (R105, R107) -/

namespace Strike

/-- The entries that stand beside a new strike: with 4 of them the oldest is closed (R107). -/
def kept (t : Strike) : List TrackEntry := if t.track.length < 4 then t.track else t.track.tail

/-- How many pulses of SNAP a new strike gives early: one, if it closes an oldest entry whose snap is WAITING (R107). -/
def earlySnaps (t : Strike) : Nat :=
  if 4 ≤ t.track.length ∧ (t.track.head?.any fun e => decide (e.snap = .waiting)) = true then 1 else 0

theorem makeRoom_eq (t : Strike) :
    t.makeRoom = { t with track := t.kept, snap := { t.snap with asserted := t.snap.asserted + t.earlySnaps } } := by
  obtain ⟨offered, claiming, track, gates, lastPos, strikes, withdrawn, merges, score, snap, gate⟩ := t
  by_cases hfull : 4 ≤ track.length
  · cases track with
    | nil => exact absurd hfull (by decide)
    | cons e rest =>
      have hlimit : Config.strikeTrackLimit ≤ rest.length + 1 := hfull
      have hroom : ¬ rest.length + 1 < 4 := Nat.not_lt.mpr hfull
      by_cases hwait : e.snap = .waiting <;>
        simp [makeRoom, kept, earlySnaps, closeEntry, OutputLine.pulse, hwait, hlimit, hroom]
  · have hroom : track.length < 4 := Nat.lt_of_not_le hfull
    simp [makeRoom, kept, earlySnaps, hfull, hroom]

/-! ### The strike (R105, R106) -/

/-- A strike at c as it enters the track, before any of its targets arrives (R105, R107). -/
def placed (t : Strike) (dCut : Nat) (g : StrikeGroup) (c : Nat) : Strike :=
  setLevels { t.makeRoom with
    track := t.makeRoom.track ++ [strikeEntry dCut g c]
    strikes := bump t.makeRoom.strikes }

/-- The targets of a strike at c at or below the p1 of the last rise, in order of value (R105). -/
def passedTargets (t : Strike) (dCut : Nat) (g : StrikeGroup) (c : Nat) : List Nat :=
  inOrder ((strikeEntry dCut g c).targets.filter fun v => decide (v ≤ t.lastPos))

section
variable (t : Strike) (dCut : Nat) (g : StrikeGroup) (c : Nat)

theorem placed_eq :
    t.placed dCut g c = { t with
      track := t.kept ++ [strikeEntry dCut g c]
      strikes := min 4294967295 (t.strikes + 1)
      score := t.score.set true
      snap := (t.placed dCut g c).snap
      gate := (t.placed dCut g c).gate } := by
  have hlevel : scoreLevel (t.kept ++ [strikeEntry dCut g c]) = true := by simp [scoreLevel, strikeEntry]
  rw [placed, makeRoom_eq, setLevels]
  dsimp only
  rw [hlevel]
  rfl

/-- The new entry, its snap WAITING, does not call for SNAP (R106). -/
theorem placed_snap : (t.placed dCut g c).snap = t.makeRoom.snap.set (snapLevel t.kept) := by
  have hlevel : snapLevel (t.kept ++ [strikeEntry dCut g c]) = snapLevel t.kept := by simp [snapLevel, strikeEntry]
  have hkept : t.makeRoom.track = t.kept := by rw [makeRoom_eq]
  rw [← hlevel, ← hkept]
  rfl

theorem strikeAt_eq : t.strikeAt dCut g c = (t.passedTargets dCut g c).foldl arrive (t.placed dCut g c) := by
  have hlast : (t.placed dCut g c).lastPos = t.lastPos := by rw [placed_eq]
  rw [passedTargets, ← hlast]
  rfl

theorem mem_passedTargets (v : Nat) :
    decide (v ∈ t.passedTargets dCut g c) = (decide (v ≤ t.lastPos) &&
      decide (v = c + dCut + g.wScore ∨ v = c + dCut + g.dSnap ∨ v = c + dCut + g.dSnap + g.wSnap)) := by
  rw [← Bool.decide_and, decide_eq_decide, passedTargets, mem_inOrder, List.mem_filter, and_comm]
  simp [TrackEntry.targets, strikeEntry]

/-- What a strike does to the unit, but for the levels (R105, R106). -/
theorem strikeAt_frame :
    t.strikeAt dCut g c = { t with
      track := (t.strikeAt dCut g c).track
      gates := (t.strikeAt dCut g c).gates
      strikes := min 4294967295 (t.strikes + 1)
      score := (t.strikeAt dCut g c).score
      snap := (t.strikeAt dCut g c).snap
      gate := (t.strikeAt dCut g c).gate } := by
  rw [strikeAt_eq, arriveAll_frame, placed_eq]

theorem strikeAt_gates :
    (t.strikeAt dCut g c).gates = gatesAfter (fun v => decide (v ∈ t.passedTargets dCut g c)) t.gates := by
  rw [strikeAt_eq, arriveAll_gates, placed_eq]

end

section
variable {t : Strike} {dCut c : Nat} {g : StrikeGroup}

theorem passedTargets_eq_nil (hscore : t.lastPos < c + dCut + g.wScore) (hsnap : t.lastPos < c + dCut + g.dSnap) :
    t.passedTargets dCut g c = [] := by
  refine List.eq_nil_iff_forall_not_mem.mpr fun v hv => ?_
  have hpassed := (t.mem_passedTargets dCut g c v).symm.trans (decide_eq_true hv)
  simp only [Bool.and_eq_true, decide_eq_true_eq] at hpassed
  omega

theorem passedTargets_ne_nil (h : ¬ (t.lastPos < c + dCut + g.wScore ∧ t.lastPos < c + dCut + g.dSnap)) :
    t.passedTargets dCut g c ≠ [] := by
  have hpassed (v : Nat) (hle : v ≤ t.lastPos) (hv : v = c + dCut + g.wScore ∨ v = c + dCut + g.dSnap) :
      t.passedTargets dCut g c ≠ [] :=
    List.ne_nil_of_mem (of_decide_eq_true ((t.mem_passedTargets dCut g c v).trans (by simp [hle, ← or_assoc, hv])))
  by_cases hscore : t.lastPos < c + dCut + g.wScore
  · exact hpassed _ (Nat.le_of_not_lt fun hsnap => h ⟨hscore, hsnap⟩) (.inr rfl)
  · exact hpassed _ (Nat.le_of_not_lt hscore) (.inl rfl)

/-- With no target of its own passed, the strike joins the track as it is made; otherwise every entry takes the arrivals and
those that are done leave (R105, R106). -/
theorem strikeAt_track :
    (t.strikeAt dCut g c).track =
      if t.lastPos < c + dCut + g.wScore ∧ t.lastPos < c + dCut + g.dSnap then t.kept ++ [strikeEntry dCut g c]
      else ((t.kept ++ [strikeEntry dCut g c]).map
        (TrackEntry.after fun v => decide (v ∈ t.passedTargets dCut g c))).filter TrackEntry.standing := by
  split
  next h => rw [strikeAt_eq, passedTargets_eq_nil h.1 h.2, List.foldl_nil, placed_eq]
  next h => rw [strikeAt_eq, arriveAll_track (passedTargets_ne_nil h), placed_eq]

/-! ### The outputs of a strike -/

/-- An arrival releases SCORE or leaves it, since no target makes a score state ON (R106). -/
theorem OutputsRight.arrive_score (h : t.OutputsRight) (v : Nat) :
    (t.arrive v).score.asserted = t.score.asserted := by
  obtain ⟨hscore, _⟩ := outputsRight_iff_levels.mp h
  have hset : (t.arrive v).score = t.score.set (scoreLevel (t.arrive v).track) := rfl
  rw [hset, OutputLine.set]
  refine if_neg fun hrise => ?_
  obtain ⟨hon, hoff⟩ := Bool.and_eq_true_iff.mp hrise
  obtain ⟨f, hf, hfon⟩ := List.any_eq_true.mp hon
  rw [arrive_track] at hf
  obtain ⟨e, he, rfl⟩ := List.mem_map.mp (List.mem_of_mem_filter hf)
  have heon : e.score = .on := by
    simp only [TrackEntry.after, decide_eq_true_eq] at hfon
    split at hfon
    · exact nomatch hfon
    · exact hfon
  rw [hscore, Bool.not_eq_true', Bool.eq_false_iff] at hoff
  exact hoff (List.any_eq_true.mpr ⟨e, he, decide_eq_true heon⟩)

theorem OutputsRight.arriveAll_score (h : t.OutputsRight) (vs : List Nat) :
    (vs.foldl arrive t).score.asserted = t.score.asserted := by
  induction vs generalizing t with
  | nil => rfl
  | cons v vs ih => exact (ih (t.arrive_outputsRight v)).trans (h.arrive_score v)

/-- A strike asserts SCORE once, or finds it asserted (R105). -/
theorem strikeAt_score :
    (t.strikeAt dCut g c).score.asserted = t.score.asserted + if t.score.level then 0 else 1 := by
  have hright : (t.placed dCut g c).OutputsRight := setLevels_outputsRight _
  rw [strikeAt_eq, hright.arriveAll_score, placed_eq]
  cases hl : t.score.level <;> simp [OutputLine.set, hl]

/-- With no target of its own passed, a strike gives on SNAP the pulse of the entry it closes alone (R107). -/
theorem OutputsRight.strikeAt_snap (h : t.OutputsRight) (hscore : t.lastPos < c + dCut + g.wScore)
    (hsnap : t.lastPos < c + dCut + g.dSnap) :
    (t.strikeAt dCut g c).snap.asserted = t.snap.asserted + t.earlySnaps := by
  obtain ⟨_, hlevel, _⟩ := outputsRight_iff_levels.mp h
  rw [strikeAt_eq, passedTargets_eq_nil hscore hsnap, List.foldl_nil, placed_snap, makeRoom_eq, OutputLine.set]
  refine if_neg fun hrise => ?_
  obtain ⟨hon, hoff⟩ := Bool.and_eq_true_iff.mp hrise
  obtain ⟨e, he, heon⟩ := List.any_eq_true.mp hon
  have htrack : e ∈ t.track := by
    unfold kept at he
    split at he
    · exact he
    · exact List.mem_of_mem_tail he
  rw [hlevel, Bool.not_eq_true', Bool.eq_false_iff] at hoff
  exact hoff (List.any_eq_true.mpr ⟨e, htrack, heon⟩)

/-- A strike whose snap start has been passed asserts a released SNAP (R105, R106). -/
theorem strikeAt_snap_lt (hpassed : c + dCut + g.dSnap ≤ t.lastPos) (hwidth : 0 < g.wSnap)
    (hreleased : t.snap.level = false) : t.snap.asserted < (t.strikeAt dCut g c).snap.asserted := by
  have hsnap := t.placed_snap dCut g c
  have hroom : t.snap.asserted ≤ t.makeRoom.snap.asserted ∧ t.makeRoom.snap.level = false := by
    rw [makeRoom_eq]
    exact ⟨Nat.le_add_right _ _, hreleased⟩
  rw [strikeAt_eq]
  cases hlevel : snapLevel t.kept with
  | true =>
    calc
      t.snap.asserted ≤ t.makeRoom.snap.asserted := hroom.1
      _ < (t.placed dCut g c).snap.asserted := hsnap ▸ OutputLine.asserted_lt_set hroom.2 hlevel
      _ ≤ _ := asserted_le_arriveAll (level := fun t => snapLevel t.track) arrive_snap (t.passedTargets dCut g c) _
  | false =>
    have hplaced : t.snap.asserted ≤ (t.placed dCut g c).snap.asserted :=
      hroom.1.trans (hsnap ▸ OutputLine.asserted_le_set t.makeRoom.snap _)
    refine hplaced.trans_lt (snap_asserted_lt (e := strikeEntry dCut g c) (inOrder_pairwise _) ?_ rfl ?_
      (Nat.lt_add_of_pos_right hwidth) ?_)
    · rw [placed_eq]
      exact List.mem_append_right _ List.mem_cons_self
    · exact of_decide_eq_true ((t.mem_passedTargets dCut g c _).trans (by simp [strikeEntry, hpassed]))
    · rw [hsnap]
      exact hlevel

/-! ### The end of the claim (R104) -/

/-- The held head taken up when a claim ends: another cut than the one claimed, its strike target arrived (R103, R104). -/
def takenUp (t : Strike) (dCut : Nat) : List Nat :=
  match t.offered with
  | some c => if t.offered ≠ t.claiming ∧ c + dCut ≤ t.lastPos then [c] else []
  | none => []

theorem endClaim_eq (t : Strike) (dCut : Nat) :
    t.endClaim dCut = { t := { t with claiming := (t.takenUp dCut).head? }, claims := t.takenUp dCut } := by
  unfold endClaim takenUp
  dsimp only
  cases hoff : t.offered with
  | none => simp [StrikeStep.takeUp]
  | some c =>
    by_cases hclaim : some c = t.claiming
    · simp [hclaim]
    · by_cases hle : c + dCut ≤ t.lastPos <;> simp [StrikeStep.takeUp, StrikeStep.claim, hclaim, hle]

theorem strikeAt_takenUp : (t.strikeAt dCut g c).takenUp dCut = t.takenUp dCut := by
  rw [strikeAt_frame]
  rfl

end

end Strike

/-! ### The command -/

section
variable {s : State} {sh : Shadow} {g : StrikeGroup} {number tail : Nat} {kind : PieceKind} {head : Option Nat}
  {rest : List (Tagged StrikeMsg)}

/-- A strike that finds the track full sends one strike overlap (R107). -/
theorem Strike.overlap_increments (t : Strike) :
    (if t.trackFull then [Increment.strikeOverlap] else []).map (fun i => (Sender.strike, i)) =
      if t.track.length < 4 then [] else [(.strike, .strikeOverlap)] := by
  by_cases h : t.track.length < 4
  · simp [Strike.trackFull, h, Nat.not_le.mpr h]
  · simp [Strike.trackFull, h, Nat.le_of_not_lt h]

theorem exec_strikeGrant (hr : s.inReset = false)
    (hw : s.wires.plannerStrike = { epoch := s.epoch, msg := .grant number kind head tail } :: rest)
    (hsh : s.cmd.shadow = some sh) (hg : s.cmd.strike.activate.inUse = some g) :
    exec .strikeGrant s = .next { s with
      cmd := { s.cmd with strike := s.cmd.strike.activate }
      strike := { s.strike.strikeAt sh.dCut g tail with claiming := (s.strike.takenUp sh.dCut).head? }
      wires := { s.wires with
        plannerStrike := rest
        claims := s.wires.claims ++ s.tagAll (s.strike.takenUp sh.dCut)
        handoffs := s.wires.handoffs ++
          [s.tag { number := number, kind := kind, head := head, tail := tail, dGate := g.dGate, mask := g.mask }]
        increments := s.wires.increments ++
          (if s.strike.track.length < 4 then [] else [(.strike, .strikeOverlap)]) } } := by
  refine congrArg Host.Outcome.next ((receiveWith_taken hr hw rfl).trans ?_)
  simp only [takeStrikeMsg, hsh, takeGrant, hg, Strike.endClaim_eq, Strike.strikeAt_takenUp]
  rw [← Strike.overlap_increments]
  rfl

end

/-- Settles O42: the grant is the strike, the hand-off and the claim's end (`exec_strikeGrant`); the strike's passed targets
arrive as O42 says (`Strike.strikeAt_track`, `Strike.strikeAt_gates`), and its outputs are those of `Strike.strikeAt_score`,
`Strike.OutputsRight.strikeAt_snap` and `Strike.strikeAt_snap_lt`. With no target passed the gate list stands as it was. -/
theorem grantMakesTheStrike : Obligations.GrantMakesTheStrike := by
  refine ⟨fun number kind head tail rest s sh g hr hw hsh hg hscore hsnap _ => ?_,
    fun number kind head tail rest s sh g hr hw hsh hg => ?_⟩
  · have hexec := exec_strikeGrant hr hw hsh hg
    have htrack : (s.strike.strikeAt sh.dCut g tail).track = s.strike.kept ++ [strikeEntry sh.dCut g tail] := by
      rw [Strike.strikeAt_track, if_pos ⟨hscore, hsnap⟩]
    have hgates : (s.strike.strikeAt sh.dCut g tail).gates = s.strike.gates := by
      rw [Strike.strikeAt_gates, Strike.passedTargets_eq_nil hscore hsnap]
      simpa using gatesAfter_none s.strike.gates
    have hright := s.strike.strikeAt_outputsRight sh.dCut g tail
    have hlast : (s.strike.strikeAt sh.dCut g tail).lastPos = s.strike.lastPos := by rw [Strike.strikeAt_frame]
    have hstrikes : (s.strike.strikeAt sh.dCut g tail).strikes = min 4294967295 (s.strike.strikes + 1) := by
      rw [Strike.strikeAt_frame]
    refine ⟨_, hexec, htrack, hgates, hright.1.mpr ⟨strikeEntry sh.dCut g tail, ?_, rfl⟩, hlast, hstrikes, rfl, rfl, rfl,
      rfl, rfl, rfl⟩
    rw [htrack]
    exact List.mem_append_right _ List.mem_cons_self
  · have hexec := exec_strikeGrant hr hw hsh hg
    intro a last reached kept entries taken
    have hreached : (fun v => decide (v ∈ s.strike.passedTargets sh.dCut g tail)) = reached :=
      funext (s.strike.mem_passedTargets sh.dCut g tail)
    refine ⟨_, hexec, rfl, ?_, s.strike.strikeAt_outputsRight sh.dCut g tail, Strike.strikeAt_score, fun hscore hsnap hs => ?_,
      fun hpassed hwidth hlevel => Strike.strikeAt_snap_lt hpassed hwidth hlevel⟩
    · have htrack : (s.strike.strikeAt sh.dCut g tail).track =
          if last < a + g.wScore ∧ last < a + g.dSnap then entries
          else (entries.map (TrackEntry.after reached)).filter TrackEntry.standing := hreached ▸ Strike.strikeAt_track
      have hgates : (s.strike.strikeAt sh.dCut g tail).gates = gatesAfter reached s.strike.gates :=
        hreached ▸ s.strike.strikeAt_gates sh.dCut g tail
      rw [← htrack, ← hgates]
      dsimp only
      rw [Strike.strikeAt_frame]
      rfl
    · exact Strike.OutputsRight.strikeAt_snap hs hscore hsnap

end Sys2Proof.Machine
end

section
/-! A grade answer at the Strike Unit: the gate window it makes, joined, entered, merged or discarded (R109, R110); with it
O43. -/

namespace Sys2Proof.Machine

/-! ### The newest window (R110) -/

theorem joinNewest_concat (stop : Nat) (gs : List GateWindow) (g : GateWindow) :
    joinNewest stop (gs ++ [g]) = gs ++ [{ g with stop := max g.stop stop }] := by
  induction gs with
  | nil => rfl
  | cons w gs ih =>
    cases gs with
    | nil => rfl
    | cons x gs => exact congrArg (w :: ·) ih

theorem joinNewest_of_newest {gs : List GateWindow} {g : GateWindow} (hg : gs.getLast? = some g) (stop : Nat) :
    joinNewest stop gs = gs.dropLast ++ [{ g with stop := max g.stop stop }] := by
  obtain ⟨init, rfl⟩ := List.getLast?_eq_some_iff.mp hg
  rw [joinNewest_concat, List.dropLast_concat]

theorem joinsNewest_of_newest {gs : List GateWindow} {g : GateWindow} (hg : gs.getLast? = some g) (start : Nat) :
    joinsNewest start gs = decide (start ≤ g.stop) := by
  simp only [joinsNewest, hg]

section
variable {t : Strike} {w g : GateWindow}

theorem Strike.enterWindow_track : (t.enterWindow w).track = t.track := by
  simp only [Strike.enterWindow, Strike.setLevels]
  (repeat' split) <;> rfl

theorem Strike.enterWindow_empty (h : t.gates.getLast? = none) :
    (t.enterWindow w).gates = t.gates ++ [w] ∧ (t.enterWindow w).merges = t.merges := by
  have hempty : t.gates = [] := List.getLast?_eq_none_iff.mp h
  simp [Strike.enterWindow, Strike.setLevels, joinsNewest, hempty]

theorem Strike.enterWindow_join (hg : t.gates.getLast? = some g) (hle : w.start ≤ g.stop) :
    (t.enterWindow w).gates = t.gates.dropLast ++ [{ g with stop := max g.stop w.stop }] ∧
      (t.enterWindow w).merges = t.merges := by
  simp [Strike.enterWindow, Strike.setLevels, joinsNewest_of_newest hg, joinNewest_of_newest hg, hle]

theorem Strike.enterWindow_new (hg : t.gates.getLast? = some g) (hgap : ¬ w.start ≤ g.stop) (hroom : t.gates.length < 8) :
    (t.enterWindow w).gates = t.gates ++ [w] ∧ (t.enterWindow w).merges = t.merges := by
  simp [Strike.enterWindow, Strike.setLevels, joinsNewest_of_newest hg, hgap, hroom]

theorem Strike.enterWindow_merge (hg : t.gates.getLast? = some g) (hgap : ¬ w.start ≤ g.stop)
    (hfull : ¬ t.gates.length < 8) :
    (t.enterWindow w).gates = t.gates.dropLast ++ [{ g with stop := max g.stop w.stop }] ∧
      (t.enterWindow w).merges = min 4294967295 (t.merges + 1) := by
  simp [Strike.enterWindow, Strike.setLevels, joinsNewest_of_newest hg, joinNewest_of_newest hg, hgap, hfull, bump, satAdd]

end

/-! ### The window of an answer (R109) -/

theorem gateStart_eq (dCut : Nat) (a : GradeAnswer) :
    gateStart dCut a = if a.kind = .lead then dCut else a.head.getD 0 + dCut + a.dGate := by
  unfold gateStart
  cases a.kind <;> rfl

section
variable {s : State} {sh : Shadow} {a : GradeAnswer} {rest : List (Tagged GradeAnswer)}

theorem exec_gradeAnswer_in_mask (hr : s.inReset = false)
    (hw : s.wires.gradeAnswers = { epoch := s.epoch, msg := a } :: rest) (hsh : s.cmd.shadow = some sh)
    (hmake : s.cmd.runState.counting = true ∧ a.mask.holds a.grade = true) :
    exec .gradeAnswer s = .next { s with
      strike := s.strike.answer sh.dCut a
      wires := { s.wires with
        gradeAnswers := rest
        increments := s.wires.increments ++
          (if gateIsLate sh.dCut a || decide (gateStop sh.dCut a ≤ s.strike.lastPos) then [(.strike, .gateLate)]
           else []) } } := by
  obtain ⟨hrun, hmask⟩ := hmake
  refine congrArg Host.Outcome.next ((receive_taken hr hw).trans ?_)
  simp only [takeGradeAnswer, hsh, hrun, hmask, Bool.and_self, if_true]
  split <;> rfl

theorem exec_gradeAnswer_dropped (hr : s.inReset = false)
    (hw : s.wires.gradeAnswers = { epoch := s.epoch, msg := a } :: rest) (hsh : s.cmd.shadow = some sh)
    (hdrop : ¬ (s.cmd.runState.counting = true ∧ a.mask.holds a.grade = true)) :
    exec .gradeAnswer s = .next { s with wires := { s.wires with gradeAnswers := rest } } := by
  refine congrArg Host.Outcome.next ((receive_taken hr hw).trans ?_)
  simp only [takeGradeAnswer, hsh]
  exact if_neg fun h => hdrop (Bool.and_eq_true_iff.mp h)

end

theorem Strike.answer_track (t : Strike) (dCut : Nat) (a : GradeAnswer) : (t.answer dCut a).track = t.track := by
  unfold Strike.answer
  split
  · rfl
  · exact Strike.enterWindow_track

/-- Settles O43: a window that has ended is discarded, and any other is entered by R110's steps (`Strike.enterWindow_join`,
`Strike.enterWindow_new`, `Strike.enterWindow_merge`), after which the levels are set. -/
theorem gradeAnswerMakesTheWindow : Obligations.GradeAnswerMakesTheWindow := by
  intro a rest s sh hr hw hsh inMask start stop window late
  have hmask : inMask = a.mask.holds a.grade := by
    show (match a.grade with | .a => false | .b => a.mask.b | .c => a.mask.c | .u => a.mask.u | .x => a.mask.x) = _
    cases a.grade <;> rfl
  have hstart : gateStart sh.dCut a = start := gateStart_eq sh.dCut a
  rw [hmask]
  split
  next hmake =>
    have hexec := exec_gradeAnswer_in_mask hr hw hsh hmake
    rw [gateIsLate, hstart] at hexec
    refine ⟨_, hexec, rfl, s.strike.answer_track sh.dCut a, ?_⟩
    have hwindow : s.strike.answer sh.dCut a = if stop ≤ s.strike.lastPos then s.strike else s.strike.enterWindow window := by
      rw [Strike.answer, hstart]
      rfl
    rw [hwindow]
    split
    · rfl
    · refine ⟨(s.strike.enterWindow_outputsRight window).2.2, ?_⟩
      split
      next hnone => exact Strike.enterWindow_empty hnone
      next g hnewest =>
        by_cases hjoin : start ≤ g.stop
        · simpa only [hjoin, if_true] using Strike.enterWindow_join (w := window) hnewest hjoin
        · by_cases hroom : s.strike.gates.length < 8
          · simpa only [hjoin, hroom, if_true, if_false] using Strike.enterWindow_new (w := window) hnewest hjoin hroom
          · simpa only [hjoin, hroom, if_false] using Strike.enterWindow_merge (w := window) hnewest hjoin hroom
  next hdrop => exact exec_gradeAnswer_dropped hr hw hsh hdrop

end Sys2Proof.Machine
end

section
/-! The grade of a piece: its flaws counted, the grade order and the class caps, the reasons, and what GATHER_ANSWER sends
(R108, R117, R119 to R121, R123, R124); with it O46. -/

namespace Sys2Proof.Machine

/-! ### Counts (R117) -/

theorem countSeverity_sum (fs : List FlawEntry) :
    countSeverity .minor fs + countSeverity .major fs + countSeverity .reject fs = fs.length := by
  induction fs with
  | nil => rfl
  | cons f fs ih =>
    simp only [countSeverity, List.filter_cons, List.length_cons] at ih ⊢
    cases f.severity <;> simp <;> omega

theorem countClass_sum (fs : List FlawEntry) :
    countClass .point fs + countClass .streak fs + countClass .band fs + countClass .area fs = fs.length := by
  induction fs with
  | nil => rfl
  | cons f fs ih =>
    simp only [countClass, List.filter_cons, List.length_cons] at ih ⊢
    cases f.cls <;> simp <;> omega

/-! ### The grade order (R119) -/

theorem PieceKind.gradedX_iff (k : PieceKind) :
    k.gradedX = true ↔ k = .lead ∨ k = .cullet ∨ k = .overlength ∨ k = .runEnd := by
  cases k <;> simp [PieceKind.gradedX]

section
variable (g : GradeGroup) (k : PieceKind) (n : FlawCounts) (area overlap : Nat) (overflow : Bool)

theorem orderGrade_eq :
    orderGrade g k n area overlap overflow =
      if k = .lead ∨ k = .cullet ∨ k = .overlength ∨ k = .runEnd then .x
      else if 0 < overlap ∨ overflow = true then .u
      else if 0 < n.reject ∨ g.majorMaxB < n.major ∨ denser n.minor g.dB area = true then .c
      else if g.majorMaxA < n.major ∨ denser n.minor g.dA area = true then .b
      else .a := by
  simp only [orderGrade, PieceKind.gradedX_iff, Bool.or_eq_true, decide_eq_true_eq]
  by_cases hreject : 0 < n.reject <;> simp only [hreject, true_or, false_or, if_true, if_false]

/-- The kind alone grades a piece X (R119). -/
theorem orderGrade_eq_x_iff : orderGrade g k n area overlap overflow = .x ↔ k.gradedX = true := by
  unfold orderGrade
  split
  · simp [*]
  · split_ifs <;> simp [*]

end

/-! ### The class caps (R120) -/

theorem foldl_max_le_iff (xs : List Nat) (n k : Nat) : xs.foldl max n ≤ k ↔ n ≤ k ∧ ∀ x ∈ xs, x ≤ k := by
  induction xs generalizing n with
  | nil => simp
  | cons x xs ih => rw [List.foldl_cons, ih, max_le_iff, List.forall_mem_cons, and_assoc]

/-- The worst of a list of codes depends on its codes alone. -/
theorem foldl_max_congr {xs ys : List Nat} (h : ∀ x, x ∈ xs ↔ x ∈ ys) (n : Nat) : xs.foldl max n = ys.foldl max n :=
  eq_of_forall_ge_iff fun k => by simp only [foldl_max_le_iff, h]

/-- The caps of the flaws that are MAJOR or REJECT, one for each (R120). -/
def GradeGroup.capsOf (g : GradeGroup) (fs : List FlawEntry) : List Nat :=
  fs.filterMap fun f => if f.severity = .minor then none else some (g.cap f.cls)

theorem mem_allClasses (c : FlawClass) : c ∈ allClasses := by
  cases c <;> simp [allClasses]

/-- The caps of the classes that apply are those of the flaws that make them apply (R120). -/
theorem foldl_caps (g : GradeGroup) (fs : List FlawEntry) (n : Nat) :
    (allClasses.filter (capApplies fs)).foldl (fun m c => max m (g.cap c)) n = (g.capsOf fs).foldl max n := by
  rw [← List.foldl_map (f := g.cap) (g := max)]
  refine foldl_max_congr (fun x => ?_) n
  simp only [List.mem_map, List.mem_filter, mem_allClasses, true_and, capApplies, List.any_eq_true, Bool.and_eq_true,
    decide_eq_true_eq, GradeGroup.capsOf, List.mem_filterMap, Option.ite_none_left_eq_some, Option.some.injEq]
  constructor
  · rintro ⟨c, ⟨f, hf, rfl, hmajor⟩, hx⟩
    exact ⟨f, hf, hmajor, hx⟩
  · rintro ⟨f, hf, hmajor, hx⟩
    exact ⟨f.cls, ⟨f, hf, rfl, hmajor⟩, hx⟩

theorem gradeOfCode_of_two_le {n : Nat} (h : 2 ≤ n) : gradeOfCode n = .c := by
  match n, h with
  | n + 2, _ => rfl

/-- Caps act on the grades A, B and C, and C is already the worst of these (R120). -/
theorem cappedGrade_eq (g : GradeGroup) (fs : List FlawEntry) (order : Grade) :
    match order with
    | .u | .x => cappedGrade g fs order = order
    | .a => cappedGrade g fs order = gradeOfCode ((g.capsOf fs).foldl max 0)
    | .b => cappedGrade g fs order = gradeOfCode ((g.capsOf fs).foldl max 1)
    | .c => cappedGrade g fs order = .c := by
  cases order with
  | u | x => rfl
  | a | b => exact congrArg gradeOfCode (foldl_caps g fs _)
  | c =>
    refine gradeOfCode_of_two_le ?_
    rw [foldl_caps]
    exact ((foldl_max_le_iff (g.capsOf fs) 2 _).mp le_rfl).1

theorem capReason_eq (g : GradeGroup) (fs : List FlawEntry) (order : Grade) (c : FlawClass) :
    capReason g fs order c =
      ((fs.any fun f => decide (f.cls = c) && decide (f.severity ≠ .minor)) &&
        (match order with
         | .a => decide (0 < g.cap c)
         | .b => decide (1 < g.cap c)
         | .c => decide (2 < g.cap c)
         | .u | .x => false)) := by
  cases order with
  | a | b | c => rfl
  | u | x => exact (Bool.and_false _).symm

/-! ### The mask (R102, R121) -/

theorem GateMask.holds_eq (m : GateMask) (grade : Grade) :
    m.holds grade = (match grade with | .x => m.x | .c => m.c | .u => m.u | .b => m.b | .a => false) := by
  cases grade <;> rfl

/-! ### The command -/

theorem exec_gatherAnswer {s : State} {a : GatherAnswer} {rest : List (Tagged GatherAnswer)} {sh : Shadow} {h : Handoff}
    {g : GradeGroup} (hr : s.inReset = false) (hw : s.wires.gatherAnswers = { epoch := s.epoch, msg := a } :: rest)
    (hstate : s.grading.state = .gathering h) (hgroup : s.grading.group = some g) (hsh : s.cmd.shadow = some sh) :
    exec .gatherAnswer s = .next (let r := plateRecordOf s.cmd.run sh.netLo sh.netHi g h a
      { s with
        grading := { s.grading with state := .stamping r }
        wires := { s.wires with
          gatherAnswers := rest
          gradeAnswers := s.wires.gradeAnswers ++ [s.tag (gradeAnswerOf h r)]
          gradingIncs := s.wires.gradingIncs ++ [s.tag (gradingIncrementOf r)] } }) := by
  refine congrArg Host.Outcome.next ((receive_taken hr hw).trans ?_)
  simp only [takeGatherAnswer, hstate, hgroup, hsh]
  rfl

/-- Settles O46: the record is `plateRecordOf`, whose grade, caps and reasons are R119's and R120's (`orderGrade_eq`,
`cappedGrade_eq`, `capReason_eq`); the rest of the record is what the hand-off and the gather gave. -/
theorem gatherAnswerGradesThePiece : Obligations.GatherAnswerGradesThePiece := by
  intro a rest s sh h g hr hw hstate hgroup hsh
  refine ⟨_, plateRecordOf s.cmd.run sh.netLo sh.netHi g h a, exec_gatherAnswer hr hw hstate hgroup hsh, rfl, rfl, rfl, rfl,
    rfl, rfl, rfl, rfl, rfl, rfl, countSeverity_sum a.entries, countClass_sum a.entries, ?_, GateMask.holds_eq _ _, rfl⟩
  intro n dense order caps capped
  have horder : orderGrade g h.kind (countsOf a.entries) (h.area sh.netLo sh.netHi) a.overlap a.overflow = order :=
    orderGrade_eq g h.kind (countsOf a.entries) (h.area sh.netLo sh.netHi) a.overlap a.overflow
  have hkind : h.kind.gradedX = decide (order = .x) := by
    rw [← horder, Bool.eq_iff_iff, decide_eq_true_eq, orderGrade_eq_x_iff]
  refine ⟨?_, ?_⟩
  · have hgrade : (plateRecordOf s.cmd.run sh.netLo sh.netHi g h a).grade = cappedGrade g a.entries order :=
      congrArg (cappedGrade g a.entries) horder
    rw [hgrade]
    exact cappedGrade_eq g a.entries order
  · have hcapped (c : FlawClass) : capReason g a.entries order c = capped c := capReason_eq g a.entries order c
    have hreasons : (plateRecordOf s.cmd.run sh.netLo sh.netHi g h a).reasons =
        reasonsOf g h.kind (countsOf a.entries) a.entries (h.area sh.netLo sh.netHi) a.overlap a.overflow order :=
      congrArg (reasonsOf g h.kind (countsOf a.entries) a.entries (h.area sh.netLo sh.netHi) a.overlap a.overflow) horder
    rw [hreasons, reasonsOf, hkind, hcapped, hcapped, hcapped, hcapped]
    rfl

end Sys2Proof.Machine
end

section
/-! What else GATHER_ANSWER's record holds: the length and area of the piece (R118) and its top-flaw list (R122); with them
O45 and O47. -/

namespace Sys2Proof.Machine

/-! ### Length and area (R118) -/

section
variable {h : Handoff} (netLo netHi : Nat)

/-- A LEAD piece has no head, and measures nothing. -/
theorem Handoff.measures_of_no_head (hhead : h.head = none) : h.length = 0 ∧ h.area netLo netHi = 0 := by
  simp [Handoff.length, Handoff.area, Handoff.extent, hhead]

theorem Handoff.measures_of_head {head : Nat} (hhead : h.head = some head) :
    h.length = (h.tail - head) / 1000 ∧
      h.area netLo netHi = min (2 ^ 32 - 1) ((h.tail - head) * (netHi - netLo) / 10 ^ 10) := by
  simp only [Handoff.length, Handoff.area, Handoff.extent, hhead, true_and]
  rfl

end

/-- Settles O45: the record of the gather's answer holds the hand-off's own measures, by whether it has a head. -/
theorem pieceLengthAndArea : Obligations.PieceLengthAndArea := by
  intro a rest s sh h g hr hw hstate hgroup hsh
  refine ⟨_, plateRecordOf s.cmd.run sh.netLo sh.netHi g h a, exec_gatherAnswer hr hw hstate hgroup hsh, rfl, ?_⟩
  cases hhead : h.head with
  | none => exact h.measures_of_no_head sh.netLo sh.netHi hhead
  | some head => exact h.measures_of_head sh.netLo sh.netHi hhead

/-! ### The top-flaw list (R122) -/

section
variable {α : Type} {before : α → α → Bool} {p : α → Bool}

/-- An item goes in before those it ties with, so among items that tie it stays first. -/
theorem insertBy_filter_of_ties (hties : ∀ a b, p a = true → p b = true → before a b = true) (a : α) (l : List α) :
    (insertBy before a l).filter p = (a :: l).filter p := by
  induction l with
  | nil => rfl
  | cons b rest ih =>
    unfold insertBy
    split
    · rfl
    · next hafter =>
      rw [List.filter_cons, ih]
      by_cases ha : p a = true
      · have hb : ¬ p b = true := fun hb => hafter (hties a b ha hb)
        simp only [List.filter_cons, ha, hb, if_true, Bool.false_eq_true, if_false]
      · simp only [List.filter_cons, ha, Bool.false_eq_true, if_false]

/-- Items that tie keep their order. -/
theorem sortBy_filter_of_ties (hties : ∀ a b, p a = true → p b = true → before a b = true) (l : List α) :
    (sortBy before l).filter p = l.filter p := by
  induction l with
  | nil => rfl
  | cons a rest ih => rw [sortBy, insertBy_filter_of_ties hties, List.filter_cons, List.filter_cons, ih]

end

/-- The rank test of the top-flaw list: the severer flaw first, and of one severity the one the gather gave first (R122). -/
def FlawEntry.severer (e f : FlawEntry) : Bool := decide (f.severity.code ≤ e.severity.code)

theorem topFlaws_eq (fs : List FlawEntry) :
    topFlaws fs = ((sortBy FlawEntry.severer fs).take 16).map (·.number) := rfl

theorem sortBy_severer_pairwise (fs : List FlawEntry) :
    (sortBy FlawEntry.severer fs).Pairwise fun e f => f.severity.code ≤ e.severity.code :=
  sortBy_pairwise (fun _ _ _ hab hbc => hbc.trans hab) (fun _ _ h => of_decide_eq_true h)
    (fun _ _ h => Nat.le_of_not_le (of_decide_eq_false (Bool.eq_false_iff.mpr h))) fs

theorem sortBy_severer_filter (v : Severity) (fs : List FlawEntry) :
    ((sortBy FlawEntry.severer fs).filter fun f => decide (f.severity = v)) =
      fs.filter fun f => decide (f.severity = v) :=
  sortBy_filter_of_ties (fun e f he hf => by
    simp only [decide_eq_true_eq] at he hf
    simp [FlawEntry.severer, he, hf]) fs

/-- Settles O47: the list is the gathered flaws sorted by `FlawEntry.severer`, and the record in STAMPING holds it. -/
theorem topFlawsBySeverity : Obligations.TopFlawsBySeverity :=
  ⟨fun _ _ _ _ _ a => ⟨sortBy FlawEntry.severer a.entries, topFlaws_eq a.entries, sortBy_perm _ _,
      sortBy_severer_pairwise a.entries, fun v => sortBy_severer_filter v a.entries⟩,
    fun a _ s h g sh hr hw hstate hgroup hsh =>
      ⟨_, plateRecordOf s.cmd.run sh.netLo sh.netHi g h a, sortBy FlawEntry.severer a.entries,
        exec_gatherAnswer hr hw hstate hgroup hsh, rfl, rfl, topFlaws_eq a.entries, sortBy_perm _ _,
        sortBy_severer_pairwise a.entries, fun v => sortBy_severer_filter v a.entries⟩⟩

end Sys2Proof.Machine
end

section
/-! The grading queue, the stamp, and the Record Writer's answers at the Grading Unit (R115, R116, R123, R125, R126, R128);
with them O44. -/

namespace Sys2Proof.Machine

variable {s : State}

/-! ### The oldest record offered, and the pieces asked of the Planner (R125) -/

/-- The offer state given, and the records of the pieces given on their way to the Record Writer. -/
def State.offering (s : State) (outstanding : Bool) (os : List Outbound) : State :=
  { s with
    grading := { s.grading with outstanding := outstanding }
    wires := { s.wires with plateOffers := s.wires.plateOffers ++ os.map fun o => s.tag o.record } }

theorem State.offering_nothing (s : State) : s.offering s.grading.outstanding [] = s := by
  simp [State.offering]

/-- The oldest record is offered unless an offer is outstanding or the log is full. -/
theorem State.offerPlate_eq (s : State) :
    s.offerPlate = s.offering (s.grading.outstanding || (!s.grading.logFull && !s.grading.outbound.isEmpty))
      (if s.grading.outstanding || s.grading.logFull then [] else s.grading.outbound.take 1) := by
  unfold State.offerPlate
  split
  · next hout => simp [hout, State.offering_nothing]
  · next o os hout =>
    split
    · next hbar =>
      have hkept : (s.grading.outstanding || (!s.grading.logFull && !s.grading.outbound.isEmpty)) =
          s.grading.outstanding := by
        rcases Bool.or_eq_true _ _ ▸ hbar with h | h <;> simp [h]
      rw [hkept, State.offering_nothing]
    · next hclear =>
      obtain ⟨hoffer, hfull⟩ : s.grading.outstanding = false ∧ s.grading.logFull = false := by simpa using hclear
      rw [hoffer, hfull, hout]
      rfl

theorem State.foldl_askPlanner (ms : List PieceReq) (s : State) :
    ms.foldl State.askPlanner s = s.wire fun w => { w with pieceReqs := w.pieceReqs ++ ms.map s.tag } := by
  induction ms generalizing s with
  | nil => simp [State.wire]
  | cons m ms ih =>
    rw [List.foldl_cons, ih]
    simp [State.askPlanner, State.wire, State.tag]

/-! ### GRADING_HANDOFF and GRADING_BEGIN (R116, R128) -/

theorem exec_gradingHandoff {m : Tagged Handoff} {rest : List (Tagged Handoff)} (hr : s.inReset = false)
    (hw : s.wires.handoffs = m :: rest) :
    exec .gradingHandoff s = .next (if m.epoch = s.epoch then
        takeHandoff m.msg { s with wires := { s.wires with handoffs := rest } }
      else staleHandoff m.msg { s with wires := { s.wires with handoffs := rest } }) := by
  refine congrArg Host.Outcome.next ?_
  simp [receiveWith, hr, hw]

theorem exec_gradingBegin {h : Handoff} {rest : List Handoff} (hr : s.inReset = false) (hidle : s.grading.state = .idle)
    (hq : s.grading.queue = h :: rest) :
    exec .gradingBegin s = .next { s with
      cmd := { s.cmd with grade := s.cmd.grade.activate }
      grading := { s.grading with queue := rest, state := .gathering h, group := s.cmd.grade.activate.inUse }
      wires := { s.wires with gathers := s.wires.gathers ++ [s.tag { head := h.head, tail := h.tail }] } } := by
  refine congrArg Host.Outcome.next ((live_out hr).trans ?_)
  simp only [gradingBegin, hidle, hq]
  rfl

/-! ### STAMP (R123, R125) -/

section
variable {x : ShiftStamp} {rest : List (Tagged ShiftStamp)} {r : PlateRecord}

theorem exec_stamp (hr : s.inReset = false) (hw : s.wires.stamps = { epoch := s.epoch, msg := x } :: rest)
    (hstate : s.grading.state = .stamping r) :
    exec .stamp s = .next (State.joinOutbound { s with
      grading := { s.grading with state := .idle, graded := min 4294967295 (s.grading.graded + 1) }
      wires := { s.wires with stamps := rest } } { r with stamp := some x }) := by
  refine congrArg Host.Outcome.next ((receive_taken hr hw).trans ?_)
  simp only [takeStamp, hstate]
  rfl

/-- A piece that joins the list behind a full log goes to WAITING_LOG at once. -/
theorem State.joinOutbound_full {t : State} (hfull : t.grading.logFull = true) :
    t.joinOutbound r = { t with
      grading := { t.grading with
        outbound := t.grading.outbound ++ [{ record := r, waiting := true }], held := t.grading.held + 1 }
      wires := { t.wires with pieceReqs := t.wires.pieceReqs ++ [t.tag (.waitingLog r.number)] } } := if_pos hfull

/-- A piece that joins the list of a log with room makes it non-empty, so a record is outstanding from then on. -/
theorem State.joinOutbound_room {t : State} (hfull : t.grading.logFull = false) :
    t.joinOutbound r =
      let os : List Outbound := t.grading.outbound ++ [{ record := r, waiting := false }]
      State.offering { t with grading := { t.grading with outbound := os } } true
        (if t.grading.outstanding then [] else os.take 1) := by
  have hsome (o : Outbound) : (t.grading.outbound ++ [o]).isEmpty = false := by simp
  refine (if_neg (Bool.eq_false_iff.mp hfull)).trans ((State.offerPlate_eq _).trans ?_)
  simp only [hfull, hsome, Bool.not_false, Bool.and_true, Bool.or_true, Bool.or_false]

end

/-! ### The Record Writer's answers (R125, R126) -/

section
variable {rest : List (Tagged LogAnswer)}

theorem exec_plateAccepted {o : Outbound} {os : List Outbound} (hr : s.inReset = false)
    (hw : s.wires.plateAnswers = { epoch := s.epoch, msg := .accepted } :: rest) (hout : s.grading.outbound = o :: os) :
    exec .plateAccepted s = .next (State.offerPlate { s with
      grading := { s.grading with
        outbound := os, outstanding := false, held := if o.waiting then s.grading.held - 1 else s.grading.held }
      wires := { s.wires with
        plateAnswers := rest, pieceReqs := s.wires.pieceReqs ++ [s.tag (.removal o.record.number)] } }) := by
  refine congrArg Host.Outcome.next ((receiveIf_taken hr hw rfl).trans ?_)
  simp only [takePlateAnswer, plateAccepted, hout]
  rfl

theorem plateFull_eq (s : State) :
    plateFull s = { s with
      grading := { s.grading with
        outstanding := false, logFull := true, held := s.grading.held + s.grading.notWaiting.length,
        outbound := s.grading.outbound.map fun o => { o with waiting := true } }
      wires := { s.wires with
        pieceReqs := s.wires.pieceReqs ++ s.grading.notWaiting.map fun o => s.tag (.waitingLog o.record.number) } } := by
  have hfold := State.foldl_askPlanner (s.grading.notWaiting.map fun o => .waitingLog o.record.number)
  rw [plateFull, ← List.foldl_map (f := fun o : Outbound => PieceReq.waitingLog o.record.number), hfold, List.map_map]
  rfl

theorem exec_plateFull (hr : s.inReset = false) (hw : s.wires.plateAnswers = { epoch := s.epoch, msg := .full } :: rest) :
    exec .plateFull s = .next (plateFull { s with wires := { s.wires with plateAnswers := rest } }) :=
  congrArg Host.Outcome.next (receiveIf_taken hr hw rfl)

theorem exec_plateRoom (hr : s.inReset = false) (hw : s.wires.plateAnswers = { epoch := s.epoch, msg := .room } :: rest) :
    exec .plateRoom s = .next (plateRoom { s with wires := { s.wires with plateAnswers := rest } }) :=
  congrArg Host.Outcome.next (receiveIf_taken hr hw rfl)

/-- A room event taken with no offer outstanding clears the mark, and offers only if the mark was set. -/
theorem plateRoom_eq (hidle : s.grading.outstanding = false) :
    plateRoom s = State.offering { s with grading := { s.grading with logFull := false } }
      (s.grading.logFull && !s.grading.outbound.isEmpty) (if s.grading.logFull then s.grading.outbound.take 1 else []) := by
  unfold plateRoom
  split
  · next hfull => rw [State.offerPlate_eq, hfull, hidle]; rfl
  · next hclear =>
    have hfull := Bool.eq_false_iff.mpr hclear
    have hmark : { s with grading := { s.grading with logFull := false } } = s := by rw [← hfull]
    rw [hmark, hfull, Bool.false_and, ← hidle]
    exact s.offering_nothing.symm

end

/-- Settles O44: each event is its `exec_` lemma, and an offer among its effects is `State.offerPlate_eq`'s. -/
theorem gradingQueueStampsAndRecords : Obligations.GradingQueueStampsAndRecords := by
  refine ⟨⟨fun m rest s hr hw => ?_, fun h rest s => exec_gradingBegin⟩, fun x rest s r hr hw hstate => ?_,
    fun o os rest s hr hw hout => ?_, fun rest s hr hw => ?_, fun rest s hr hw hidle => ?_⟩
  · rw [exec_gradingHandoff hr hw]
    split <;> rfl
  · cases hfull : s.grading.logFull with
    | true =>
      exact ⟨_, (exec_stamp hr hw hstate).trans (congrArg Host.Outcome.next (State.joinOutbound_full hfull)),
        rfl, rfl, rfl, hfull, rfl, rfl, rfl, rfl⟩
    | false =>
      refine ⟨_, (exec_stamp hr hw hstate).trans (congrArg Host.Outcome.next (State.joinOutbound_room hfull)),
        rfl, rfl, rfl, hfull, rfl, rfl, rfl, ?_⟩
      cases s.grading.outstanding <;> rfl
  · refine ⟨_, (exec_plateAccepted hr hw hout).trans (congrArg Host.Outcome.next (State.offerPlate_eq _)), rfl, ?_⟩
    cases hfull : s.grading.logFull <;> simp only [State.offering, hfull] <;> rfl
  · rw [exec_plateFull hr hw, plateFull_eq]; rfl
  · refine ⟨_, (exec_plateRoom hr hw).trans (congrArg Host.Outcome.next (plateRoom_eq hidle)), rfl, ?_⟩
    cases s.grading.logFull <;> rfl

end Sys2Proof.Machine
end

section
/-! Images of log records as rows of fields: what each byte of one shows (chapter 11.5, R174). -/

namespace Sys2Proof.Machine

/-! ### Fields one after another -/

/-- Little-endian fields with no byte between them, each given by its size and value. -/
def packFields (fs : List (Nat × Nat)) : List Byte := fs.flatMap fun f => le f.1 f.2

/-- The offset, size and value of each of such fields, the first of them at an offset. -/
def fieldsFrom : Nat → List (Nat × Nat) → List (Nat × Nat × Nat)
  | _, [] => []
  | o, (n, v) :: fs => (o, n, v) :: fieldsFrom (o + n) fs

theorem packFields_cons (n v : Nat) (fs : List (Nat × Nat)) : packFields ((n, v) :: fs) = le n v ++ packFields fs := rfl

theorem packFields_length (fs : List (Nat × Nat)) : (packFields fs).length = (fs.map (·.1)).sum := by
  simp [packFields, List.length_flatMap]

/-- Each field stands within the bytes and shows its value. -/
theorem field_packFields {fs : List (Nat × Nat)} {o : Nat} {f : Nat × Nat × Nat} (hf : f ∈ fieldsFrom o fs) :
    o ≤ f.1 ∧ f.1 - o + f.2.1 ≤ (packFields fs).length ∧ field (packFields fs) (f.1 - o) f.2.1 = f.2.2 % 256 ^ f.2.1 := by
  induction fs generalizing o with
  | nil => cases hf
  | cons x fs ih =>
    obtain ⟨n, v⟩ := x
    rw [packFields_cons, List.length_append, le_length]
    rcases List.mem_cons.mp hf with rfl | hf
    · refine ⟨le_rfl, by simp only; omega, ?_⟩
      simp only [Nat.sub_self]
      rw [field_append_left _ _ _ _ (by simp), field_le]
    · obtain ⟨hle, hend, hval⟩ := ih hf
      refine ⟨by omega, by omega, ?_⟩
      rw [field_append_right _ _ _ _ (by rw [le_length]; omega), le_length, Nat.sub_sub, hval]

/-- Every byte belongs to one of the fields. -/
theorem exists_fieldsFrom {fs : List (Nat × Nat)} {o i : Nat} (hle : o ≤ i) (hlt : i < o + (packFields fs).length) :
    ∃ f ∈ fieldsFrom o fs, f.1 ≤ i ∧ i < f.1 + f.2.1 := by
  induction fs generalizing o with
  | nil => exact absurd hlt (by simp [packFields]; omega)
  | cons x fs ih =>
    obtain ⟨n, v⟩ := x
    rw [packFields_cons, List.length_append, le_length] at hlt
    by_cases hi : i < o + n
    · exact ⟨(o, n, v), List.mem_cons_self, hle, hi⟩
    · obtain ⟨f, hf, hin⟩ := ih (o := o + n) (by omega) (by omega)
      exact ⟨f, List.mem_cons_of_mem _ hf, hin⟩

/-! ### Rows of fields -/

/-- The parts of an image laid out from rows of fields, each row at an offset. -/
def rowParts (rows : List (Nat × List (Nat × Nat))) : List (Nat × List Byte) :=
  rows.map fun r => (r.1, packFields r.2)

/-- An image of rows in rising order that end within it shows their fields and no other byte. -/
theorem imageShows_layout {size : Nat} {rows : List (Nat × List (Nat × Nat))}
    (horder : inLayoutOrder 0 (rowParts rows) = true) (hend : ∀ p ∈ rowParts rows, p.1 + p.2.length ≤ size) :
    imageShows (layout size 0 (rowParts rows)) size (rows.flatMap fun r => fieldsFrom r.1 r.2) := by
  refine ⟨layout_length (Nat.zero_le _) horder hend, fun f hf => ?_, fun i _ hout => ?_⟩
  · obtain ⟨r, hr, hf⟩ := List.mem_flatMap.mp hf
    obtain ⟨hle, hwithin, hval⟩ := field_packFields hf
    have hpart : (r.1, packFields r.2) ∈ rowParts rows := List.mem_map_of_mem hr
    have hfield := layout_field_within size (packFields r.2) r.1 (f.1 - r.1) f.2.1 hwithin _ 0 horder hpart
    rwa [Nat.sub_zero, Nat.add_sub_cancel' hle, hval] at hfield
  · rw [layout_byteAt _ _ horder]
    refine congrArg BitVec.toNat (layoutByte_zero fun p hp => ?_)
    obtain ⟨r, hr, rfl⟩ := List.mem_map.mp hp
    by_contra hin
    obtain ⟨f, hf, hfi⟩ := exists_fieldsFrom (fs := r.2) (o := r.1) (i := i) (by simp only at hin; omega)
      (by simp only at hin; omega)
    have := hout f (List.mem_flatMap.mpr ⟨r, hr, hf⟩)
    omega

end Sys2Proof.Machine
end

section
/-! The images of the log records as rows of fields (chapter 11.5, R174). -/

namespace Sys2Proof.Machine

/-! ### Bits and repeated fields -/

/-- Numbers in fields of one size. -/
theorem leAll_eq_packFields (n : Nat) (vs : List Nat) : leAll n vs = packFields (vs.map fun v => (n, v)) := by
  simp [leAll, packFields, List.flatMap_map]

theorem packFields_same_size_length (n : Nat) (vs : List Nat) :
    (packFields (vs.map fun v => (n, v))).length = n * vs.length := by
  rw [← leAll_eq_packFields, leAll_length]

theorem fieldsFrom_append (fs gs : List (Nat × Nat)) (o : Nat) :
    fieldsFrom o (fs ++ gs) = fieldsFrom o fs ++ fieldsFrom (o + (packFields fs).length) gs := by
  induction fs generalizing o with
  | nil => rfl
  | cons f fs ih =>
    rw [List.cons_append, fieldsFrom, ih, packFields_cons, List.length_append, le_length, ← Nat.add_assoc]
    rfl

theorem fieldsFrom_same_size (n : Nat) (vs : List Nat) (o : Nat) :
    fieldsFrom o (vs.map fun v => (n, v)) = vs.zipIdx.map fun v => (o + n * v.2, n, v.1) := by
  induction vs generalizing o with
  | nil => rfl
  | cons v vs ih =>
    rw [List.map_cons, fieldsFrom, ih, List.zipIdx_cons', List.map_cons, List.map_map]
    refine List.cons_eq_cons.mpr ⟨rfl, List.map_congr_left fun x _ => ?_⟩
    simp only [Function.comp_apply, Prod.map, id, Nat.mul_succ]
    rw [Nat.add_assoc, Nat.add_comm n]

/-- A value for each lane, weighted by the lanes in order. -/
theorem sum_weighted_lanes (w : LaneId → Nat) :
    (allLanes.map fun k => w k * 2 ^ k.val).sum =
      w 0 + 2 * (w 1 + 2 * (w 2 + 2 * (w 3 + 2 * (w 4 + 2 * (w 5 + 2 * (w 6 + 2 * (w 7 + 2 * 0))))))) := by
  change w 0 * 2 ^ 0 + (w 1 * 2 ^ 1 + (w 2 * 2 ^ 2 + (w 3 * 2 ^ 3 + (w 4 * 2 ^ 4 + (w 5 * 2 ^ 5 + (w 6 * 2 ^ 6 +
    (w 7 * 2 ^ 7 + 0))))))) = _
  ring

theorem lanes_toList (lanes : Vector Bool 8) : lanes.toList = allLanes.map fun k => lanes[k] := by
  have hall : allLanes = List.finRange 8 := by decide
  rw [hall]
  exact List.ext_getElem (by simp) (by simp)

theorem bitsOf_lanes (lanes : Vector Bool 8) :
    bitsOf lanes.toList = (allLanes.map fun k => (if lanes[k] then 1 else 0) * 2 ^ k.val).sum := by
  rw [lanes_toList, sum_weighted_lanes fun k => if lanes[k] then 1 else 0]
  rfl

theorem BlobFlags.byte_eq (f : BlobFlags) :
    f.byte = (if f.merged then 1 else 0) + 2 * (if f.crowded then 1 else 0) + 4 * (if f.continued.isSome then 1 else 0) +
      8 * (if f.partialView then 1 else 0) + 16 * (if f.truncated then 1 else 0) + 32 * (if f.forced then 1 else 0) := by
  simp only [BlobFlags.byte, bitsOf]
  ring

theorem Reasons.bits_eq (q : Reasons) :
    q.bits =
      (if q.kind then 1 else 0) + 2 * (if q.gap then 1 else 0) + 4 * (if q.overflow then 1 else 0) +
        8 * (if q.reject then 1 else 0) + 16 * (if q.majorB then 1 else 0) + 32 * (if q.densityB then 1 else 0) +
        64 * (if q.majorA then 1 else 0) + 128 * (if q.densityA then 1 else 0) + 256 * (if q.capPoint then 1 else 0) +
        512 * (if q.capStreak then 1 else 0) + 1024 * (if q.capBand then 1 else 0) +
        2048 * (if q.capArea then 1 else 0) := by
  simp only [Reasons.bits, bitsOf]
  ring

theorem bitsOf_four (a b c d : Bool) :
    bitsOf [a, b, c, d] =
      (if a then 1 else 0) + 2 * (if b then 1 else 0) + 4 * (if c then 1 else 0) + 8 * (if d then 1 else 0) := by
  simp only [bitsOf]
  ring

theorem bitsOf_five (a b c d e : Bool) :
    bitsOf [a, b, c, d, e] =
      (if a then 1 else 0) + 2 * (if b then 1 else 0) + 4 * (if c then 1 else 0) + 8 * (if d then 1 else 0) +
        16 * (if e then 1 else 0) := by
  simp only [bitsOf]
  ring

theorem Grade.idx_val (g : Grade) : g.idx.val = match g with | .a => 0 | .b => 1 | .c => 2 | .u => 3 | .x => 4 := by
  cases g <;> rfl

/-! ### The Flaw Log -/

/-- The fields of a flaw record (chapter 11.5). -/
def FlawRecord.rows (r : FlawRecord) : List (Nat × List (Nat × Nat)) :=
  [(0x00, [(4, r.number), (2, r.run.toNat), (1, r.disposition.code), (1, r.severity.code), (1, r.cls.code),
     (1, r.polarity.code), (1, r.flags.byte), (1, bitsOf r.lanes.toList)]),
   (0x0C, [(4, r.first), (4, r.front), (4, r.flags.continued.getD 0)]), (0x18, [(8, r.start), (8, r.stop)]),
   (0x28, [(4, r.lo), (4, r.hi)]), (0x30, [(2, r.peak)]), (0x34, [(4, r.sum), (4, r.area)])]

theorem FlawRecord.image_eq (r : FlawRecord) : r.image = layout 60 0 (rowParts r.rows) := by
  simp [FlawRecord.image, FlawRecord.rows, rowParts, packFields, leAll]

theorem FlawRecord.image_shows (r : FlawRecord) :
    imageShows r.image 60 (r.rows.flatMap fun row => fieldsFrom row.1 row.2) := by
  rw [FlawRecord.image_eq]
  refine imageShows_layout ?_ ?_
  · simp [FlawRecord.rows, rowParts, inLayoutOrder, packFields_length]
  · simp [FlawRecord.rows, rowParts, packFields_length]

/-! ### The Plate Log -/

/-- Zeros at the end of the last field are the image's own (R174). -/
theorem layout_last_zeros {size o k : Nat} {bytes : List Byte} (hend : o + bytes.length + k = size)
    (parts : List (Nat × List Byte)) (pos : Nat) :
    layout size pos (parts ++ [(o, bytes ++ zeros k)]) = layout size pos (parts ++ [(o, bytes)]) := by
  induction parts generalizing pos with
  | nil =>
    have hrest : size - (o + bytes.length) = k := by omega
    have hnone : size - (o + (bytes ++ zeros k).length) = 0 := by rw [List.length_append, zeros_length]; omega
    simp only [List.nil_append, layout, hrest, hnone]
    simp [zeros]
  | cons p parts ih => simp only [List.cons_append, layout, ih]

theorem leAll_append (n : Nat) (vs ws : List Nat) : leAll n (vs ++ ws) = leAll n vs ++ leAll n ws := List.flatMap_append

theorem leAll_zeros (n k : Nat) : leAll n (List.replicate k 0) = zeros (k * n) := by
  have hle : le n 0 = zeros n := by
    induction n with
    | zero => rfl
    | succ n ih => exact congrArg (0 :: ·) ih
  rw [leAll, List.flatMap_replicate, hle]
  exact List.flatten_replicate_replicate

namespace PlateRecord

variable {r : PlateRecord}

/-- The top flaws of a plate record in 16 fields, 0 for one that is absent. -/
def topFields (r : PlateRecord) : List Nat := (List.range 16).map fun i => r.top.getD i 0

theorem topFields_eq (h : r.top.length ≤ 16) : r.topFields = r.top ++ List.replicate (16 - r.top.length) 0 := by
  refine List.ext_getElem (by simp [topFields]; omega) fun i hi _ => ?_
  simp only [topFields, List.getElem_map, List.getElem_range, List.getElem_append]
  split <;> simp [*]

/-- The bytes after the last top flaw are the fields of the absent ones (R174). -/
theorem leAll_topFields (h : r.top.length ≤ 16) :
    leAll 4 r.topFields = leAll 4 r.top ++ zeros ((16 - r.top.length) * 4) := by
  rw [topFields_eq h, leAll_append, leAll_zeros]

/-- The fields of a plate record (chapter 11.5), the top flaws apart. -/
def fixedRows (r : PlateRecord) : List (Nat × List (Nat × Nat)) :=
  [(0x00, [(4, r.number), (2, r.run.toNat), (1, r.kind.code), (1, r.grade.idx.val), (2, r.reasons.bits),
     (1, bitsOf [r.head.isSome, r.overflow, r.diverted, r.stampFields.2.2]), (1, r.top.length)]),
   (0x0C, [(4, r.stampFields.1), (6, r.head.getD 0), (6, r.tail), (4, r.area)]),
   (0x20, [(2, r.counts.minor), (2, r.counts.major), (2, r.counts.reject), (2, r.counts.point), (2, r.counts.streak),
     (2, r.counts.band), (2, r.counts.area), (2, r.counts.late), (2, r.counts.unplanned), (2, r.counts.total)]),
   (0x34, [(4, min r.overlap 4294967295), (4, r.stampFields.2.1)])]

/-- The fields of a plate record with its top flaws. -/
def rows (r : PlateRecord) : List (Nat × List (Nat × Nat)) :=
  r.fixedRows ++ [(0x3C, r.topFields.map fun v => (4, v))]

theorem image_eq (h : r.top.length ≤ 16) : r.image = layout 124 0 (rowParts r.rows) := by
  have himage : r.image = layout 124 0 (rowParts r.fixedRows ++ [(0x3C, leAll 4 r.top)]) := by
    simp [PlateRecord.image, fixedRows, rowParts, packFields, leAll]
  have hparts : rowParts r.rows = rowParts r.fixedRows ++ [(0x3C, leAll 4 r.topFields)] := by
    rw [rows, rowParts, List.map_append, leAll_eq_packFields]
    rfl
  rw [hparts, leAll_topFields h, layout_last_zeros (by rw [leAll_length]; omega), himage]

theorem topFields_length (r : PlateRecord) : r.topFields.length = 16 := by
  rw [topFields, List.length_map, List.length_range]

theorem image_shows (h : r.top.length ≤ 16) :
    imageShows r.image 124 (r.rows.flatMap fun row => fieldsFrom row.1 row.2) := by
  rw [image_eq h]
  refine imageShows_layout ?_ ?_
  · simp [rows, fixedRows, rowParts, inLayoutOrder, packFields_length]
  · simp only [rows, fixedRows, rowParts, List.cons_append, List.nil_append, List.map_cons, List.map_nil,
      packFields_same_size_length, topFields_length, List.forall_mem_cons]
    simp [packFields_length]

theorem stampFields_eq (r : PlateRecord) :
    r.stampFields = ((r.stamp.map (·.shift.toNat)).getD 0, (r.stamp.map (·.time.stamp)).getD 0,
      (r.stamp.map (·.valid)).getD false) := by
  unfold stampFields
  cases r.stamp <;> rfl

end PlateRecord

/-! ### The Shift Log -/

namespace ShiftReport

/-- The fields of a shift report (chapter 11.5). -/
def rows (r : ShiftReport) : List (Nat × List (Nat × Nat)) :=
  let t := r.tally
  let c := t.counters
  [(0x00, [(4, t.shift.toNat), (1, t.slot.code),
     (1, bitsOf [decide (t.slot = .reset), t.clockSet, t.clockUnset, decide (0 < t.merged), t.runs.isSome]),
     (2, t.merged), (4, t.start.stamp), (4, r.fin.stamp), (2, (t.runs.map (·.first.toNat)).getD 0),
     (2, (t.runs.map (·.last.toNat)).getD 0)]),
   (0x18, c.pieces.toList.map fun v => (4, v)), (0x2C, (c.lengths.toList ++ [c.cullet]).map fun v => (8, v)),
   (0x5C, (c.flaws.toList ++ [c.edge, c.orphan, c.late, c.unplanned, c.flawLost]).map fun v => (4, v)),
   (0xA0, [(4, c.gapLines), (8, c.gapLength / 1000)]), (0xAC, [(4, c.stops), (4, c.stopSeconds)]),
   (0xB4, [(4, c.queueFull), (4, c.gateLate), (4, c.overlaps)]), (0xC0, [(4, c.refused), (4, c.abandoned)]),
   (0xC8, c.gapCauses.toList.map fun v => (4, v))]

theorem image_eq (r : ShiftReport) : r.image = layout 252 0 (rowParts r.rows) := by
  have habsent : zeros 4 = le 2 0 ++ le 2 0 := rfl
  cases hruns : r.tally.runs <;> simp [image, rows, rowParts, packFields, leAll, List.flatMap_map, hruns, habsent]

theorem image_shows (r : ShiftReport) :
    imageShows r.image 252 (r.rows.flatMap fun row => fieldsFrom row.1 row.2) := by
  rw [image_eq]
  refine imageShows_layout ?_ ?_
  · simp only [rows, rowParts, List.map_cons, List.map_nil, inLayoutOrder, packFields_same_size_length]
    simp [packFields_length]
  · simp only [rows, rowParts, List.map_cons, List.map_nil, packFields_same_size_length, List.forall_mem_cons]
    simp [packFields_length]

end ShiftReport

/-! ### The Fault Log -/

theorem FaultRecord.image_length (r : FaultRecord) : r.image.length = 28 := by
  simp [FaultRecord.image, layout, zeros_length]

end Sys2Proof.Machine
end

section
/-! Records placed in their logs by the Record Writer, refused or lost (R167, R169), and the bytes their writes cover; with them
O51. -/

namespace Sys2Proof.Machine

/-! ### The bytes that writes cover (R167) -/

/-- A write covers a byte of its span that it enables. -/
def Txn.covers (t : Txn) (a : Nat) : Prop :=
  t.addr ≤ a ∧ a < t.addr + t.enables.length ∧ t.enables.getD (a - t.addr) false = true

theorem getD_replicate_append (n m i : Nat) (b : Bool) :
    (List.replicate n b ++ List.replicate m (!b)).getD i false = true ↔
      if b then i < n else n ≤ i ∧ i < n + m := by
  rw [List.getD_eq_getElem?_getD]
  rcases lt_or_ge i n with hn | hn
  · rw [List.getElem?_append_left (by rwa [List.length_replicate]), List.getElem?_replicate_of_lt hn]
    cases b <;> simp [hn]
  · rw [List.getElem?_append_right (by rwa [List.length_replicate]), List.length_replicate, List.getElem?_replicate]
    split
    · have hm : i < n + m := by omega
      cases b <;> simp [hn, hm]
    · have hm : ¬ i < n + m := by omega
      cases b <;> simp [hn, hm]

theorem Txn.full_covers_iff (tag : TxnTag) (addr a : Nat) (data : List Byte) :
    (Txn.full tag addr data).covers a ↔ addr ≤ a ∧ a < addr + data.length := by
  have hall := getD_replicate_append data.length 0 (a - addr) true
  simp only [List.replicate_zero, List.append_nil, if_true] at hall
  simp only [Txn.covers, Txn.full, List.length_replicate, hall]
  omega

/-- A body leaves its last four bytes, the sequence word's, alone. -/
theorem Txn.body_covers_iff (tag : TxnTag) (addr a : Nat) (bytes : List Byte) :
    (Txn.body tag addr bytes).covers a ↔ addr ≤ a ∧ a < addr + bytes.length := by
  have hall := getD_replicate_append bytes.length 4 (a - addr) true
  simp only [Bool.not_true, if_true] at hall
  simp only [Txn.covers, Txn.body, List.length_append, List.length_replicate, hall]
  omega

theorem seqTxn_covers_iff (l : LogId) (gen addr a : Nat) (seq : Word32) :
    (seqTxn l gen addr seq).covers a ↔ addr + l.entrySize - 4 ≤ a ∧ a < addr + l.entrySize := by
  have hall := getD_replicate_append 4 4 (a - (addr + l.entrySize - 8)) false
  simp only [Bool.not_false, Bool.false_eq_true, if_false] at hall
  have hsize : 8 ≤ l.entrySize := by cases l <;> decide
  simp only [Txn.covers, seqTxn, List.length_append, List.length_replicate, hall]
  omega

/-- The writes of a body cover its bytes, whether cut in two or not. -/
theorem exists_bodyTxns_covers_iff (addr a : Nat) (bytes : List Byte) :
    (∃ t ∈ bodyTxns addr bytes, t.covers a) ↔ addr ≤ a ∧ a < addr + bytes.length := by
  unfold bodyTxns
  split
  · simp only [List.mem_singleton, exists_eq_left, Txn.body_covers_iff]
  · simp only [List.mem_cons, List.not_mem_nil, or_false, exists_eq_or_imp, exists_eq_left, Txn.full_covers_iff,
      Txn.body_covers_iff, List.length_take, List.length_drop]
    omega

/-- An entry's writes cover the entry. -/
theorem exists_entryTxns_covers_iff {l : LogId} {image : List Byte} (hsize : image.length + 4 = l.entrySize)
    (gen entry a : Nat) (seq : Word32) :
    (∃ t ∈ bodyTxns entry image ++ [seqTxn l gen entry seq], t.covers a) ↔ entry ≤ a ∧ a < entry + l.entrySize := by
  simp only [List.mem_append, or_and_right, exists_or, exists_bodyTxns_covers_iff, List.mem_singleton, exists_eq_left,
    seqTxn_covers_iff]
  omega

/-! ### Room in a log (R167, R169) -/

theorem LogState.full_eq_false {g : LogState} {f : LogFields} (hf : g.fields = some f)
    (hroom : (g.producer - g.consumer).toNat < f.entries) : g.full = false := by
  simp only [LogState.full, hf]
  exact decide_eq_false (Nat.not_le.mpr hroom)

theorem LogState.full_eq_true {g : LogState}
    (hfull : ∀ f, g.fields = some f → f.entries ≤ (g.producer - g.consumer).toNat) : g.full = true := by
  unfold LogState.full
  split
  · rfl
  · next f hf => exact decide_eq_true (hfull f hf)

/-! ### An entry placed (R167) -/

theorem bodyTxns_tag {addr : Nat} {bytes : List Byte} {t : Txn} (ht : t ∈ bodyTxns addr bytes) : t.tag = .entryBody := by
  unfold bodyTxns at ht
  split at ht
  · rw [List.mem_singleton.mp ht]; rfl
  · rcases List.mem_cons.mp ht with rfl | ht
    · rfl
    · rw [List.mem_singleton.mp ht]; rfl

section
variable {s : State} {l : LogId} {f : LogFields}

theorem State.placeEntry_eq (hf : s.writer.logs[l.idx].fields = some f) (image : List Byte) :
    let g := s.writer.logs[l.idx]
    let entry := f.base + g.producer.toNat % f.entries * l.entrySize
    s.placeEntry l image = (s.setLog l { g with producer := g.producer + 1, nextSeq := g.nextSeq + 1 }).placeWrites
      (bodyTxns entry image ++ [seqTxn l g.gen entry g.nextSeq]) := by
  unfold State.placeEntry
  dsimp only
  split
  · next hnone => exact absurd (hnone.symm.trans hf) nofun
  · next f' hsome =>
    obtain rfl : f' = f := Option.some.inj (hsome.symm.trans hf)
    rfl

/-- The log takes the record's number and position; its writes join those that stand queued and waiting, and no rewrite is
announced. -/
theorem State.placeEntry_placed (hf : s.writer.logs[l.idx].fields = some f) (image : List Byte) :
    let g := s.writer.logs[l.idx]
    let entry := f.base + g.producer.toNat % f.entries * l.entrySize
    let t := s.placeEntry l image
    t.writer.logs = s.writer.logs.set l.idx { g with producer := g.producer + 1, nextSeq := g.nextSeq + 1 } ∧
      t.writer.flawLost = s.writer.flawLost ∧ t.wires = s.wires ∧ t.epoch = s.epoch ∧
      t.path.internal ++ t.writer.waiting =
        s.path.internal ++ s.writer.waiting ++ (bodyTxns entry image ++ [seqTxn l g.gen entry g.nextSeq]) := by
  intro g entry t
  have hplace : t = _ := State.placeEntry_eq hf image
  have hqueue := State.placeWrites_requeued (bodyTxns entry image ++ [seqTxn l g.gen entry g.nextSeq])
    (s.setLog l { g with producer := g.producer + 1, nextSeq := g.nextSeq + 1 })
  rw [hplace]
  refine ⟨hqueue.keeps (·.writer.logs) fun _ _ _ _ _ _ => rfl, hqueue.keeps (·.writer.flawLost) fun _ _ _ _ _ _ => rfl,
    State.placeWrites_wires _ _ fun x hx i p => ?_, hqueue.keeps (·.epoch) fun _ _ _ _ _ _ => rfl,
    State.placeWrites_queued _ _⟩
  rcases List.mem_append.mp hx with hx | hx
  · rw [bodyTxns_tag hx]
    nofun
  · rw [List.mem_singleton.mp hx]
    nofun

end

/-! ### The commands (R169) -/

section
variable {s : State}

theorem exec_flawRecord_room {r : FlawRecord} {rest : List FlawRecord} (hr : s.inReset = false)
    (hw : s.wires.flawRecords = r :: rest) (hfull : s.writer.logs[LogId.flaw.idx].full = false) :
    exec .flawRecord s =
      .next (State.placeEntry { s with wires := { s.wires with flawRecords := rest } } .flaw r.image) :=
  congrArg Host.Outcome.next ((receivePlain_taken hr hw).trans (if_neg (Bool.eq_false_iff.mp hfull)))

theorem exec_flawRecord_full {r : FlawRecord} {rest : List FlawRecord} (hr : s.inReset = false)
    (hw : s.wires.flawRecords = r :: rest) (hfull : s.writer.logs[LogId.flaw.idx].full = true) :
    exec .flawRecord s = .next { s with
      writer := { s.writer with flawLost := min 4294967295 (s.writer.flawLost + 1) }
      wires := { s.wires with
        flawRecords := rest, increments := s.wires.increments ++ [(.writer, .flawLost)] } } :=
  congrArg Host.Outcome.next ((receivePlain_taken hr hw).trans (if_pos hfull))

theorem exec_plateOffer_room {r : PlateRecord} {rest : List (Tagged PlateRecord)} (hr : s.inReset = false)
    (hw : s.wires.plateOffers = { epoch := s.epoch, msg := r } :: rest)
    (hfull : s.writer.logs[LogId.plate.idx].full = false) :
    exec .plateOffer s =
      .next ((State.placeEntry { s with wires := { s.wires with plateOffers := rest } } .plate r.image).answerPlate
        .accepted) :=
  congrArg Host.Outcome.next ((receive_taken hr hw).trans (if_neg (Bool.eq_false_iff.mp hfull)))

theorem exec_plateOffer_full {r : PlateRecord} {rest : List (Tagged PlateRecord)} (hr : s.inReset = false)
    (hw : s.wires.plateOffers = { epoch := s.epoch, msg := r } :: rest)
    (hfull : s.writer.logs[LogId.plate.idx].full = true) :
    exec .plateOffer s =
      .next ((State.setRefused { s with wires := { s.wires with plateOffers := rest } } .plate true).answerPlate .full) :=
  congrArg Host.Outcome.next ((receive_taken hr hw).trans (if_pos hfull))

theorem exec_shiftReportOffer_room {r : ShiftReport} {rest : List ShiftReport} (hr : s.inReset = false)
    (hw : s.wires.shiftOffers = r :: rest) (hfull : s.writer.logs[LogId.shift.idx].full = false) :
    exec .shiftReportOffer s =
      .next ((State.placeEntry { s with wires := { s.wires with shiftOffers := rest } } .shift r.image).answerShift
        .accepted) :=
  congrArg Host.Outcome.next ((receivePlain_taken hr hw).trans (if_neg (Bool.eq_false_iff.mp hfull)))

theorem exec_shiftReportOffer_full {r : ShiftReport} {rest : List ShiftReport} (hr : s.inReset = false)
    (hw : s.wires.shiftOffers = r :: rest) (hfull : s.writer.logs[LogId.shift.idx].full = true) :
    exec .shiftReportOffer s =
      .next ((State.setRefused { s with wires := { s.wires with shiftOffers := rest } } .shift true).answerShift .full) :=
  congrArg Host.Outcome.next ((receivePlain_taken hr hw).trans (if_pos hfull))

end

/-- A flaw record's body is one write (R167). -/
theorem flawEntryTxns_eq (r : FlawRecord) (gen entry : Nat) (seq : Word32) :
    bodyTxns entry r.image ++ [seqTxn .flaw gen entry seq] =
      [{ tag := .entryBody, addr := entry, span := r.image.length + 4, write := true,
         enables := List.replicate r.image.length true ++ List.replicate 4 false, data := r.image ++ zeros 4 },
       { tag := .entrySeq .flaw gen, addr := entry + 56, span := 8, write := true,
         enables := List.replicate 4 false ++ List.replicate 4 true, data := zeros 4 ++ le 4 seq.toNat }] := by
  have hlen : r.image.length ≤ 124 := by rw [r.image_shows.1]; decide
  rw [bodyTxns, if_pos hlen]
  rfl

/-- Settles O51: a record placed is `State.placeEntry_placed`, the bytes its writes cover are
`exists_entryTxns_covers_iff`'s, and the images of the records are those of their rows of fields. -/
theorem recordsArePlacedInTheirLogs : Obligations.RecordsArePlacedInTheirLogs := by
  refine ⟨fun r rest s hr hw => ⟨fun f hf hroom => ?_, fun hfull =>
      exec_flawRecord_full hr hw (LogState.full_eq_true hfull)⟩,
    ⟨fun r rest s hr hw => ⟨fun f hf hroom => ?_, fun hfull => exec_plateOffer_full hr hw (LogState.full_eq_true hfull)⟩,
      fun r rest s hr hw =>
        ⟨fun f hf hroom => ?_, fun hfull => exec_shiftReportOffer_full hr hw (LogState.full_eq_true hfull)⟩⟩,
    ⟨fun r => r.image_shows.1, fun r htop => (PlateRecord.image_shows htop).1, fun r => r.image_shows.1,
      FaultRecord.image_length, fun l gen entry seq image hsize a => exists_entryTxns_covers_iff hsize gen entry a seq⟩,
    fun r => ?_, fun r htop => ?_, fun r => ?_⟩
  · obtain ⟨hlogs, hlost, hwires, -, hqueued⟩ :=
      State.placeEntry_placed (s := { s with wires := { s.wires with flawRecords := rest } }) (l := .flaw) hf r.image
    rw [flawEntryTxns_eq] at hqueued
    exact ⟨_, exec_flawRecord_room hr hw (LogState.full_eq_false hf hroom), hlogs, hlost, hwires, hqueued⟩
  · obtain ⟨hlogs, -, hwires, hepoch, hqueued⟩ :=
      State.placeEntry_placed (s := { s with wires := { s.wires with plateOffers := rest } }) (l := .plate) hf r.image
    refine ⟨_, exec_plateOffer_room hr hw (LogState.full_eq_false hf hroom), hlogs, ?_, hqueued⟩
    simp only [State.answerPlate, State.wire, State.tag, hwires, hepoch]
  · obtain ⟨hlogs, -, hwires, -, hqueued⟩ :=
      State.placeEntry_placed (s := { s with wires := { s.wires with shiftOffers := rest } }) (l := .shift) hf r.image
    refine ⟨_, exec_shiftReportOffer_room hr hw (LogState.full_eq_false hf hroom), hlogs, ?_, hqueued⟩
    simp only [State.answerShift, State.wire, hwires]
  · have hshows := r.image_shows
    simp only [FlawRecord.rows, BlobFlags.byte_eq, bitsOf_lanes] at hshows
    exact hshows
  · have hshows := PlateRecord.image_shows htop
    simp only [PlateRecord.rows, PlateRecord.fixedRows, bitsOf_four, Grade.idx_val, Reasons.bits_eq,
      PlateRecord.stampFields_eq] at hshows
    exact hshows
  · intro bit t c each
    refine ⟨(congrArg (imageShows r.image 252) ?_).mp r.image_shows, fun k v => ?_, rfl⟩
    · have heach (o n : Nat) (vs : List Nat) : each o n vs = fieldsFrom o (vs.map fun v => (n, v)) :=
        (fieldsFrom_same_size n vs o).symm
      simp only [heach, ShiftReport.rows, bitsOf_five, List.map_append, fieldsFrom_append, packFields_same_size_length,
        Vector.length_toList, List.flatMap_cons, List.flatMap_nil, List.append_nil, List.append_assoc]
      rfl
    · cases k <;> cases v <;> rfl

end Sys2Proof.Machine
end

section
/-! The calendar's advance: it stays within the ranges of R129 and counts the seconds of R174; with it O21. -/

namespace Sys2Proof.Machine

/-! ### The lengths of months and years -/

theorem one_le_monthLength (y m : Nat) : 1 ≤ monthLength y m := by
  unfold monthLength
  split
  · split <;> decide
  all_goals decide

theorem daysBefore_succ (y : Nat) {m : Nat} (hm : 1 ≤ m) : daysBefore y (m + 1) = daysBefore y m + monthLength y m := by
  cases m with
  | zero => cases hm
  | succ m => rfl

/-- A year has 366 days when it is divisible by 4, and else 365 (R129). -/
theorem daysBefore_december (y : Nat) : daysBefore y 12 + 31 = 365 + if y % 4 = 0 then 1 else 0 := by
  simp only [daysBefore, monthLength, leapYear, decide_eq_true_eq]
  split <;> rfl

namespace Calendar

variable {c : Calendar}

theorem valid_iff : c.valid = true ↔
    (2000 ≤ c.year ∧ c.year ≤ 2099) ∧ (1 ≤ c.month ∧ c.month ≤ 12) ∧ (1 ≤ c.day ∧ c.day ≤ monthLength c.year c.month) ∧
      c.weekday ≤ 6 ∧ c.hour ≤ 23 ∧ c.minute ≤ 59 ∧ c.second ≤ 59 := by
  simp only [valid, Bool.and_eq_true, decide_eq_true_eq, and_assoc]

/-! ### Midnight -/

/-- The days from 2000-01-01 to the date (R174). -/
def dayNumber (c : Calendar) : Nat :=
  365 * (c.year - 2000) + (c.year - 2000 + 3) / 4 + daysBefore c.year c.month + (c.day - 1)

theorem stamp_eq (c : Calendar) : c.stamp = ((c.dayNumber * 24 + c.hour) * 60 + c.minute) * 60 + c.second := rfl

/-- Midnight leaves the time of day, and the weekday goes round (R129). -/
theorem nextDay_time (c : Calendar) :
    c.nextDay.hour = c.hour ∧ c.nextDay.minute = c.minute ∧ c.nextDay.second = c.second ∧
      c.nextDay.weekday = if c.weekday = 6 then 0 else c.weekday + 1 := by
  unfold nextDay nextMonth nextYear
  dsimp only
  split
  · split <;> exact ⟨rfl, rfl, rfl, rfl⟩
  · exact ⟨rfl, rfl, rfl, rfl⟩

theorem nextDay_within_month (h : c.day ≠ monthLength c.year c.month) :
    c.nextDay = { c with weekday := if c.weekday = 6 then 0 else c.weekday + 1, day := c.day + 1 } := if_neg h

theorem nextDay_within_year (h : c.day = monthLength c.year c.month) (hm : c.month ≠ 12) :
    c.nextDay =
      { c with weekday := if c.weekday = 6 then 0 else c.weekday + 1, day := 1, month := c.month + 1 } :=
  (if_pos h).trans (if_neg hm)

theorem nextDay_of_december (h : c.day = monthLength c.year c.month) (hm : c.month = 12) :
    c.nextDay =
      { c with
        weekday := if c.weekday = 6 then 0 else c.weekday + 1, day := 1, month := 1
        year := if c.year = 2099 then 2000 else c.year + 1 } :=
  (if_pos h).trans (if_pos hm)

theorem nextDay_valid (h : c.valid = true) : c.nextDay.valid = true := by
  obtain ⟨hyear, hmonth, hday, hweekday, htime⟩ := valid_iff.mp h
  have hround : (if c.weekday = 6 then 0 else c.weekday + 1) ≤ 6 := by split <;> omega
  rw [valid_iff]
  by_cases hlast : c.day = monthLength c.year c.month
  · by_cases hdec : c.month = 12
    · rw [nextDay_of_december hlast hdec]
      refine ⟨?_, ⟨le_rfl, Nat.le_add_left 1 11⟩, ⟨le_rfl, one_le_monthLength _ _⟩, hround, htime⟩
      dsimp only
      split <;> omega
    · rw [nextDay_within_year hlast hdec]
      exact ⟨hyear, by dsimp only; omega, ⟨le_rfl, one_le_monthLength _ _⟩, hround, htime⟩
  · rw [nextDay_within_month hlast]
    exact ⟨hyear, hmonth, by dsimp only; omega, hround, htime⟩

/-- Every midnight but the one that ends 2099 counts a day (R129, R174). -/
theorem nextDay_dayNumber (h : c.valid = true) (hend : ¬ (c.year = 2099 ∧ c.month = 12 ∧ c.day = 31)) :
    c.nextDay.dayNumber = c.dayNumber + 1 := by
  obtain ⟨hyear, hmonth, hday, -⟩ := valid_iff.mp h
  by_cases hlast : c.day = monthLength c.year c.month
  · by_cases hdec : c.month = 12
    · have hday : c.day = 31 := by rw [hlast, hdec]; rfl
      have hdays := daysBefore_december c.year
      rw [nextDay_of_december hlast hdec, if_neg fun hy => hend ⟨hy, hdec, hday⟩]
      simp only [dayNumber, hdec, hday, show daysBefore (c.year + 1) 1 = 0 from rfl]
      split at hdays <;> omega
    · rw [nextDay_within_year hlast hdec]
      simp only [dayNumber, daysBefore_succ c.year hmonth.1]
      omega
  · rw [nextDay_within_month hlast]
    simp only [dayNumber]
    omega

/-! ### One second -/

/-- The advance, by the first unit that does not carry (R129). -/
theorem advance_eq (c : Calendar) : c.advance =
    if c.second ≠ 59 then { c with second := c.second + 1 }
    else if c.minute ≠ 59 then { c with second := 0, minute := c.minute + 1 }
    else if c.hour ≠ 23 then { c with second := 0, minute := 0, hour := c.hour + 1 }
    else nextDay { c with second := 0, minute := 0, hour := 0 } := by
  simp only [advance, nextMinute, nextHour, ite_not]

theorem advance_valid (h : c.valid = true) : c.advance.valid = true := by
  obtain ⟨hyear, hmonth, hday, hweekday, hhour, hminute, hsecond⟩ := valid_iff.mp h
  have hkept {hour minute second : Nat} (hh : hour ≤ 23) (hm : minute ≤ 59) (hs : second ≤ 59) :
      valid { c with hour := hour, minute := minute, second := second } = true :=
    valid_iff.mpr ⟨hyear, hmonth, hday, hweekday, hh, hm, hs⟩
  rw [advance_eq]
  split_ifs with hs hm hh
  · exact hkept hhour hminute (by omega)
  · exact hkept hhour (by omega) (by decide)
  · exact hkept (by omega) (by decide) (by decide)
  · exact nextDay_valid (hkept (by decide) (by decide) (by decide))

/-- The weekday steps at midnight alone (R129). -/
theorem advance_weekday (h : c.valid = true) : c.advance.weekday =
    if c.hour = 23 ∧ c.minute = 59 ∧ c.second = 59 then (c.weekday + 1) % 7 else c.weekday := by
  obtain ⟨-, -, -, hweekday, -⟩ := valid_iff.mp h
  rw [advance_eq]
  by_cases hmidnight : c.hour = 23 ∧ c.minute = 59 ∧ c.second = 59
  · obtain ⟨hh, hm, hs⟩ := hmidnight
    obtain ⟨-, -, -, hround⟩ := nextDay_time { c with second := 0, minute := 0, hour := 0 }
    simp only [hh, hm, hs, hround, ne_eq, not_true_eq_false, if_false, and_self, if_true]
    split <;> omega
  · rw [if_neg hmidnight]
    split_ifs with hs hm hh <;> first | rfl | exact absurd ⟨not_not.mp hh, not_not.mp hm, not_not.mp hs⟩ hmidnight

/-- The last second of 2099 is followed by the first of 2000 (R129). -/
theorem advance_end (h : c.valid = true)
    (hend : c.year = 2099 ∧ c.month = 12 ∧ c.day = 31 ∧ c.hour = 23 ∧ c.minute = 59 ∧ c.second = 59) :
    c.advance =
      { year := 2000, month := 1, day := 1, weekday := (c.weekday + 1) % 7, hour := 0, minute := 0, second := 0 } := by
  obtain ⟨hy, hmonth, hday, hh, hm, hs⟩ := hend
  have hround := advance_weekday h
  rw [if_pos ⟨hh, hm, hs⟩] at hround
  have hlast : c.day = monthLength c.year c.month := by rw [hday, hmonth]; rfl
  rw [advance_eq, if_neg (not_not.mpr hs), if_neg (not_not.mpr hm), if_neg (not_not.mpr hh),
    nextDay_of_december (c := { c with second := 0, minute := 0, hour := 0 }) hlast hmonth] at hround ⊢
  simp only [hy, if_true] at hround ⊢
  rw [hround]

/-- Every other second is counted (R129, R174). -/
theorem advance_stamp (h : c.valid = true)
    (hend : ¬ (c.year = 2099 ∧ c.month = 12 ∧ c.day = 31 ∧ c.hour = 23 ∧ c.minute = 59 ∧ c.second = 59)) :
    c.advance.stamp = c.stamp + 1 := by
  rw [advance_eq, stamp_eq c]
  split_ifs with hs hm hh
  · exact rfl
  · simp only [stamp_eq, dayNumber]; omega
  · simp only [stamp_eq, dayNumber]; omega
  · obtain ⟨hyear, hmonth, hday, hweekday, -⟩ := valid_iff.mp h
    obtain ⟨hhour, hminute, hsecond, -⟩ := nextDay_time { c with second := 0, minute := 0, hour := 0 }
    have hcount : (nextDay { c with second := 0, minute := 0, hour := 0 }).dayNumber = c.dayNumber + 1 :=
      nextDay_dayNumber (c := { c with second := 0, minute := 0, hour := 0 })
        (valid_iff.mpr ⟨hyear, hmonth, hday, hweekday, Nat.zero_le _, Nat.zero_le _, Nat.zero_le _⟩)
        fun ⟨hy, hmonth, hday⟩ => hend ⟨hy, hmonth, hday, not_not.mp hh, not_not.mp hm, not_not.mp hs⟩
    rw [stamp_eq, hcount, hhour, hminute, hsecond]
    dsimp only
    omega

end Calendar

/-- Settles O21: the advance by the unit that carries (`Calendar.advance_eq`), and a midnight as one more day
(`Calendar.nextDay_dayNumber`). -/
theorem calendarCountsEverySecond : Obligations.CalendarCountsEverySecond := by
  intro c h
  refine ⟨Calendar.advance_valid h, ?_, Calendar.advance_weekday h⟩
  split
  · exact Calendar.advance_end h ‹_›
  · exact Calendar.advance_stamp h ‹_›

end Sys2Proof.Machine
end

section
/-! The Shift Unit's calendar and the Record Writer's copy of it: which commands change them, and to what (R129, R132); with
it O6. -/

namespace Sys2Proof.Machine

/-- The calendar and the Record Writer's copy of it. -/
def State.calendars (s : State) : Calendar × Calendar := (s.shift.calendar, s.writer.calendar)

/-- The invariant rests on the two calendars alone. -/
theorem State.calendarsValid_of_eq {s t : State} (h : t.calendars = s.calendars) (hs : s.calendarsValid) :
    t.calendarsValid := by
  obtain ⟨hshift, hwriter⟩ := Prod.mk.inj h
  exact ⟨(congrArg Calendar.valid hshift).trans hs.1, (congrArg Calendar.valid hwriter).trans hs.2⟩

/-- The commands at which a calendar is set, advanced or copied: the resets, the time base, the Record Writer's tick and
SET_CLOCK (chapter 8). -/
def reachesCalendars : Instr → Bool
  | .powerOn | .warmReset | .resetEnd _ _ _ | .tb32kPeriod | .secondEnd | .writerSecondTick | .setClock => true
  | _ => false

/-- No other command changes a calendar. -/
theorem exec_keeps_calendars {c : Instr} {s t : State} (hc : reachesCalendars c = false) (h : exec c s = .next t) :
    t.calendars = s.calendars := by
  cases c <;> first
    | exact absurd hc Bool.noConfusion
    | (obtain rfl := Host.Outcome.next.inj h)
  case encoderEdge | analysisBegin | join | gradingBegin | commandTake | configure | commandCompletion | mPortSend
      | memoryAnswer =>
    exact live_keeps State.calendars fun _ => by simp [State.calendars]
  case unitTick | travelSecondTick | analysisCompletion | tallyIncrement | fault =>
    exact live_keeps State.calendars fun _ => by split <;> simp [State.calendars]
  case stopTimerExpiry =>
    exact live_keeps State.calendars fun _ => by (repeat' split) <;> simp [State.calendars]
  case laneLineTrigger | gapLine | settledLine | scan | mark | gather | heldFlaw | scanAnswer | joinedLine | plannerRise
      | flushEnd | strikeClaim | pieceRemoval | waitingLogMove | runEndCompletion | headOffer | strikeRise | claimWithdrawal
      | gatherAnswer | gradeAnswer | stamp | plateOffer | plateAccepted | plateFull | plateRoom =>
    exact receiveIf_keeps State.calendars (fun _ _ => rfl) fun _ _ => by simp [State.calendars]
  case strikeGrant =>
    exact receiveWith_keeps State.calendars (fun _ _ => rfl) (fun _ _ => by simp [State.calendars]) fun _ _ => by
      simp [State.calendars, staleGrant]
  case gradingHandoff =>
    exact receiveWith_keeps State.calendars (fun _ _ => rfl) (fun _ _ => by simp [State.calendars]) fun _ _ => by
      simp [State.calendars, staleHandoff]
  case landingWrite | gradingIncrements | shiftReportOffer | shiftAccepted | shiftFull | shiftRoom | flawRecord
      | releaseRequest | rewriteAnnouncement | seenWordWrite | verdictRequest | verdict =>
    exact receivePlainIf_keeps State.calendars (fun _ _ => rfl) fun _ _ => by simp [State.calendars]
  case startRun | stopRun | resetRun | closeShift | laneEnable | laneDisable | manualCut | badCommand =>
    rcases onCommand_cases _ _ s with hs | ⟨n, b, _, _, _, hs⟩
    · exact congrArg State.calendars hs
    · exact (congrArg State.calendars hs).trans (by simp [State.calendars])
  case busRead | busWrite => simp [State.calendars]
  case postWordWrite | sequenceWordWrite | takeViewRead | peekViewRead => split <;> simp [State.calendars]

/-! ### The commands that reach a calendar -/

theorem period_calendar (s : State) :
    (period s).shift.calendar = if s.shift.secondDue then s.shift.calendar.advance else s.shift.calendar := by
  rw [period_eq]
  exact congrArg Shift.calendar (s.shift.afterPeriod_frame s.inReset)

/-- A period advances the calendar or leaves it, and leaves the copy (R130). -/
theorem period_calendarsValid {s : State} (h : s.calendarsValid) : (period s).calendarsValid := by
  refine ⟨?_, ?_⟩
  · rw [period_calendar]
    split
    · exact Calendar.advance_valid h.1
    · exact h.1
  · simpa using h.2

/-- The Record Writer's tick copies the calendar (R171). -/
theorem writerSecond_calendarsValid {s : State} (h : s.calendarsValid) : (writerSecond s).calendarsValid := by
  have hshift : (writerSecond s).shift.calendar = s.shift.calendar := by simp
  have hwriter : (writerSecond s).writer.calendar = s.shift.calendar := by simp [writerSecond]
  exact ⟨(congrArg Calendar.valid hshift).trans h.1, (congrArg Calendar.valid hwriter).trans h.1⟩

/-- SET_CLOCK sets a calendar within the ranges, or none (R132). -/
theorem setClock_calendarsValid (bytes : List Byte) {s : State} (h : s.calendarsValid) :
    (setClock bytes s).2.calendarsValid := by
  unfold setClock Shift.setClock
  split
  · exact ⟨‹_›, h.2⟩
  · exact h

/-- The end of a reset copies the calendar to the Record Writer (R142). -/
theorem resetEnd_calendarsValid (sel : Fin 16) (a b : Bool) {s : State} (h : s.calendarsValid) :
    (resetEnd sel a b s).calendarsValid := by
  have hshift : (resetEnd sel a b s).shift.calendar = s.shift.calendar := by simp
  have hwriter : (resetEnd sel a b s).writer.calendar = s.shift.calendar := by simp [resetEnd]
  exact ⟨(congrArg Calendar.valid hshift).trans h.1, (congrArg Calendar.valid hwriter).trans h.1⟩

/-- Whatever a command does, the calendars that were within the ranges before it are so after it. -/
theorem exec_keeps_calendarsValid {c : Instr} {s t : State} (h : exec c s = .next t) (hs : s.calendarsValid) :
    t.calendarsValid := by
  cases hc : reachesCalendars c with
  | false => exact State.calendarsValid_of_eq (exec_keeps_calendars hc h) hs
  | true =>
    cases c <;> first
      | exact absurd hc Bool.noConfusion
      | obtain rfl := Host.Outcome.next.inj h
    case powerOn => exact ⟨rfl, rfl⟩
    case warmReset => exact ⟨hs.1, rfl⟩
    case resetEnd sel a b =>
      split
      · exact resetEnd_calendarsValid sel a b hs
      · exact hs
    case tb32kPeriod => exact period_calendarsValid hs
    case secondEnd =>
      split
      · exact period_calendarsValid hs
      · exact hs
    case writerSecondTick =>
      rcases live_cases _ s with h | ⟨_, h⟩ <;> rw [h]
      · exact hs
      · split
        · exact hs
        · exact writerSecond_calendarsValid hs
    case setClock =>
      rcases onCommand_cases (some .setClock) setClock s with h | ⟨n, bytes, _, _, _, h⟩ <;> rw [h]
      · exact hs
      · exact setClock_calendarsValid bytes hs

/-- Settles O6: a command advances the calendar (`Calendar.advance_valid`), sets it to one within the ranges, copies it, or
leaves both calendars as they were. -/
theorem calendarStaysInRange : Obligations.CalendarStaysInRange := by
  intro s t hs h
  unfold step at h
  split at h
  · obtain rfl := Host.Outcome.next.inj h
    exact hs
  · exact exec_keeps_calendarsValid h hs

end Sys2Proof.Machine
end

section
/-! The Shift Unit's commands: CLOSE_SHIFT, the increments it adds to the open tally, and the answers that move the hold slot
(R134 to R137, R140); with them O48, O49 and O50. -/

namespace Sys2Proof.Machine

/-! ### CLOSE_SHIFT -/

/-- A boundary with the hold slot EMPTY, whatever the clock-valid flag: the report, and the new tally under the next number
(R135). -/
theorem Shift.bounded_empty {t : Shift} (hold : t.hold = .empty) (slot : OpeningSlot) :
    t.bounded slot =
      ({ t with
          number := t.number + 1
          hold := .offered { tally := t.tally, fin := t.calendar }
          tally :=
            { shift := t.number + 1, start := t.calendar, slot := slot, clockSet := false, clockUnset := !t.valid,
              merged := 0, counters := TallyCounters.zero,
              runs := if t.runState = .running ∨ t.runState = .draining then some { first := t.run, last := t.run }
                else none } },
        [{ tally := t.tally, fin := t.calendar }]) := by
  simp only [Shift.bounded, hold, Shift.openTally, Shift.report, Shift.runsAtOpening, RunState.counting_iff]

theorem exec_closeShift {s : State} {n : Nat} {bytes : List Byte} (hr : s.inReset = false)
    (he : s.cmd.execution = some { slot := n, phase := .ready bytes }) (hk : byteAt bytes 0 = 9) :
    exec .closeShift s = .next ((s.withShift (s.shift.bounded .manual)).finishCommand n none) := by
  rw [← State.boundary_eq]
  exact congrArg Host.Outcome.next (onCommand_taken hr he (by simp [commandKind, hk]))

/-- Settles O48: CLOSE_SHIFT is the boundary of `Shift.bounded`, in the two cases of the hold slot. -/
theorem closeShiftIsABoundary : Obligations.CloseShiftIsABoundary := by
  intro n bytes s hr he hk
  have hframe := s.shift.bounded_frame .manual
  refine ⟨_, exec_closeShift hr he hk, rfl, (congrArg Shift.calendar hframe :), (congrArg Shift.sub hframe :),
    (congrArg Shift.run hframe :), ?_⟩
  split
  next hold =>
    have hb := Shift.bounded_empty hold .manual
    have hshift := congrArg Prod.fst hb
    have hreports := congrArg Prod.snd hb
    refine ⟨(congrArg Shift.hold hshift :), ?_, (congrArg Shift.number hshift :), (congrArg Shift.tally hshift :)⟩
    exact congrArg (fun r => { s.wires with shiftOffers := s.wires.shiftOffers ++ r }) hreports
  next hold =>
    have hb := Shift.bounded_of_taken hold .manual
    refine ⟨(congrArg Prod.fst hb :), ?_⟩
    refine (congrArg (fun r => { s.wires with shiftOffers := s.wires.shiftOffers ++ r }) (congrArg Prod.snd hb)).trans ?_
    exact congrArg (fun os => { s.wires with shiftOffers := os }) (List.append_nil _)

/-! ### Increments -/

/-- The state after an increment of one block, the oldest of that block, has been added to the open tally (R136). -/
theorem exec_tallyIncrement {s : State} {b : Sender} {i : Increment} {before after : List (Sender × Increment)}
    (hr : s.inReset = false) (hw : s.wires.increments = before ++ (b, i) :: after) (hold : ∀ m ∈ before, m.1 ≠ b) :
    exec (.tallyIncrement b) s = .next { s with
      shift := { s.shift with tally := { s.shift.tally with
        counters := s.shift.tally.counters.add s.shadowPitch i } }
      wires := { s.wires with increments := before ++ after } } := by
  have hfirst : takeFirst (fun m : Sender × Increment => decide (m.1 = b)) s.wires.increments =
      some ((b, i), before ++ after) := by
    rw [hw]
    exact takeFirst_append (p := fun m : Sender × Increment => decide (m.1 = b)) (decide_eq_true rfl) fun m hm =>
      decide_eq_false (hold m hm)
  refine congrArg Host.Outcome.next ((live_out hr).trans ?_)
  dsimp only
  rw [hfirst]
  rfl

/-- The length that a gap line's increment adds is the line pitch in the shadow (R136). -/
theorem State.shadowPitch_eq {s : State} {pitch : Nat} (h : s.cmd.shadow.map (·.travel.pitch) = some pitch) :
    s.shadowPitch = pitch := by
  obtain ⟨sh, hsh, hpitch⟩ := Option.map_eq_some_iff.mp h
  simp only [State.shadowPitch, hsh, hpitch]

/-! ### The hold slot -/

theorem takeShiftIf_taken {s : State} {a : LogAnswer} {rest : List LogAnswer} (hr : s.inReset = false)
    (hw : s.wires.shiftAnswers = a :: rest) :
    takeShiftIf a s = takeShiftAnswer a { s with wires := { s.wires with shiftAnswers := rest } } :=
  receivePlainIf_taken hr hw (decide_eq_true rfl)

/-- Settles O49: what an increment adds by its kind, and the hold slot by the answer and its state. -/
theorem incrementsAndReportAnswers : Obligations.IncrementsAndReportAnswers := by
  refine ⟨?_, fun a rest s hr => ?_⟩
  · intro b i before after s pitch hr hw hold hpitch c up counters
    have hcounters : c.add s.shadowPitch i = counters := by
      cases i with
      | gapLine g =>
        have hp : s.shadowPitch = pitch := State.shadowPitch_eq (hpitch.resolve_right fun h => h g rfl)
        rw [hp]
        rfl
      | _ => rfl
    rw [exec_tallyIncrement hr hw hold, ← hcounters]
  · have hexec : exec (match a with | .accepted => .shiftAccepted | .full => .shiftFull | .room => .shiftRoom) s =
        .next (takeShiftIf a s) := by cases a <;> rfl
    have hkept : ∀ h, s.shift.hold = h → { s.shift with hold := h } = s.shift := by rintro _ rfl; rfl
    intro hw
    refine hexec.trans ?_
    rw [takeShiftIf_taken hr hw]
    cases hh : s.shift.hold with
    | empty => cases a <;> simp only [takeShiftAnswer, hh, hkept _ hh, List.append_nil]
    | offered r => cases a <;> simp only [takeShiftAnswer, hh, hkept _ hh, List.append_nil, State.setShift]
    | held r => cases a <;> simp only [takeShiftAnswer, hh, hkept _ hh, List.append_nil, State.offerShift, State.wire]

/-- Settles O50: the increments are taken whole, and what they add (`TallyCounters.addGrading`) and the stamp (`Shift.stamp`)
are the statement's by definition. -/
theorem gradingIncrementsAreStamped : Obligations.GradingIncrementsAreStamped := by
  intro m rest s hr hw c g
  exact congrArg Host.Outcome.next (receivePlain_taken hr hw)

end Sys2Proof.Machine
end

section
/-! The command ring: a command taken and completed, and the refusals by run state and by kind (R160, R161, R163 to R165,
R175); with it O53. -/

namespace Sys2Proof.Machine

/-! ### COMMAND_TAKE and COMMAND_COMPLETION -/

theorem State.placeRead_writer (s : State) (t : Txn) : (s.placeRead t).writer = s.writer := by
  unfold State.placeRead
  split <;> rfl

/-- The state in which the next posted command is in execution, its slot to be read (R160). -/
def State.taking (s : State) : State :=
  s.setCmd { s.cmd with
    taken := s.cmd.taken + 1
    execution := some { slot := s.cmd.taken.toNat % Config.commandSlots, phase := .readingSlot } }

theorem exec_commandTake {s : State} (hr : s.inReset = false) (he : s.cmd.execution = none)
    (hposted : s.cmd.taken ≠ s.cmd.post) :
    exec .commandTake s = .next (s.taking.placeRead
      (Txn.fetch .slotRead (s.path.anchorBase + slotsAt + 64 * (s.cmd.taken.toNat % Config.commandSlots)) 64)) := by
  refine congrArg Host.Outcome.next ((live_out hr).trans ?_)
  simp only [commandTake, he, if_neg hposted]
  rfl

/-- With a command in execution, or none posted, nothing is taken (R160). -/
theorem exec_commandTake_idle {s : State} (hr : s.inReset = false)
    (h : s.cmd.execution ≠ none ∨ s.cmd.taken = s.cmd.post) : exec .commandTake s = .next s := by
  refine congrArg Host.Outcome.next ((live_out hr).trans ?_)
  unfold commandTake
  split
  · rfl
  next he => exact if_pos (h.resolve_left (not_not.mpr he))

/-- The status beat of a slot and the beat of the completion word, in this order (R161, R175). -/
def completionWrites (anchor n : Nat) (r : Option Reason) (v : Word32) : List Txn :=
  [Txn.full .slotStatus (anchor + slotsAt + 64 * n + 0x38) (statusBeat r v),
    Txn.full (.completionWord v) (anchor + completionAt) (completionBeat v)]

theorem exec_commandCompletion {s : State} {n : Nat} {r : Option Reason} (hr : s.inReset = false)
    (he : s.cmd.execution = some { slot := n, phase := .finished r }) :
    exec .commandCompletion s = .next
      ((s.setCmd { s.cmd with completion := s.cmd.completion + 1, execution := none }).placeWrites
        (completionWrites s.path.anchorBase n r (s.cmd.completion + 1))) := by
  refine congrArg Host.Outcome.next ((live_out hr).trans ?_)
  simp only [commandCompletion, he]
  rfl

/-! ### Refusals -/

/-- A command refused with a reason that leaves the state is finished with it, and nothing else changes (R160). -/
theorem onCommand_refused {k : Option CommandKind} {f : List Byte → State → Option Reason × State} {s : State} {n : Nat}
    {bytes : List Byte} {r : Reason} (hr : s.inReset = false)
    (he : s.cmd.execution = some { slot := n, phase := .ready bytes }) (hk : commandKind bytes = k)
    (hf : f bytes s = (some r, s)) : onCommand k f s = s.finishCommand n (some r) := by
  rw [onCommand_taken hr he hk, hf]

theorem commandKind_none {bytes : List Byte} (h : byteAt bytes 0 = 0 ∨ 9 < byteAt bytes 0) : commandKind bytes = none := by
  unfold commandKind
  split <;> first | rfl | omega

theorem configure_refused {s : State} {n : Nat} {bytes : List Byte}
    (he : s.cmd.execution = some { slot := n, phase := .ready bytes }) (hk : byteAt bytes 0 = 1)
    (hrun : s.cmd.runState = .running ∨ s.cmd.runState = .draining) :
    configure s = (s.setCmd { s.cmd with lastReason := some .runActive }).finishCommand n (some .runActive) := by
  have hkind : commandKind bytes = some .configure := by simp [commandKind, hk]
  unfold configure
  rw [he]
  exact (if_pos hkind).trans (if_pos ((RunState.counting_iff _).mpr hrun))

theorem startRun_runActive {s : State} (h : s.cmd.runState = .running ∨ s.cmd.runState = .draining) :
    startRun s = (some .runActive, s) := by
  rcases h with h | h <;> simp only [startRun, h]

theorem startRun_notConfigured {s : State} (h : s.cmd.runState = .transparent) :
    startRun s = (some .notConfigured, s) := by
  simp only [startRun, h]

theorem stopRun_notRunning {s : State} (h : s.cmd.runState ≠ .running) : stopRun s = (some .notRunning, s) := by
  unfold stopRun
  split
  · exact absurd ‹_› h
  all_goals rfl

theorem resetRun_notConfigured {s : State} (h : s.cmd.runState = .transparent) :
    resetRun s = (some .notConfigured, s) := by
  simp only [resetRun, h]

theorem setClock_badTime {s : State} {bytes : List Byte} (h : (slotCalendar bytes).valid = false) :
    setClock bytes s = (some .badTime, s) := by
  simp only [setClock, Shift.setClock, h]
  rfl

theorem onLanes_notConfigured {s : State} (f : Lane → LaneStep) (bytes : List Byte) (h : s.cmd.runState = .transparent) :
    onLanes f bytes s = (some .notConfigured, s) := by
  simp only [onLanes, h]

theorem manualCut_notRunning {s : State} (bytes : List Byte) (h : s.cmd.runState ≠ .running) :
    manualCut bytes s = (some .notRunning, s) := by
  unfold manualCut
  split
  · rfl
  next sh _ =>
    have hstep : s.planStep.manualCut (s.planContext sh) (slotPosition bytes) = (some .notRunning, s.planStep) := by
      unfold PlanStep.manualCut
      simp [State.planContext, h]
    simp only [hstep, State.finishPlan_planStep]

/-- Settles O53: the take and the completion by what each places in the internal queue, and each refusal as a command that
leaves the state (`onCommand_refused`). -/
theorem commandRing : Obligations.CommandRing := by
  refine ⟨⟨fun s hr he hposted => ?_, fun s hr h => exec_commandTake_idle hr h, fun n r s hr he => ?_⟩,
    fun n bytes s hr he => ?_⟩
  · refine ⟨_, exec_commandTake hr he hposted, ?_⟩
    have hwires := State.placeRead_wires s.taking
      (Txn.fetch .slotRead (s.path.anchorBase + slotsAt + 64 * (s.cmd.taken.toNat % Config.commandSlots)) 64)
      fun _ _ => TxnTag.noConfusion
    simp only [State.placeRead_frame, State.placeRead_writer, State.placeRead_queued, hwires]
    exact ⟨rfl, rfl, rfl, rfl, rfl, rfl⟩
  · intro v
    refine ⟨_, exec_commandCompletion hr he, State.placeWrites_cmd _ _, ?_, ?_⟩
    · refine State.placeWrites_wires _ _ fun t ht i p => ?_
      rcases List.mem_pair.mp ht with rfl | rfl <;> exact TxnTag.noConfusion
    · rw [State.placeWrites_queued]
      cases r <;> rfl
  · intro kind refused
    have hdone {k : Option CommandKind} {f : List Byte → State → Option Reason × State} {r : Reason}
        (hk : commandKind bytes = k) (hf : f bytes s = (some r, s)) :
        Host.Outcome.next (onCommand k f s) = (.next (refused r) : Host.Outcome State Fault Refusal) :=
      congrArg Host.Outcome.next (onCommand_refused hr he hk hf)
    have hkind {n : Nat} (hk : kind = n) : byteAt bytes 0 = n := hk
    refine ⟨fun hk => hdone (commandKind_none hk) rfl, fun hk hst => ?_,
      fun hk hst => hdone (by simp [commandKind, hkind hk]) (startRun_runActive hst),
      fun hk hst => hdone (by simp [commandKind, hkind hk]) (startRun_notConfigured hst),
      fun hk hst => hdone (by simp [commandKind, hkind hk]) (stopRun_notRunning hst),
      fun hk hst => hdone (by simp [commandKind, hkind hk]) (resetRun_notConfigured hst),
      fun hk hcal => hdone (by simp [commandKind, hkind hk]) (setClock_badTime hcal),
      fun hk hst => hdone (by simp [commandKind, hkind hk]) (onLanes_notConfigured _ _ hst),
      fun hk hst => hdone (by simp [commandKind, hkind hk]) (onLanes_notConfigured _ _ hst),
      fun hk hst => hdone (by simp [commandKind, hkind hk]) (manualCut_notRunning _ hst)⟩
    exact congrArg Host.Outcome.next ((live_out hr).trans (configure_refused he hk hst))

end Sys2Proof.Machine
end

section
/-! Entries that leave the pass-through queue without the M-port, and the responses that return with them (R144, R148,
R149). -/

namespace Sys2Proof.Machine

/-! ### The entries that leave -/

/-- The items of a list at the places that pass a test, in their order. -/
def pick {α : Type} (p : Nat → Bool) (l : List α) : List α := ((List.range l.length).filter p).filterMap fun i => l[i]?

theorem pick_cons {α : Type} (p : Nat → Bool) (a : α) (l : List α) :
    pick p (a :: l) = (if p 0 then [a] else []) ++ pick (fun i => p (i + 1)) l := by
  have hrest : ((List.range l.length).map Nat.succ).filter p =
      ((List.range l.length).filter fun i => p (i + 1)).map Nat.succ := List.filter_map
  unfold pick
  rw [List.length_cons, List.range_succ_eq_map, List.filter_cons, hrest]
  split
  · rw [List.filterMap_cons, List.getElem?_cons_zero, List.filterMap_map]; rfl
  · rw [List.filterMap_map]; rfl

theorem mem_pick {α : Type} {p : Nat → Bool} {l : List α} {a : α} :
    a ∈ pick p l ↔ ∃ i, p i = true ∧ l[i]? = some a := by
  simp only [pick, List.mem_filterMap, List.mem_filter, List.mem_range]
  constructor
  · rintro ⟨i, ⟨_, hp⟩, ha⟩
    exact ⟨i, hp, ha⟩
  · rintro ⟨i, hp, ha⟩
    exact ⟨i, ⟨(List.getElem?_eq_some_iff.mp ha).1, hp⟩, ha⟩

theorem leavesAlone_zero (e : PassEntry) (q : List PassEntry) : leavesAlone (e :: q) 0 = e.isLocal := by
  simp [leavesAlone]

theorem leavesAlone_succ (e : PassEntry) (q : List PassEntry) (i : Nat) : leavesAlone (e :: q) (i + 1) =
    (leavesAlone q i && q[i]?.all fun x => e.isLocal || decide (e.req.source ≠ x.req.source)) := by
  unfold leavesAlone
  rw [List.getElem?_cons_succ, List.take_succ_cons]
  cases q[i]? with
  | none => rfl
  | some x =>
    dsimp only
    rw [List.all_cons, Bool.and_comm, Option.all_some]
    by_cases h : e.req.source = x.req.source <;> simp [h]

/-- Whether the entry at place i leaves alone a queue that stands behind entries of the sources `older` (R144). -/
def leavesPast (older : List SourceId) (q : List PassEntry) (i : Nat) : Bool :=
  leavesAlone q i && q[i]?.all fun e => !older.contains e.req.source

theorem leavesPast_nil (q : List PassEntry) : leavesPast [] q = leavesAlone q := by
  funext i
  cases h : q[i]? <;> simp [leavesPast, leavesAlone, h]

theorem leavesPast_zero (older : List SourceId) (e : PassEntry) (q : List PassEntry) :
    leavesPast older (e :: q) 0 = (e.isLocal && !older.contains e.req.source) := by
  simp [leavesPast, leavesAlone_zero]

/-- An entry that stays joins those that stand before the rest. -/
theorem leavesPast_succ (older : List SourceId) (e : PassEntry) (q : List PassEntry) (i : Nat) :
    leavesPast older (e :: q) (i + 1) =
      leavesPast (if e.isLocal && !older.contains e.req.source then older else e.req.source :: older) q i := by
  unfold leavesPast
  rw [leavesAlone_succ, List.getElem?_cons_succ, Bool.and_assoc]
  congr 1
  cases q[i]? with
  | none => rfl
  | some x =>
    simp only [Option.all_some]
    by_cases hlocal : e.isLocal = true
    · by_cases holder : e.req.source ∈ older
      · by_cases hx : x.req.source = e.req.source <;> simp [hlocal, holder, hx]
      · simp [hlocal, holder]
    · simp [hlocal, eq_comm]

/-- The entries that leave and those that stay, by the place of each in the queue (R144). -/
theorem localLeavers_eq (older : List SourceId) (q : List PassEntry) :
    localLeavers older q = (pick (leavesPast older q) q, pick (fun i => !leavesPast older q i) q) := by
  induction q generalizing older with
  | nil => rfl
  | cons e q ih =>
    simp only [pick_cons, leavesPast_zero, leavesPast_succ, localLeavers, ih]
    cases e.isLocal && !older.contains e.req.source <;> rfl

/-! ### The responses -/

/-- The response to an entry that leaves without the M-port (R144, R148, R149). -/
def PassEntry.localResponse (e : PassEntry) (source : SourceId) : Response :=
  { source := source, done := decide (e.mark = .localZeros), data := e.zeroData }

/-- The place of a response after some entries have left. -/
def ResponseSlot.after (es : List PassEntry) (x : ResponseSlot) : ResponseSlot :=
  es.foldl (fun x e => if x.id = e.id then { x with response := some (e.localResponse x.source) } else x) x

theorem Path.answers_eq (es : List PassEntry) (p : Path) :
    es.foldl (fun p e => p.answer e.id (decide (e.mark = .localZeros)) e.zeroData) p =
      { p with slots := p.slots.map (ResponseSlot.after es) } := by
  induction es generalizing p with
  | nil =>
    show p = { p with slots := p.slots.map id }
    rw [List.map_id]
  | cons e es ih =>
    rw [List.foldl_cons, ih]
    simp [Path.answer, ResponseSlot.after, PassEntry.localResponse, Function.comp_def]

theorem Path.settle_eq (p : Path) :
    let r := returnable [] (p.slots.map (ResponseSlot.after (localLeavers [] p.queue).1))
    p.settle = { p with queue := (localLeavers [] p.queue).2, slots := r.2, returned := p.returned ++ r.1 } := by
  unfold Path.settle
  dsimp only
  rw [Path.answers_eq]
  rfl

namespace ResponseSlot

variable {es : List PassEntry} {x : ResponseSlot}

theorem after_cons (e : PassEntry) : x.after (e :: es) =
    ResponseSlot.after es (if x.id = e.id then { x with response := some (e.localResponse x.source) } else x) := rfl

theorem after_source : (x.after es).source = x.source := by
  induction es generalizing x with
  | nil => rfl
  | cons e es ih => rw [after_cons, ih]; split <;> rfl

theorem after_response_ne (h : x.response ≠ none) : (x.after es).response ≠ none := by
  induction es generalizing x with
  | nil => exact h
  | cons e es ih =>
    rw [after_cons]
    refine ih ?_
    split
    · exact Option.some_ne_none _
    · exact h

theorem after_other (h : ∀ e ∈ es, e.id ≠ x.id) : x.after es = x := by
  induction es with
  | nil => rfl
  | cons e es ih =>
    obtain ⟨he, hes⟩ := List.forall_mem_cons.mp h
    rw [after_cons, if_neg he.symm, ih hes]

theorem after_answered {e : PassEntry} (he : e ∈ es) (hid : x.id = e.id) (huniq : ∀ y ∈ es, y.id = e.id → y = e) :
    x.after es = { x with response := some (e.localResponse x.source) } := by
  induction es generalizing x with
  | nil => cases he
  | cons y es ih =>
    obtain ⟨hy, hes⟩ := List.forall_mem_cons.mp huniq
    have hnext (z : ResponseSlot) (hz : z.id = e.id) (hmem : e ∈ es) := ih (x := z) hmem hz hes
    rw [after_cons]
    by_cases hmem : e ∈ es
    · split <;> exact hnext _ hid hmem
    · obtain rfl : y = e := ((List.mem_cons.mp he).resolve_right hmem).symm
      rw [if_pos hid]
      exact after_other fun z hz hzid => hmem (hes z hz (hzid.trans hid) ▸ hz)

end ResponseSlot

/-! ### The responses that return -/

section
variable {blocked : List SourceId} {x : ResponseSlot} (xs : List ResponseSlot)

theorem returnable_blocked (h : x.source ∈ blocked) :
    returnable blocked (x :: xs) = ((returnable blocked xs).1, x :: (returnable blocked xs).2) := by
  simp only [returnable, List.contains_iff_mem, h, if_true]

theorem returnable_answered (h : x.source ∉ blocked) {a : Response} (hx : x.response = some a) :
    returnable blocked (x :: xs) = (a :: (returnable blocked xs).1, (returnable blocked xs).2) := by
  simp only [returnable, List.contains_iff_mem, h, if_false, hx]

theorem returnable_waiting (h : x.source ∉ blocked) (hx : x.response = none) :
    returnable blocked (x :: xs) =
      ((returnable (x.source :: blocked) xs).1, x :: (returnable (x.source :: blocked) xs).2) := by
  simp only [returnable, List.contains_iff_mem, h, if_false, hx]

end

/-- A response returns when every older request of its source has been answered (R144). -/
theorem mem_returnable {before after : List ResponseSlot} {y : ResponseSlot} {r : Response} (hy : y.response = some r) :
    ∀ {blocked : List SourceId}, y.source ∉ blocked → (∀ x ∈ before, x.source = y.source → x.response ≠ none) →
      r ∈ (returnable blocked (before ++ y :: after)).1 := by
  induction before with
  | nil =>
    intro blocked hb _
    rw [List.nil_append, returnable_answered _ hb hy]
    exact List.mem_cons_self
  | cons x before ih =>
    intro blocked hb h
    obtain ⟨hx, hrest⟩ := List.forall_mem_cons.mp h
    rw [List.cons_append]
    by_cases hxb : x.source ∈ blocked
    · rw [returnable_blocked _ hxb]
      exact ih hb hrest
    · cases hr : x.response with
      | some a =>
        rw [returnable_answered _ hxb hr]
        exact List.mem_cons_of_mem _ (ih hb hrest)
      | none =>
        rw [returnable_waiting _ hxb hr]
        refine ih (fun hmem => ?_) hrest
        rcases List.mem_cons.mp hmem with heq | hmem
        · exact hx heq.symm hr
        · exact hb hmem

/-- A response waits behind an older request of its source not yet answered (R144). -/
theorem mem_returnable_kept {before after : List ResponseSlot} {y : ResponseSlot} :
    ∀ {blocked : List SourceId}, (y.source ∈ blocked ∨ ∃ x ∈ before, x.source = y.source ∧ x.response = none) →
      y ∈ (returnable blocked (before ++ y :: after)).2 := by
  induction before with
  | nil =>
    intro blocked h
    rw [List.nil_append, returnable_blocked _ (h.resolve_right fun ⟨_, hx, _⟩ => absurd hx List.not_mem_nil)]
    exact List.mem_cons_self
  | cons x before ih =>
    intro blocked h
    have hlater (hx : ¬ (x.source = y.source ∧ x.response = none)) :
        y.source ∈ blocked ∨ ∃ z ∈ before, z.source = y.source ∧ z.response = none := by
      refine h.imp_right fun ⟨z, hz, hnone⟩ => ?_
      rcases List.mem_cons.mp hz with rfl | hz
      · exact absurd hnone hx
      · exact ⟨z, hz, hnone⟩
    rw [List.cons_append]
    by_cases hxb : x.source ∈ blocked
    · rw [returnable_blocked _ hxb]
      refine List.mem_cons_of_mem _ (ih ?_)
      by_cases hx : x.source = y.source
      · exact .inl (hx ▸ hxb)
      · exact hlater fun h => hx h.1
    · cases hr : x.response with
      | some a =>
        rw [returnable_answered _ hxb hr]
        exact ih (hlater fun h => nomatch hr.symm.trans h.2)
      | none =>
        rw [returnable_waiting _ hxb hr]
        refine List.mem_cons_of_mem _ (ih ?_)
        by_cases hx : x.source = y.source
        · exact .inl (hx ▸ List.mem_cons_self)
        · exact (hlater fun h => hx h.1).imp_left (List.mem_cons_of_mem _)

/-! ### A queue settled -/

theorem Path.settle_settledInto (p : Path) : p.settledInto p.settle := by
  have hleave := localLeavers_eq [] p.queue
  rw [leavesPast_nil] at hleave
  rw [Path.settle_eq, hleave]
  refine ⟨rfl, ⟨_, rfl⟩, fun i e before after hi halone huniq hslots => ?_⟩
  have hmem : e ∈ pick (leavesAlone p.queue) p.queue := mem_pick.mpr ⟨i, halone, hi⟩
  have hin : ∀ y ∈ pick (leavesAlone p.queue) p.queue, y ∈ p.queue := fun y hy =>
    let ⟨_, _, hj⟩ := mem_pick.mp hy
    List.mem_of_getElem? hj
  have hanswered : ResponseSlot.after (pick (leavesAlone p.queue) p.queue)
      { id := e.id, source := e.req.source, response := none } =
        { id := e.id, source := e.req.source, response := some (e.localResponse e.req.source) } :=
    ResponseSlot.after_answered hmem rfl fun y hy hid => huniq y (hin y hy) hid
  intro r
  have hr : r = e.localResponse e.req.source := by
    simp only [r, PassEntry.localResponse, PassEntry.zeroData]
    cases e.kind <;> rfl
  rw [hslots, List.map_append, List.map_cons, hanswered, hr]
  refine ⟨fun hdone => List.mem_append_right _ (mem_returnable rfl List.not_mem_nil fun x hx hsource => ?_),
    fun ⟨x, hx, hsource, hnone, hwaits⟩ => mem_returnable_kept (.inr ⟨x, ?_, hsource, hnone⟩)⟩
  · obtain ⟨z, hz, rfl⟩ := List.mem_map.mp hx
    exact ResponseSlot.after_response_ne (hdone z hz (ResponseSlot.after_source.symm.trans hsource))
  · exact List.mem_map.mpr ⟨x, hx, ResponseSlot.after_other fun y hy => hwaits y (hin y hy)⟩

end Sys2Proof.Machine
end

section
/-! The bytes of a word, and ATTN re-evaluated (R161, R172). -/

namespace Sys2Proof.Machine

/-! ### Bytes of a word -/

theorem fromLe_lt (bytes : List Byte) : fromLe bytes < 256 ^ bytes.length := by
  induction bytes with
  | nil => decide
  | cons b bytes ih =>
    have hb := b.isLt
    rw [fromLe, List.length_cons, Nat.pow_succ]
    omega

theorem le_fromLe (bytes : List Byte) : le bytes.length (fromLe bytes) = bytes := by
  induction bytes with
  | nil => rfl
  | cons b bytes ih =>
    have hb := b.isLt
    have hbyte : BitVec.ofNat 8 (b.toNat + 256 * fromLe bytes) = b := BitVec.eq_of_toNat_eq (by
      rw [BitVec.toNat_ofNat]
      omega)
    rw [List.length_cons, fromLe, le, hbyte, Nat.add_mul_div_left _ _ (by decide), Nat.div_eq_of_lt hb, Nat.zero_add, ih]

/-- A word spelled by four bytes shows those bytes. -/
theorem le_ofNat_fromLe {bytes : List Byte} (h : bytes.length = 4) :
    le 4 (BitVec.ofNat 32 (fromLe bytes)).toNat = bytes := by
  have hlt : fromLe bytes < 2 ^ 32 := lt_of_lt_of_eq (h ▸ fromLe_lt bytes) (by decide)
  rw [BitVec.toNat_ofNat, Nat.mod_eq_of_lt hlt, ← h, le_fromLe]

theorem patch_length (image : List Byte) (o : Nat) (es : List Bool) (ds : List Byte) :
    (patch image o es ds).length = image.length := by
  induction es generalizing image o ds with
  | nil => cases ds <;> rfl
  | cons e es ih =>
    cases ds with
    | nil => rfl
    | cons d ds =>
      rw [patch, ih]
      split
      · exact List.length_set
      · rfl

/-- A byte of a patched image: the write's where it is enabled, else as it was. -/
theorem patch_getElem? {es : List Bool} {ds : List Byte} (hlen : es.length = ds.length) {image : List Byte} {o i : Nat}
    (hi : i < image.length) :
    (patch image o es ds)[i]? = if o ≤ i ∧ es.getD (i - o) false = true then ds[i - o]? else image[i]? := by
  induction es generalizing image o ds with
  | nil =>
    rw [if_neg (by simp)]
    cases ds <;> rfl
  | cons e es ih =>
    cases ds with
    | nil => cases hlen
    | cons d ds =>
      have hset : i < (if e then image.set o d else image).length := by split <;> simpa using hi
      rw [patch, ih (Nat.succ.inj hlen) hset]
      rcases Nat.lt_trichotomy i o with hlt | rfl | hgt
      · rw [if_neg fun h : o + 1 ≤ i ∧ _ => absurd h.1 (by omega), if_neg fun h : o ≤ i ∧ _ => absurd h.1 (by omega)]
        split
        · exact List.getElem?_set_ne hlt.ne'
        · rfl
      · rw [if_neg fun h : i + 1 ≤ i ∧ _ => absurd h.1 (by omega), Nat.sub_self]
        cases e with
        | true => simp [hi]
        | false => simp
      · obtain ⟨k, rfl⟩ : ∃ k, i = o + 1 + k := ⟨i - (o + 1), by omega⟩
        have hk : o + 1 + k - o = k + 1 := by omega
        have hother : (if e then image.set o d else image)[o + 1 + k]? = image[o + 1 + k]? := by
          split
          · exact List.getElem?_set_ne hgt.ne
          · rfl
        rw [hother, hk, Nat.add_sub_cancel_left, List.getD_cons_succ, List.getElem?_cons_succ]
        simp only [show o + 1 ≤ o + 1 + k by omega, show o ≤ o + 1 + k by omega]

/-! ### ATTN -/

theorem exists_logId {p : LogId → Prop} : (∃ l ∈ allLogs, p l) ↔ ∃ l, p l :=
  ⟨fun ⟨l, _, h⟩ => ⟨l, h⟩, fun ⟨l, h⟩ => ⟨l, by cases l <;> decide, h⟩⟩

theorem LogState.notifies_iff (g : LogState) :
    g.notifies = true ↔ ∃ f, g.fields = some f ∧ f.notify ≤ (g.written - g.consumer).toNat := by
  unfold LogState.notifies LogState.writtenCount
  cases g.fields <;> simp

theorem LogState.pendingFault_iff (g : LogState) :
    g.pendingFault = true ↔ g.fields ≠ none ∧ g.written ≠ g.consumer := by
  have hcount : 0 < (g.written - g.consumer).toNat ↔ g.written ≠ g.consumer := by bv_omega
  simp only [LogState.pendingFault, LogState.writtenCount, Bool.and_eq_true, decide_eq_true_eq, hcount,
    Option.isSome_iff_ne_none]

/-- ATTN is right exactly when it is as its condition has it (R172). -/
theorem State.attnRight_iff (s : State) : s.attnRight ↔ s.writer.attn = attnDue s.writer s.cmd.seen := by
  rw [Bool.eq_iff_iff]
  simp only [State.attnRight, attnDue, Bool.or_eq_true, List.any_eq_true, decide_eq_true_eq, LogState.notifies_iff,
    LogState.pendingFault_iff, exists_logId, or_assoc]

theorem State.evalAttn_attnRight (s : State) : s.evalAttn.attnRight := s.evalAttn.attnRight_iff.mpr rfl

end Sys2Proof.Machine
end

section
/-! The Command Unit's verdicts, what the Path Unit does at a verdict and at the announcement of a rewrite, and the seen word
(R131, R144, R149, R151, R156, R161, R166, R172); with them O59. -/

namespace Sys2Proof.Machine

/-! ### The verdict of the Command Unit (R151, R166) -/

theorem exec_verdictRequest {s : State} {m : VerdictRequest} {rest : List VerdictRequest} (hr : s.inReset = false)
    (hw : s.wires.verdictAsks = m :: rest) :
    exec .verdictRequest s = .next (takeVerdictRequest m { s with wires := { s.wires with verdictAsks := rest } }) :=
  congrArg Host.Outcome.next (receivePlain_taken hr hw)

theorem takeVerdictRequest_post {m : VerdictRequest} {s : State} (h : seqGroup s.path.anchorBase m.req = none) :
    takeVerdictRequest m s = s.sendVerdict m.id (postVerdict s m.req) := by
  unfold takeVerdictRequest
  rw [h]

section
variable {m : VerdictRequest} {s : State} {g : GroupId} {image : List Byte}

theorem takeVerdictRequest_valid (hg : seqGroup s.path.anchorBase m.req = some g)
    (himage : s.pendingImage g m.req = some image) (hvalid : s.cmd.groupValid g image = true) :
    takeVerdictRequest m s = (makeEligible g image s).sendVerdict m.id .accept := by
  unfold takeVerdictRequest groupVerdict
  rw [hg]
  simp only [himage, hvalid, if_true]

theorem takeVerdictRequest_invalid (hg : seqGroup s.path.anchorBase m.req = some g)
    (himage : s.pendingImage g m.req = some image) (hvalid : s.cmd.groupValid g image = false) :
    takeVerdictRequest m s =
      (s.setCmd { s.cmd with invalid := s.cmd.invalid.set g.idx true }).sendVerdict m.id .groupInvalid := by
  unfold takeVerdictRequest groupVerdict
  rw [hg]
  simp only [himage, hvalid, Bool.false_eq_true, if_false]
  rfl

end

/-! What a copy made eligible leaves: the group's mark cleared, and the messages as they were (R166). -/

theorem makeEligible_invalid (g : GroupId) (image : List Byte) (s : State) :
    (makeEligible g image s).cmd.invalid = upd s.cmd.invalid g.idx fun _ => false := by
  cases g <;> rfl

theorem makeEligible_wires (g : GroupId) (image : List Byte) (s : State) :
    (makeEligible g image s).wires = s.wires := by
  cases g <;> rfl

/-! ### A verdict at the Path Unit (R144, R149, R151) -/

section
variable {s : State} {v : VerdictMsg} {rest : List VerdictMsg} {e : PassEntry} {f : FaultKind}

theorem exec_verdict (hr : s.inReset = false) (hw : s.wires.verdicts = v :: rest) :
    exec .verdict s = .next (takeVerdict v { s with wires := { s.wires with verdicts := rest } }) :=
  congrArg Host.Outcome.next (receivePlain_taken hr hw)

/-- The entry that a verdict names is found (R151). -/
theorem find?_awaiting {q : List PassEntry} {id : Nat} (he : e ∈ q) (hid : e.id = id) (hmark : e.mark = .awaiting)
    (huniq : ∀ x ∈ q, x.id = id → x = e) :
    q.find? (fun x => decide (x.id = id) && decide (x.mark = .awaiting)) = some e := by
  cases hfind : q.find? (fun x => decide (x.id = id) && decide (x.mark = .awaiting)) with
  | none => exact absurd (List.find?_eq_none.mp hfind e he) (by simp [hid, hmark])
  | some x =>
    have hx := List.find?_some hfind
    simp only [Bool.and_eq_true, decide_eq_true_eq] at hx
    rw [huniq x (List.mem_of_find?_eq_some hfind) hx.1]

theorem exec_verdict_accept (hr : s.inReset = false) (hw : s.wires.verdicts = v :: rest) (he : e ∈ s.path.queue)
    (hid : e.id = v.id) (hmark : e.mark = .awaiting) (huniq : ∀ x ∈ s.path.queue, x.id = v.id → x = e)
    (hv : v.verdict = .accept) :
    exec .verdict s = .next { s with
      path := s.path.remark v.id .forwarded, wires := { s.wires with verdicts := rest } } := by
  rw [exec_verdict hr hw]
  unfold takeVerdict
  simp only [find?_awaiting he hid hmark huniq, hv, Verdict.fault]

/-- The messages of a verdict that refuses the entry e with a fault: the fault, and the tally increment (R149). -/
def State.refusalWires (s : State) (rest : List VerdictMsg) (e : PassEntry) (f : FaultKind) : Wires :=
  { s.wires with
    verdicts := rest
    faults := s.wires.faults ++ [(.path, refusalFault f e.kind e.req)]
    increments := s.wires.increments ++ [(.path, .refusedAccess)] }

/-- The state once the entry e has been refused with a fault by the verdict v, and has left with its response where no older
entry of its source goes to memory, before requests held off are taken (R149, R151). -/
def State.verdictRefused (s : State) (v : VerdictMsg) (rest : List VerdictMsg) (e : PassEntry) (f : FaultKind) : State :=
  { s with
    path := Path.settle { s.path.remark v.id .refused with refused := bump s.path.refused }
    wires := s.refusalWires rest e f }

theorem exec_verdict_refused (hr : s.inReset = false) (hw : s.wires.verdicts = v :: rest) (he : e ∈ s.path.queue)
    (hid : e.id = v.id) (hmark : e.mark = .awaiting) (huniq : ∀ x ∈ s.path.queue, x.id = v.id → x = e)
    (hv : v.verdict.fault = some f) : exec .verdict s = .next (s.verdictRefused v rest e f).takeHeld := by
  rw [exec_verdict hr hw]
  unfold takeVerdict
  simp only [find?_awaiting he hid hmark huniq, hv]
  rfl

end

/-- A settling does not look at the requests held off (R144). -/
theorem Path.settle_heldOff (p : Path) (hs : List HeldOff) :
    Path.settle { p with heldOff := hs } = { p.settle with heldOff := hs } := by
  rw [Path.settle_eq, Path.settle_eq]

theorem State.verdictRefused_heldOff (s : State) (hs : List HeldOff) (v : VerdictMsg) (rest : List VerdictMsg)
    (e : PassEntry) (f : FaultKind) :
    State.verdictRefused { s with path := { s.path with heldOff := hs } } v rest e f =
      { s.verdictRefused v rest e f with path := { (s.verdictRefused v rest e f).path with heldOff := hs } } :=
  congrArg (fun p : Path => { s.verdictRefused v rest e f with path := p })
    (Path.settle_heldOff { s.path.remark v.id .refused with refused := bump s.path.refused } hs)

/-- The path of a refused verdict, part by part (R144, R149). -/
theorem State.verdictRefused_path (s : State) (v : VerdictMsg) (rest : List VerdictMsg) (e : PassEntry) (f : FaultKind) :
    let t := s.verdictRefused v rest e f
    t.path = { s.path with
      queue := t.path.queue, slots := t.path.slots, returned := t.path.returned
      refused := min 4294967295 (s.path.refused + 1) } := by
  intro t
  simp only [t, State.verdictRefused, Path.settle_eq]
  rfl

theorem State.takeHeld_nil {s : State} (h : s.path.heldOff = []) : s.takeHeld = s := by
  unfold State.takeHeld
  rw [h]
  show { s with path := { s.path with heldOff := [] } } = s
  rw [← h]

/-- An entry that a verdict has refused awaits one no longer (R151). -/
theorem State.verdictRefused_queue {s : State} {v : VerdictMsg} {rest : List VerdictMsg} {e x : PassEntry} {f : FaultKind}
    (hx : x ∈ (s.verdictRefused v rest e f).path.queue) : x.mark ≠ .awaiting ∨ x.id ≠ v.id := by
  have hqueue : x ∈ (s.path.remark v.id .refused).queue := by
    rw [State.verdictRefused, Path.settle_queue, localLeavers_eq] at hx
    obtain ⟨i, _, hi⟩ := mem_pick.mp hx
    exact List.mem_of_getElem? hi
  obtain ⟨y, _, rfl⟩ := List.mem_map.mp hqueue
  split
  · exact .inl Mark.noConfusion
  · exact .inr ‹_›

/-- A refused verdict with requests held off is the one without, and then the room it leaves taken up (R143, R144, R151). -/
theorem exec_verdict_refused_outcome {s : State} {v : VerdictMsg} {rest : List VerdictMsg} {e : PassEntry} {f : FaultKind}
    (hr : s.inReset = false) (hw : s.wires.verdicts = v :: rest) (he : e ∈ s.path.queue) (hid : e.id = v.id)
    (hmark : e.mark = .awaiting) (huniq : ∀ x ∈ s.path.queue, x.id = v.id → x = e) (hv : v.verdict.fault = some f) :
    ∃ t : State, exec .verdict s = .next t ∧ t.mem = s.mem ∧
      (s.path.heldOff = [] → t.path.refused = min 4294967295 (s.path.refused + 1) ∧ t.wires = s.refusalWires rest e f ∧
        ∀ x ∈ t.path.queue, x.mark ≠ .awaiting ∨ x.id ≠ v.id) ∧
      ∃ u : State, exec .verdict { s with path := { s.path with heldOff := [] } } = .next u ∧
        t = State.takeHeld { u with path := { u.path with heldOff := s.path.heldOff } } ∧
        u = { s with path := u.path, wires := u.wires } ∧ u.wires = s.refusalWires rest e f ∧
        u.path = { s.path with
          queue := u.path.queue, slots := u.path.slots, returned := u.path.returned, heldOff := []
          refused := min 4294967295 (s.path.refused + 1) } ∧
        Path.settledInto (s.path.remark v.id .refused) u.path := by
  have hpath := s.verdictRefused_path v rest e f
  have hfree := s.verdictRefused_heldOff [] v rest e f
  have hback : { s.verdictRefused v rest e f with
      path := { (s.verdictRefused v rest e f).path with heldOff := s.path.heldOff } } = s.verdictRefused v rest e f := by
    rw [← s.verdictRefused_heldOff]
  refine ⟨_, exec_verdict_refused hr hw he hid hmark huniq hv, by simp only [State.takeHeld_frame]; rfl, fun hheld => ?_,
    State.verdictRefused { s with path := { s.path with heldOff := [] } } v rest e f, ?_, ?_, rfl, rfl,
    State.verdictRefused_path _ v rest e f, Path.settle_settledInto _⟩
  · rw [State.takeHeld_nil ((congrArg Path.heldOff hpath).trans hheld)]
    exact ⟨congrArg Path.refused hpath, rfl, fun x => State.verdictRefused_queue⟩
  · refine (exec_verdict_refused (by exact hr) (by exact hw) (by exact he) hid hmark (by exact huniq) hv).trans ?_
    rw [State.takeHeld_nil (congrArg (fun u : State => u.path.heldOff) hfree)]
  · rw [hfree]
    exact (congrArg State.takeHeld hback).symm

/-! ### Announced rewrites (R156, R158) -/

theorem PassEntry.meets_eq (e : PassEntry) (rs : List PendingRewrite) : e.meets rs = e.overlaps rs := rfl

theorem Path.hold_eq (p : Path) : p.hold = { p with
    queue := heldAgainst p.rewrites p.queue
    heldReads := min 4294967295 (p.heldReads + newlyHeld p.rewrites p.queue) } := by
  have hheld : (p.queue.map fun e => if e.meets p.rewrites then { e with held := true } else e) =
      heldAgainst p.rewrites p.queue := List.map_congr_left fun e _ => by
    rw [PassEntry.meets_eq]
    cases e.overlaps p.rewrites with
    | true => rw [Bool.or_true]; rfl
    | false => rw [Bool.or_false]; rfl
  unfold Path.hold
  rw [hheld]
  simp only [PassEntry.meets_eq]
  rfl

theorem Path.rewriteQueued_iff (p : Path) (id : Nat) :
    p.rewriteQueued id = true ↔ ∃ t ∈ p.internal, ∃ n, t.tag = .rewrite id n := by
  have htag (t : Txn) : (match t.tag with | .rewrite i _ => decide (i = id) | _ => false) = true ↔
      ∃ n, t.tag = .rewrite id n := by
    cases t.tag <;> simp
  unfold Path.rewriteQueued
  rw [List.any_eq_true]
  exact exists_congr fun t => and_congr_right fun _ => htag t

theorem exec_rewriteAnnouncement {s : State} {r : PendingRewrite} {rest : List PendingRewrite} (hr : s.inReset = false)
    (hw : s.wires.announcements = r :: rest) :
    exec .rewriteAnnouncement s =
      .next (takeAnnouncement r { s with wires := { s.wires with announcements := rest } }) :=
  congrArg Host.Outcome.next (receivePlain_taken hr hw)

/-! ### The seen word (R161, R172) -/

/-- The bytes of the seen word with a write's enabled ones in their place (R161). -/
theorem takeSeenWrite_bytes {m : SeenWrite} {s : State} (hes : m.enables.length = 4) (hds : m.data.length = 4) {i : Nat}
    (hi : i < 4) : (le 4 (takeSeenWrite m s).cmd.seen.toNat)[i]? =
      if m.enables.getD i false then m.data[i]? else (le 4 s.cmd.seen.toNat)[i]? := by
  have hlen : (patch (le 4 s.cmd.seen.toNat) 0 m.enables m.data).length = 4 := by rw [patch_length, le_length]
  have hbytes : le 4 (takeSeenWrite m s).cmd.seen.toNat = patch (le 4 s.cmd.seen.toNat) 0 m.enables m.data :=
    le_ofNat_fromLe hlen
  rw [hbytes, patch_getElem? (hes.trans hds.symm) (by rwa [le_length])]
  simp only [Nat.zero_le, true_and, Nat.sub_zero]

/-- Settles O59: the verdict by the group and its validity, the refusal as a settled queue (`Path.settle_settledInto`) with the
requests held off after it, the hold of an announced rewrite (`Path.hold_eq`), and the seen word byte by byte. -/
theorem verdictsAndCopies : Obligations.VerdictsAndCopies := by
  refine ⟨?verdictRequest, ?verdict, fun r rest s hr hw => ?_, fun m rest s hr hw hes hds => ?_⟩
  case verdictRequest =>
    intro m rest s hr hw answered post
    refine ⟨fun hg => ?_, fun g image hg himage => ⟨fun hvalid => ?_, fun hvalid => ?_⟩⟩
    · rw [exec_verdictRequest hr hw, takeVerdictRequest_post (by exact hg)]
      rfl
    · rw [exec_verdictRequest hr hw, takeVerdictRequest_invalid (by exact hg) (by exact himage) (by exact hvalid)]
      rfl
    · refine ⟨_, exec_verdictRequest hr hw, ?_⟩
      rw [takeVerdictRequest_valid (by exact hg) (by exact himage) (by exact hvalid)]
      generalize hs : ({ s with wires := { s.wires with verdictAsks := rest } } : State) = s'
      refine ⟨?_, ?_, ?_, ?_⟩
      · rw [State.sendVerdict, State.wire_wires, makeEligible_wires, ← hs]
      · rw [State.sendVerdict, State.wire_cmd, makeEligible_invalid, upd_same]
      · rw [State.sendVerdict, State.wire_cmd, (makeEligible_copies _ _ _).1, ← hs]
      · cases g <;> subst hs
        case clock => exact ⟨rfl, rfl⟩
        all_goals rfl
  case verdict =>
    intro v rest s e hr hw he hid hmark huniq
    cases hv : v.verdict with
    | accept => exact exec_verdict_accept hr hw he hid hmark huniq hv
    | postOverrun | groupInvalid =>
      exact exec_verdict_refused_outcome hr hw he hid hmark huniq ((congrArg Verdict.fault hv).trans rfl)
  · intro queued
    rw [exec_rewriteAnnouncement hr hw]
    have hq := s.path.rewriteQueued_iff r.id
    refine ⟨fun hnot => congrArg Host.Outcome.next (if_neg fun h => hnot (hq.mp h)), fun hin => ?_⟩
    refine (congrArg Host.Outcome.next (if_pos (hq.mpr hin))).trans ?_
    rw [Path.hold_eq]
  · exact ⟨_, congrArg Host.Outcome.next (receivePlain_taken hr hw), rfl, rfl, rfl, State.evalAttn_attnRight _,
      fun i hi => takeSeenWrite_bytes hes hds hi⟩

end Sys2Proof.Machine
end

section
/-! The memory behind the M-port: which commands change it, and to what (R144, R157); with it O3 and O11. -/

namespace Sys2Proof.Machine

/-! ### What leaves the M-port -/

/-- Memory once an entry of the pass-through queue has left the M-port (R144). -/
def PassEntry.stored (e : PassEntry) (m : List Host.Cell) : List Host.Cell :=
  if e.kind = .write then writeBytes m e.target e.req.enables e.req.data else m

/-- Memory once a transaction of the part has left the M-port (R144). -/
def Txn.stored (x : Txn) (m : List Host.Cell) : List Host.Cell :=
  if x.write then writeBytes m x.addr x.enables x.data else m

theorem PassEntry.stored_wf (e : PassEntry) {m : List Host.Cell} (h : Memory.wf m = true) :
    Memory.wf (e.stored m) = true := by
  unfold PassEntry.stored
  split
  · exact Memory.wf_writeBytes _ _ _ _ h
  · exact h

theorem Txn.stored_wf (x : Txn) {m : List Host.Cell} (h : Memory.wf m = true) : Memory.wf (x.stored m) = true := by
  unfold Txn.stored
  split
  · exact Memory.wf_writeBytes _ _ _ _ h
  · exact h

theorem PassEntry.stored_outside {e : PassEntry} {a : Nat}
    (h : e.kind = .read ∨ a < e.target ∨ e.target + e.req.data.length ≤ a) (m : List Host.Cell) :
    readByte (e.stored m) a = readByte m a := by
  unfold PassEntry.stored
  split
  · next hw => exact readByte_writeBytes_outside _ _ _ _ _ (h.resolve_left (by rw [hw]; exact ReqKind.noConfusion))
  · rfl

theorem Txn.stored_outside {x : Txn} {a : Nat} (h : x.write = false ∨ a < x.addr ∨ x.addr + x.data.length ≤ a)
    (m : List Host.Cell) : readByte (x.stored m) a = readByte m a := by
  unfold Txn.stored
  split
  · next hw => exact readByte_writeBytes_outside _ _ _ _ _ (h.resolve_left (by rw [hw]; exact Bool.noConfusion))
  · rfl

theorem passEffect_mem (e : PassEntry) (s : State) : (passEffect e s).mem = e.stored s.mem := by
  unfold passEffect PassEntry.stored
  cases e.kind <;> simp

theorem sendPass_mem (e : PassEntry) (rest : List PassEntry) (s : State) :
    (sendPass e rest s).mem = e.stored s.mem := by
  simp only [sendPass, State.takeHeld_frame, State.wire_mem, passEffect_mem]

theorem txnMemory_mem (x : Txn) (s : State) : (txnMemory x s).mem = x.stored s.mem := by
  unfold txnMemory Txn.stored
  split <;> rfl

theorem sendInternal_mem (x : Txn) (xs : List Txn) (s : State) : (sendInternal x xs s).mem = x.stored s.mem := by
  simp only [sendInternal, State.refill_frame, txnEffect_frame, txnMemory_mem]

/-! ### The turns of the M-port (R157) -/

section
variable {s : State} {e : PassEntry} {rest : List PassEntry} {x : Txn} {xs : List Txn}

theorem mPortSend_idle (hpass : readyEntry [] s.path.queue = none) (hint : s.path.internal = []) : mPortSend s = s := by
  unfold mPortSend
  rw [hpass, hint]

theorem mPortSend_pass (hpass : readyEntry [] s.path.queue = some (e, rest))
    (hturn : s.path.internal = [] ∨ s.path.marker = .internal) : mPortSend s = sendPass e rest s := by
  unfold mPortSend
  rw [hpass]
  rcases hturn with hint | hmark
  · rw [hint]
  · rw [hmark]
    cases s.path.internal <;> rfl

theorem mPortSend_internal (hint : s.path.internal = x :: xs)
    (hturn : readyEntry [] s.path.queue = none ∨ s.path.marker = .pass) : mPortSend s = sendInternal x xs s := by
  unfold mPortSend
  rw [hint]
  rcases hturn with hpass | hmark
  · rw [hpass]
  · rw [hmark]
    cases readyEntry [] s.path.queue <;> rfl

end

/-- Everything the arbiter's turn can be: nothing is sent, a ready entry of the pass-through queue leaves, or the head of the
internal queue does (R157). -/
theorem mPortSend_cases (s : State) :
    (readyEntry [] s.path.queue = none ∧ s.path.internal = [] ∧ mPortSend s = s) ∨
    (∃ e rest, readyEntry [] s.path.queue = some (e, rest) ∧ (s.path.internal = [] ∨ s.path.marker = .internal) ∧
      mPortSend s = sendPass e rest s) ∨
    ∃ x xs, s.path.internal = x :: xs ∧ (readyEntry [] s.path.queue = none ∨ s.path.marker = .pass) ∧
      mPortSend s = sendInternal x xs s := by
  cases hpass : readyEntry [] s.path.queue with
  | none =>
    cases hint : s.path.internal with
    | nil => exact .inl ⟨rfl, rfl, mPortSend_idle hpass hint⟩
    | cons x xs => exact .inr (.inr ⟨x, xs, rfl, .inl rfl, mPortSend_internal hint (.inl hpass)⟩)
  | some er =>
    obtain ⟨e, rest⟩ := er
    cases hint : s.path.internal with
    | nil => exact .inr (.inl ⟨e, rest, rfl, .inl rfl, mPortSend_pass hpass (.inl hint)⟩)
    | cons x xs =>
      cases hmark : s.path.marker with
      | internal => exact .inr (.inl ⟨e, rest, rfl, .inr rfl, mPortSend_pass hpass (.inr hmark)⟩)
      | pass => exact .inr (.inr ⟨x, xs, rfl, .inr rfl, mPortSend_internal hint (.inr hmark)⟩)

/-! ### Every command -/

/-- No command but M_PORT_SEND changes memory. -/
theorem exec_keeps_mem {c : Instr} {s t : State} (hc : c ≠ .mPortSend) (h : exec c s = .next t) : t.mem = s.mem := by
  cases c
  case mPortSend => exact absurd rfl hc
  all_goals obtain rfl := Host.Outcome.next.inj h
  case powerOn | warmReset => rfl
  case resetEnd | secondEnd | postWordWrite | sequenceWordWrite | takeViewRead | peekViewRead => split <;> simp
  case tb32kPeriod | busRead | busWrite => simp
  case encoderEdge | analysisBegin | join | gradingBegin | commandTake | configure | commandCompletion | memoryAnswer =>
    exact live_keeps State.mem fun _ => by simp
  case unitTick | travelSecondTick | writerSecondTick | analysisCompletion | tallyIncrement | fault =>
    exact live_keeps State.mem fun _ => by split <;> simp
  case stopTimerExpiry => exact live_keeps State.mem fun _ => by (repeat' split) <;> simp
  case laneLineTrigger | gapLine | settledLine | scan | mark | gather | heldFlaw | scanAnswer | joinedLine | plannerRise
      | flushEnd | strikeClaim | pieceRemoval | waitingLogMove | runEndCompletion | headOffer | strikeRise | claimWithdrawal
      | gatherAnswer | gradeAnswer | stamp | plateOffer | plateAccepted | plateFull | plateRoom =>
    exact receiveIf_keeps State.mem (fun _ _ => rfl) fun _ _ => by simp
  case strikeGrant =>
    exact receiveWith_keeps State.mem (fun _ _ => rfl) (fun _ _ => by simp) fun _ _ => by simp [staleGrant]
  case gradingHandoff =>
    exact receiveWith_keeps State.mem (fun _ _ => rfl) (fun _ _ => by simp) fun _ _ => by simp [staleHandoff]
  case landingWrite | gradingIncrements | shiftReportOffer | shiftAccepted | shiftFull | shiftRoom | flawRecord
      | releaseRequest | rewriteAnnouncement | seenWordWrite | verdictRequest | verdict =>
    exact receivePlainIf_keeps State.mem (fun _ _ => rfl) fun _ _ => by simp
  case startRun | stopRun | resetRun | setClock | closeShift | laneEnable | laneDisable | manualCut | badCommand =>
    rcases onCommand_cases _ _ s with hs | ⟨n, b, _, _, _, hs⟩
    · exact congrArg State.mem hs
    · exact (congrArg State.mem hs).trans (by simp)

theorem exec_keeps_memoryWf {c : Instr} {s t : State} (h : exec c s = .next t) (hs : s.memoryWf) : t.memoryWf := by
  by_cases hc : c = .mPortSend
  · subst hc
    obtain rfl := Host.Outcome.next.inj h
    unfold State.memoryWf at hs ⊢
    rcases live_cases mPortSend s with hlive | ⟨_, hlive⟩
    · rwa [hlive]
    · rw [hlive]
      rcases mPortSend_cases s with ⟨_, _, hturn⟩ | ⟨e, rest, _, _, hturn⟩ | ⟨x, xs, _, _, hturn⟩
      · rwa [hturn]
      · rw [hturn, sendPass_mem]; exact e.stored_wf hs
      · rw [hturn, sendInternal_mem]; exact x.stored_wf hs
  · unfold State.memoryWf at hs ⊢
    rwa [exec_keeps_mem hc h]

/-- Settles O3: only the M-port stores bytes, and each byte it stores keeps the canonical form (`Memory.wf_writeBytes`). -/
theorem memoryStaysCanonical : Obligations.MemoryStaysCanonical := by
  intro s t hs h
  unfold step at h
  split at h
  · obtain rfl := Host.Outcome.next.inj h
    exact hs
  · exact exec_keeps_memoryWf h hs

/-- Settles O11: memory changes at M_PORT_SEND alone, and there only within the span of the write that leaves. -/
theorem memoryFrame : Obligations.MemoryFrame := by
  intro c s t h
  cases c
  case mPortSend =>
    intro a
    obtain rfl := Host.Outcome.next.inj h
    have hpass {e : PassEntry} {rest : List PassEntry} (hready : readyEntry [] s.path.queue = some (e, rest))
        (hturn : s.path.internal = [] ∨ s.path.marker = .internal)
        (ha : e.kind = .read ∨ a < e.target ∨ e.target + e.req.data.length ≤ a) :
        readByte (live mPortSend s).mem a = readByte s.mem a := by
      rcases live_cases mPortSend s with hlive | ⟨_, hlive⟩ <;> rw [hlive]
      rw [mPortSend_pass hready hturn, sendPass_mem, PassEntry.stored_outside ha]
    have hinternal {x : Txn} {xs : List Txn} (hint : s.path.internal = x :: xs)
        (hturn : readyEntry [] s.path.queue = none ∨ s.path.marker = .pass)
        (ha : x.write = false ∨ a < x.addr ∨ x.addr + x.data.length ≤ a) :
        readByte (live mPortSend s).mem a = readByte s.mem a := by
      rcases live_cases mPortSend s with hlive | ⟨_, hlive⟩ <;> rw [hlive]
      rw [mPortSend_internal hint hturn, sendInternal_mem, Txn.stored_outside ha]
    cases hready : readyEntry [] s.path.queue with
    | none =>
      cases hint : s.path.internal with
      | nil =>
        rcases live_cases mPortSend s with hlive | ⟨_, hlive⟩ <;> rw [hlive]
        rw [mPortSend_idle hready hint]
      | cons x xs => exact hinternal hint (.inl hready)
    | some er =>
      obtain ⟨e, rest⟩ := er
      cases hint : s.path.internal with
      | nil => exact hpass hready (.inl hint)
      | cons x xs =>
        cases hmark : s.path.marker with
        | internal => exact hpass hready (.inr hmark)
        | pass => exact hinternal hint (.inr hmark)
  all_goals exact exec_keeps_mem Instr.noConfusion h

end Sys2Proof.Machine
end

section
/-! A request taken at the C-port: its check, its entry, and what it leaves of the path (R143 to R145, R148 to R152, R154,
R156); with them O58. -/

namespace Sys2Proof.Machine

/-! ### What a check comes to -/

namespace Check

/-- The mark of the entry of a request checked (R143, R149). -/
def mark : Check → Mark
  | .pass m => m
  | .refuse _ => .refused

/-- The fault a check refuses with (R149). -/
def fault : Check → Option FaultKind
  | .pass _ => none
  | .refuse f => some f

/-- The refused counter after a check (R158). -/
def refusals (n : Nat) : Check → Nat
  | .pass _ => n
  | .refuse _ => min 4294967295 (n + 1)

/-- The messages after a check: the request for a verdict that an entry awaits, or the fault and the tally increment of a
refusal (R149, R151). -/
def send (kind : ReqKind) (q : Request) (id : Nat) (w : Wires) : Check → Wires
  | .pass m => { w with verdictAsks := w.verdictAsks ++ verdictAsksFor m id q }
  | .refuse f => { w with
      faults := w.faults ++ [(.path, refusalFault f kind q)], increments := w.increments ++ [(.path, .refusedAccess)] }

end Check

/-- The entry of a request in the pass-through queue, no read yet held (R143). -/
def Path.entryFor (p : Path) (kind : ReqKind) (q : Request) (m : Mark) : PassEntry :=
  { id := p.nextId, kind := kind, req := q, region := p.region q.addr.toNat, mark := m, viewAt := p.viewOffset q,
    held := false }

/-- A request placed at the end of the pass-through queue, and the reads that pending rewrites hold (R143, R156). -/
theorem Path.enqueue_eq (p : Path) (kind : ReqKind) (q : Request) (m : Mark) :
    p.enqueue kind q m = { p with
      queue := heldAgainst p.rewrites (p.queue ++ [p.entryFor kind q m])
      slots := p.slots ++ [{ id := p.nextId, source := q.source, response := none }]
      heldReads := min 4294967295 (p.heldReads + newlyHeld p.rewrites (p.queue ++ [p.entryFor kind q m]))
      nextId := p.nextId + 1 } := Path.hold_eq _

/-- What a settling changes of the path (R144). -/
theorem Path.settle_parts (p : Path) :
    p.settle = { p with queue := p.settle.queue, slots := p.settle.slots, returned := p.settle.returned } := by
  rw [Path.settle_eq]

/-- The path as a request taken leaves it before the entries ready to leave do (R143, R149). -/
def Path.joined (p : Path) (kind : ReqKind) (q : Request) (c : Check) : Path :=
  { p.enqueue kind q c.mark with refused := c.refusals p.refused }

/-- A request taken, whatever its check comes to (R143). -/
theorem State.takeOne_eq (s : State) (kind : ReqKind) (q : Request) :
    s.takeOne kind q = { s with
      path := (s.path.joined kind q (s.path.check kind q)).settle
      wires := (s.path.check kind q).send kind q s.path.nextId s.wires } := by
  unfold State.takeOne
  cases s.path.check kind q <;> rfl

/-- The path of a request taken, part by part (R143, R156, R158). -/
theorem State.takeOne_path (s : State) (kind : ReqKind) (q : Request) :
    let t := s.takeOne kind q
    t.path = { s.path with
      queue := t.path.queue, slots := t.path.slots, returned := t.path.returned, refused := t.path.refused
      heldReads := min 4294967295 (s.path.heldReads +
        newlyHeld s.path.rewrites (s.path.queue ++ [s.path.entryFor kind q (s.path.check kind q).mark]))
      nextId := s.path.nextId + 1 } := by
  intro t
  simp only [t, State.takeOne_eq]
  rw [Path.settle_parts, Path.joined, Path.enqueue_eq]

theorem State.takeOne_counts (s : State) (kind : ReqKind) (q : Request) {c : Check} (hc : s.path.check kind q = c) :
    (s.takeOne kind q).path.nextId = s.path.nextId + 1 ∧
      (s.takeOne kind q).path.refused = c.refusals s.path.refused ∧
      (s.takeOne kind q).wires = c.send kind q s.path.nextId s.wires := by
  rw [State.takeOne_eq, hc, Path.settle_parts, Path.joined, Path.enqueue_eq]
  exact ⟨rfl, rfl, rfl⟩

/-- Taking a request does not look at the requests held off (R143). -/
theorem State.takeOne_heldOff (s : State) (hs : List HeldOff) (kind : ReqKind) (q : Request) :
    State.takeOne { s with path := { s.path with heldOff := hs } } kind q =
      { s.takeOne kind q with path := { (s.takeOne kind q).path with heldOff := hs } } := by
  rw [State.takeOne_eq, State.takeOne_eq]
  exact congrArg (fun p : Path => { s with path := p, wires := (s.path.check kind q).send kind q s.path.nextId s.wires })
    (Path.settle_heldOff (s.path.joined kind q (s.path.check kind q)) hs)

theorem takeHeldOff_heldOff (hs : List HeldOff) : ∀ (s : State) (xs : List HeldOff),
    takeHeldOff hs { s with path := { s.path with heldOff := xs } } = takeHeldOff hs s := by
  induction hs with
  | nil => exact fun _ _ => rfl
  | cons h rest ih =>
    intro s xs
    unfold takeHeldOff
    rw [State.takeOne_heldOff, ih]

/-! ### The entry of a request taken -/

section
variable {p : Path} {e : PassEntry}

/-- An entry that goes to memory, or waits for a verdict, stays (R144). -/
theorem Path.mem_settle_queue (he : e ∈ p.queue) (hlocal : e.isLocal = false) : e ∈ p.settle.queue := by
  obtain ⟨i, hi⟩ := List.mem_iff_getElem?.mp he
  obtain ⟨hlt, rfl⟩ := List.getElem?_eq_some_iff.mp hi
  have hstay : leavesAlone p.queue i = false := by
    unfold leavesAlone
    rw [hi]
    refine Bool.eq_false_iff.mpr fun hall => ?_
    have htake : (p.queue.take (i + 1))[i]? = some p.queue[i] := by rw [List.getElem?_take_of_succ, hi]
    have hself := List.all_eq_true.mp hall _ (List.mem_of_getElem? htake)
    simp [hlocal] at hself
  rw [Path.settle_queue, localLeavers_eq, leavesPast_nil]
  exact mem_pick.mpr ⟨i, by rw [hstay]; rfl, hi⟩

/-- The youngest entry of a queue leaves last when nothing older of its source stands in the queue (R144). -/
theorem localLeavers_last (hlocal : e.isLocal = true) {q : List PassEntry} :
    ∀ {older : List SourceId}, e.req.source ∉ older → (∀ x ∈ q, x.req.source ≠ e.req.source) →
      ∃ es, (localLeavers older (q ++ [e])).1 = es ++ [e] := by
  induction q with
  | nil =>
    intro older holder _
    exact ⟨[], by simp [localLeavers, hlocal, holder]⟩
  | cons x q ih =>
    intro older holder hq
    obtain ⟨hx, hq⟩ := List.forall_mem_cons.mp hq
    rw [List.cons_append, localLeavers]
    split
    · obtain ⟨es, hes⟩ := ih holder hq
      exact ⟨x :: es, congrArg (x :: ·) hes⟩
    · exact ih (fun hmem => (List.mem_cons.mp hmem).elim (fun h => hx h.symm) holder) hq

namespace ResponseSlot

variable {es : List PassEntry} {x : ResponseSlot}

theorem after_id : (x.after es).id = x.id := by
  induction es generalizing x with
  | nil => rfl
  | cons e es ih => rw [after_cons, ih]; split <;> rfl

theorem after_last (hid : x.id = e.id) : (x.after (es ++ [e])).response = some (e.localResponse x.source) := by
  have hlast : x.after (es ++ [e]) = (x.after es).after [e] := List.foldl_append
  rw [hlast, after_cons, after_id, if_pos hid, after_source]
  rfl

end ResponseSlot

/-- The youngest entry, refused or answered locally, is answered at once when nothing older of its source waits (R144). -/
theorem Path.settle_last {q : List PassEntry} {before : List ResponseSlot} (hlocal : e.isLocal = true)
    (hqueue : p.queue = q ++ [e]) (hslots : p.slots = before ++ [{ id := e.id, source := e.req.source, response := none }])
    (hq : ∀ x ∈ q, x.req.source ≠ e.req.source)
    (hbefore : ∀ x ∈ before, x.source = e.req.source → x.response ≠ none) :
    e.localResponse e.req.source ∈ p.settle.returned := by
  obtain ⟨es, hes⟩ := localLeavers_last hlocal List.not_mem_nil hq
  rw [Path.settle_eq, hqueue, hes, hslots, List.map_append]
  refine List.mem_append_right _ (mem_returnable (ResponseSlot.after_last rfl) List.not_mem_nil fun x hx hsource => ?_)
  obtain ⟨y, hy, rfl⟩ := List.mem_map.mp hx
  rw [ResponseSlot.after_source, ResponseSlot.after_source] at hsource
  exact ResponseSlot.after_response_ne (hbefore y hy hsource)

end

section
variable {s : State} {kind : ReqKind} {q : Request} {c : Check}

/-- The queue as a request taken leaves it, before the entries ready to leave do. -/
theorem Path.joined_queue (p : Path) (kind : ReqKind) (q : Request) (c : Check) : (p.joined kind q c).queue =
    heldAgainst p.rewrites p.queue ++ heldAgainst p.rewrites [p.entryFor kind q c.mark] := by
  rw [Path.joined, Path.enqueue_eq]
  exact List.map_append

/-- A request checked and not answered by the Path Unit itself stands in the queue. -/
theorem State.takeOne_queued {m : Mark} (hc : s.path.check kind q = .pass m)
    (hlocal : (s.path.entryFor kind q m).isLocal = false) :
    ∃ e ∈ (s.takeOne kind q).path.queue, e.id = s.path.nextId ∧ e.kind = kind ∧ e.req = q ∧
      e.region = s.path.region q.addr.toNat ∧ e.viewAt = s.path.viewOffset q ∧ e.mark = m := by
  rw [State.takeOne_eq, hc]
  refine ⟨{ s.path.entryFor kind q m with held := false || (s.path.entryFor kind q m).overlaps s.path.rewrites },
    Path.mem_settle_queue ?_ ?_, rfl, rfl, rfl, rfl, rfl, rfl⟩
  · rw [Path.joined_queue]
    exact List.mem_append_right _ List.mem_cons_self
  · exact hlocal

/-- A request refused or answered locally is answered at once when every older request of its source has left and been
answered (R144, R148, R149). -/
theorem State.takeOne_answered (hc : s.path.check kind q = c) (hlocal : (s.path.entryFor kind q c.mark).isLocal = true)
    (hqueue : ∀ e ∈ s.path.queue, e.req.source ≠ q.source)
    (hslots : ∀ x ∈ s.path.slots, x.source = q.source → x.response ≠ none) :
    (s.path.entryFor kind q c.mark).localResponse q.source ∈ (s.takeOne kind q).path.returned := by
  rw [State.takeOne_eq, hc]
  refine Path.settle_last (e := { s.path.entryFor kind q c.mark with
    held := false || (s.path.entryFor kind q c.mark).overlaps s.path.rewrites }) hlocal (Path.joined_queue _ _ _ _) ?_ ?_
    hslots
  · rw [Path.joined, Path.enqueue_eq]
    rfl
  · intro x hx
    obtain ⟨y, hy, rfl⟩ := List.mem_map.mp hx
    exact hqueue y hy

theorem State.takeOne_settledInto (hc : s.path.check kind q = c) : Path.settledInto { s.path with
      queue := heldAgainst s.path.rewrites (s.path.queue ++ [s.path.entryFor kind q c.mark])
      slots := s.path.slots ++ [{ id := s.path.nextId, source := q.source, response := none }] }
    (s.takeOne kind q).path := by
  have hsettle := (s.path.joined kind q c).settle_settledInto
  rw [State.takeOne_eq, hc]
  rw [Path.joined, Path.enqueue_eq] at hsettle ⊢
  exact hsettle

end

/-! ### Requests presented -/

section
variable {s : State} {kind : ReqKind} {q : Request}

theorem State.request_waits (h : s.inReset = true ∨ 32 ≤ s.path.queue.length) : s.request kind q =
    { s with path := { s.path with heldOff := s.path.heldOff ++ [{ kind := kind, req := q }] } } := by
  unfold State.request
  exact if_pos (by simpa using h)

theorem State.request_taken (hr : s.inReset = false) (hroom : s.path.queue.length < 32) :
    s.request kind q = s.takeOne kind q := by
  unfold State.request
  exact if_neg (by simp [hr]; omega)

theorem exec_busRead_unformed (hq : q.readFormed = false) : exec (.busRead q) s = .next s :=
  congrArg Host.Outcome.next (if_neg (Bool.eq_false_iff.mp hq))

theorem exec_busRead (hq : q.readFormed = true) : exec (.busRead q) s = .next (s.request .read q) :=
  congrArg Host.Outcome.next (if_pos hq)

theorem exec_busWrite_unformed (hq : q.writeFormed = false) : exec (.busWrite q) s = .next s :=
  congrArg Host.Outcome.next (if_neg (Bool.eq_false_iff.mp hq))

theorem exec_busWrite (hq : q.writeFormed = true) : exec (.busWrite q) s = .next (s.request .write q) :=
  congrArg Host.Outcome.next (if_pos hq)

theorem exec_busRead_taken (hq : q.readFormed = true) (hr : s.inReset = false) (hroom : s.path.queue.length < 32) :
    exec (.busRead q) s = .next (s.takeOne .read q) := by
  rw [exec_busRead hq, State.request_taken hr hroom]

theorem exec_busWrite_taken (hq : q.writeFormed = true) (hr : s.inReset = false) (hroom : s.path.queue.length < 32) :
    exec (.busWrite q) s = .next (s.takeOne .write q) := by
  rw [exec_busWrite hq, State.request_taken hr hroom]

end

/-! ### Checks by class (R148) -/

section
variable {p : Path} {q : Request}

/-- The mark of a view read by a source with VIEW_READ (R148, R154). -/
def Path.viewMark (p : Path) (q : Request) : Mark :=
  match p.map.bind fun m => translation m q.addr.toNat with
  | none => .forwarded
  | some (_, _, target) => .translated target

theorem Path.checkView_eq (p : Path) (q : Request) : p.checkView q =
    if (p.entry q.source).rights.viewRead then .pass (p.viewMark q) else .refuse .viewRight := by
  unfold Path.checkView Path.viewMark
  cases p.map with
  | none => rfl
  | some m =>
    simp only [Option.bind_some]
    cases translation m q.addr.toNat <;> rfl

/-- A view read goes to the ring behind its window (R154). -/
theorem Path.view_translated {m : RegionMap} {l : LogId} {w : ViewKind} {o : Nat} (hm : p.map = some m)
    (hw : windowAt m (q.addr.toNat - m.views.base) = some (l, w, o)) :
    p.viewOffset q = o ∧ p.viewMark q = .translated (m.logs[l.idx].1 + o) := by
  have ht : translation m q.addr.toNat = some (l, o, m.logs[l.idx].1 + o) := by
    unfold translation
    rw [hw]
  unfold Path.viewOffset Path.viewMark
  rw [hm]
  simp only [Option.bind_some, ht, and_self]

theorem Path.check_spansTwo {kind : ReqKind} (h : p.region q.addr.toNat ≠ p.region q.lastByte) :
    p.check kind q = .refuse .region := if_pos (decide_eq_true h)

/-- A request that passes its check spans one class (R145). -/
theorem Path.one_region_of_pass {kind : ReqKind} {m : Mark} (h : p.check kind q = .pass m) :
    p.region q.addr.toNat = p.region q.lastByte := by
  by_contra hspan
  rw [Path.check_spansTwo hspan] at h
  exact Check.noConfusion h

theorem Path.check_read (h : p.region q.addr.toNat = p.region q.lastByte) :
    p.check .read q = p.checkRead q (p.region q.addr.toNat) := if_neg (by simp [Path.spansTwo, h])

theorem Path.check_write (h : p.region q.addr.toNat = p.region q.lastByte) :
    p.check .write q = p.checkWrite q (p.region q.addr.toNat) := if_neg (by simp [Path.spansTwo, h])

/-- The mark of a read that passes its check, by its class (R148). -/
def Path.readMark (p : Path) (q : Request) : Region → Mark
  | .view _ _ => p.viewMark q
  | .viewSpare => .localZeros
  | .plain | .landing _ | .anchorConfig | .anchorCommand | .anchorOwned | .log => .forwarded

/-- A class that takes VIEW_READ to read (R148). -/
def Region.inAperture : Region → Bool
  | .view _ _ | .viewSpare => true
  | .plain | .landing _ | .anchorConfig | .anchorCommand | .anchorOwned | .log => false

/-- A read asks for no verdict (R151). -/
theorem Path.readMark_asks (p : Path) (q : Request) (r : Region) (id : Nat) :
    verdictAsksFor (p.readMark q r) id q = [] := by
  cases r
  case view =>
    show verdictAsksFor (p.viewMark q) id q = []
    unfold Path.viewMark
    split <;> rfl
  all_goals rfl

theorem Path.checkRead_eq (p : Path) (q : Request) (r : Region) : p.checkRead q r =
    if r.inAperture = true ∧ (p.entry q.source).rights.viewRead = false then .refuse .viewRight
    else .pass (p.readMark q r) := by
  cases r
  case view =>
    rw [Path.checkRead, Path.checkView_eq]
    cases (p.entry q.source).rights.viewRead <;> rfl
  case viewSpare =>
    show (if (p.entry q.source).rights.viewRead then _ else _) = _
    cases (p.entry q.source).rights.viewRead <;> rfl
  all_goals exact (if_neg (by simp [Region.inAperture])).symm

/-- The fault a read is refused with, if any (R145, R148). -/
theorem Path.check_read_fault (p : Path) (q : Request) : (p.check .read q).fault =
    if p.region q.addr.toNat ≠ p.region q.lastByte then some .region
    else if (p.region q.addr.toNat).inAperture = true ∧ (p.entry q.source).rights.viewRead = false then some .viewRight
    else none := by
  by_cases hspan : p.region q.addr.toNat = p.region q.lastByte
  · rw [Path.check_read hspan, Path.checkRead_eq, if_neg (not_not.mpr hspan)]
    split <;> rfl
  · rw [Path.check_spansTwo hspan, if_pos hspan]
    rfl

theorem Path.check_read_pass {m : Mark} (h : p.check .read q = .pass m) : m = p.readMark q (p.region q.addr.toNat) := by
  rw [Path.check_read (Path.one_region_of_pass h), Path.checkRead_eq] at h
  split at h
  · exact Check.noConfusion h
  · exact (Check.pass.inj h).symm

/-- A check by a right, as a fault or a mark (R148). -/
theorem Check.withRight_eq {right : Bool} {P : Prop} [Decidable P] (h : right = true ↔ P) (m : Mark) :
    Check.withRight right m = Option.elim (if P then none else some .region) (.pass m) .refuse := by
  unfold Check.withRight
  by_cases hP : P
  · rw [if_pos hP, if_pos (h.mpr hP)]
    rfl
  · rw [if_neg hP, if_neg (mt h.mp hP)]
    rfl

/-- The fault a write is refused with by its class, if any (R148, R150). -/
def Path.writeFault (p : Path) (q : Request) : Region → Option FaultKind
  | .plain => if (p.entry q.source).rights.plainWrite = true then none else some .region
  | .landing k =>
    if ((p.entry q.source).rights.landingOwn = true ∧ (p.entry q.source).role = .camera k) ∨
      (p.entry q.source).rights.landingAny = true then none else some .region
  | .anchorConfig =>
    if (p.entry q.source).rights.configWrite = false then some .region
    else if (p.runState = .running ∨ p.runState = .draining) ∧ p.touchesFixed q = true then some .lockedField
    else none
  | .anchorCommand => if (p.entry q.source).rights.commandWrite = true then none else some .region
  | .anchorOwned | .log => some .region
  | .view _ _ | .viewSpare => some .viewWrite

/-- Whether a write waits for a verdict, by its class (R151). -/
def Path.writeWaits (p : Path) (q : Request) : Region → Bool
  | .anchorCommand => p.touchesPost q
  | .anchorConfig => (seqGroup p.anchorBase q).isSome
  | .plain | .landing _ | .anchorOwned | .log | .view _ _ | .viewSpare => false

/-- The check of a write, as its fault or its mark (R148, R150, R151). -/
theorem Path.checkWrite_eq (p : Path) (q : Request) (r : Region) : p.checkWrite q r =
    (p.writeFault q r).elim (.pass (if p.writeWaits q r then .awaiting else .forwarded)) .refuse := by
  cases r with
  | plain => exact Check.withRight_eq Iff.rfl _
  | landing k => exact Check.withRight_eq (by simp) _
  | anchorCommand => exact Check.withRight_eq Iff.rfl _
  | anchorConfig =>
    have hlocked : (p.runState.counting && p.touchesFixed q) = true ↔
        (p.runState = .running ∨ p.runState = .draining) ∧ p.touchesFixed q = true := by
      rw [Bool.and_eq_true, RunState.counting_iff]
    simp only [Path.checkWrite, Path.checkConfig, Path.writeFault, Path.writeWaits, hlocked]
    by_cases hright : (p.entry q.source).rights.configWrite = true
    · simp only [hright, if_true, Bool.true_eq_false, if_false]
      split
      · rfl
      · exact (apply_ite Check.pass _ _ _).symm
    · simp only [hright, if_false, Bool.false_eq_true]
      rfl
  | anchorOwned | log | view | viewSpare => rfl

/-- A write that passes its check goes to memory or awaits a verdict (R148, R151). -/
theorem Path.check_write_pass {m : Mark} (h : p.check .write q = .pass m) : m = .awaiting ∨ m = .forwarded := by
  rw [Path.check_write (Path.one_region_of_pass h), Path.checkWrite_eq] at h
  cases hfault : p.writeFault q (p.region q.addr.toNat) with
  | some f =>
    rw [hfault] at h
    exact Check.noConfusion h
  | none =>
    rw [hfault] at h
    rw [← Check.pass.inj h]
    exact ite_eq_or_eq _ _ _

/-- What a write's check sends tells how its entry is marked, and no pending rewrite holds the entry (R149, R151, R156). -/
theorem Path.check_write_cases (p : Path) (q : Request) (w : Wires) (rs : List PendingRewrite) :
    let c := p.check .write q
    (c.mark = .refused ↔ (c.send .write q p.nextId w).faults ≠ w.faults) ∧
      (c.mark = .awaiting ↔ (c.send .write q p.nextId w).verdictAsks ≠ w.verdictAsks) ∧
      (c.mark = .refused ∨ c.mark = .awaiting ∨ c.mark = .forwarded) ∧
      (p.entryFor .write q c.mark).overlaps rs = false := by
  intro c
  cases hc : c with
  | refuse f => exact ⟨by simp [Check.mark, Check.send], by simp [Check.mark, Check.send], .inl rfl, rfl⟩
  | pass m =>
    rcases Path.check_write_pass hc with rfl | rfl
    · exact ⟨by simp [Check.mark, Check.send], by simp [Check.mark, Check.send, verdictAsksFor], .inr (.inl rfl), rfl⟩
    · exact ⟨by simp [Check.mark, Check.send], by simp [Check.mark, Check.send, verdictAsksFor], .inr (.inr rfl), rfl⟩

end

theorem refusalFault_read (f : FaultKind) (q : Request) : refusalFault f .read q =
    { source := q.source, kind := f, detailA := BitVec.ofNat 16 (256 * q.beats)
      detailB := BitVec.ofNat 64 q.addr.toNat } := by
  simp only [refusalFault, ReqKind.code, Nat.zero_add]

theorem newlyHeld_append_write (rs : List PendingRewrite) (xs : List PassEntry) {e : PassEntry}
    (he : e.overlaps rs = false) : newlyHeld rs (xs ++ [e]) = newlyHeld rs xs := by
  simp [newlyHeld, he]

/-- Requests held off are taken one by one as if presented anew (R143). -/
theorem State.takeHeld_cons {s : State} (hroom : s.path.queue.length < 32) (h : HeldOff) (rest : List HeldOff) :
    let t := State.takeOne { s with path := { s.path with heldOff := [] } } h.kind h.req
    State.takeHeld { s with path := { s.path with heldOff := h :: rest } } =
      State.takeHeld { t with path := { t.path with heldOff := rest } } := by
  intro t
  have hleft : State.takeHeld { s with path := { s.path with heldOff := h :: rest } } =
      takeHeldOff (h :: rest) s := takeHeldOff_heldOff (h :: rest) s (h :: rest)
  have hright : State.takeHeld { t with path := { t.path with heldOff := rest } } = takeHeldOff rest t :=
    takeHeldOff_heldOff rest t rest
  have ht : takeHeldOff rest t = takeHeldOff rest (s.takeOne h.kind h.req) :=
    (congrArg (takeHeldOff rest) (State.takeOne_heldOff s [] h.kind h.req)).trans (takeHeldOff_heldOff _ _ _)
  rw [hleft, hright, ht, takeHeldOff, if_pos hroom]

theorem State.takeHeld_idle {s : State} (h : s.path.heldOff = [] ∨ 32 ≤ s.path.queue.length) : s.takeHeld = s := by
  rcases h with hnone | hfull
  · exact State.takeHeld_nil hnone
  · cases hheld : s.path.heldOff with
    | nil => exact State.takeHeld_nil hheld
    | cons x rest =>
      unfold State.takeHeld
      rw [hheld, takeHeldOff, if_neg (Nat.not_lt.mpr hfull), ← hheld]

/-- Settles O58: a request formed, outside reset and with room, is `State.takeOne`, whose check is stated class by class;
`State.takeOne_path` and `State.takeOne_settledInto` say what it leaves of the path. -/
theorem requestsAreChecked : Obligations.RequestsAreChecked := by
  refine ⟨fun q s => ⟨exec_busRead_unformed, fun hq hwait => ?_, fun hq hr hroom => ?readAnswer,
      fun hq hr hroom => ?readPath, fun l hregion => ?_, fun l hregion => ?_⟩,
    fun q s => ⟨exec_busWrite_unformed, fun hq hwait => ?_, fun hq hr hroom => ?writeAnswer,
      fun hq hr hroom => ?writePath, fun hregion htouch => ?_, fun hregion hgroup => ?_⟩,
    fun h rest s hr hroom hformed => ?_, fun s => State.takeHeld_idle⟩
  · rw [exec_busRead hq, State.request_waits hwait]
  case readAnswer =>
    intro first viewRead fault alone
    have hfault : fault = (s.path.check .read q).fault := by
      rw [Path.check_read_fault]
      refine if_congr Iff.rfl rfl ?_
      simp only [first, viewRead]
      cases s.path.region q.addr.toNat
      case view | viewSpare =>
        by_cases hright : (s.path.entry q.source).rights.viewRead = true <;> simp [hright, Region.inAperture]
      all_goals rfl
    have hfirst : first = s.path.region q.addr.toNat := rfl
    clear_value fault first
    obtain ⟨hid, hrefused, hwires⟩ := s.takeOne_counts .read q rfl
    refine ⟨_, exec_busRead_taken hq hr hroom, hid, by simp only [State.takeOne_frame], ?_⟩
    rw [hfault]
    cases hc : s.path.check .read q with
    | refuse f =>
      rw [hc] at hrefused hwires
      refine ⟨hrefused, ?_, fun ⟨hqueue, hslots⟩ => State.takeOne_answered hc rfl hqueue hslots⟩
      rw [hwires, Check.send, refusalFault_read]
    | pass m =>
      have hm := Path.check_read_pass hc
      rw [hc] at hrefused hwires
      refine ⟨hrefused, ?_, ?_⟩
      · rw [hwires, Check.send, hm, Path.readMark_asks, List.append_nil]
      · have hqueued (hlocal : (s.path.entryFor .read q m).isLocal = false) := State.takeOne_queued hc hlocal
        rw [← hfirst] at hm hqueued
        cases first
        case view l v =>
          intro map w o hmap hwindow
          obtain ⟨hat, hmark⟩ := Path.view_translated hmap hwindow
          rw [← hat] at hmark ⊢
          obtain rfl : m = .translated _ := hm.trans hmark
          exact hqueued rfl
        case viewSpare =>
          obtain rfl : m = .localZeros := hm
          exact fun ⟨hqueue, hslots⟩ => State.takeOne_answered hc rfl hqueue hslots
        all_goals
          obtain rfl : m = .forwarded := hm
          obtain ⟨e, he, heid, hekind, hereq, heregion, -, hemark⟩ := hqueued rfl
          exact ⟨e, he, heid, hekind, hereq, heregion, hemark⟩
  case readPath =>
    intro first viewRead refused
    have hrefused : refused = (s.path.check .read q).fault.isSome := by
      rw [Path.check_read_fault]
      by_cases hspan : s.path.region q.addr.toNat = s.path.region q.lastByte
      · simp only [refused, first, ne_eq, hspan, not_true, decide_false, Bool.false_or, if_false]
        cases s.path.region q.lastByte
        case view | viewSpare =>
          by_cases hright : (s.path.entry q.source).rights.viewRead = true <;> simp [viewRead, hright, Region.inAperture]
        all_goals rfl
      · simp [refused, first, hspan]
    have hpassed (h : refused = false) : (s.path.check .read q).mark = s.path.readMark q first := by
      cases hc : s.path.check .read q with
      | refuse f => rw [hrefused, hc] at h; exact absurd h Bool.noConfusion
      | pass m => exact Path.check_read_pass hc
    refine ⟨_, s.path.entryFor .read q (s.path.check .read q).mark, exec_busRead_taken hq hr hroom, rfl, rfl, rfl, rfl, rfl,
      ?_, fun h => ?_, by rw [State.takeOne_eq], s.takeOne_path .read q, State.takeOne_settledInto rfl⟩
    · clear_value refused first
      cases first
      case view l v =>
        intro map w o h hmap hwindow
        obtain ⟨hat, hmark⟩ := Path.view_translated hmap hwindow
        exact ⟨hat, (hpassed h).trans hmark⟩
      all_goals exact hpassed
    · cases hc : s.path.check .read q with
      | refuse f => rfl
      | pass m => rw [hrefused, hc] at h; exact absurd h Bool.noConfusion
  · exact ⟨_, congrArg Host.Outcome.next (if_pos (by simp [Path.isViewRead, hregion])), rfl⟩
  · exact ⟨_, congrArg Host.Outcome.next (if_pos (by simp [Path.isViewRead, hregion])), rfl⟩
  · rw [exec_busWrite hq, State.request_waits hwait]
  case writeAnswer =>
    intro first e counting fault waits alone
    have hcheck : s.path.check .write q = fault.elim (.pass (if waits then .awaiting else .forwarded)) .refuse := by
      by_cases hspan : s.path.region q.addr.toNat = s.path.region q.lastByte
      · rw [Path.check_write hspan, Path.checkWrite_eq]
        simp only [fault, waits, first, ne_eq, hspan, not_true, if_false]
        cases s.path.region q.lastByte <;> rfl
      · rw [Path.check_spansTwo hspan]
        simp only [fault, first, ne_eq, hspan, not_false_eq_true, if_true, Option.elim_some]
    have hfirst : s.path.region q.addr.toNat = first := rfl
    clear_value fault first waits
    obtain ⟨hid, hrefused, hwires⟩ := s.takeOne_counts .write q hcheck
    refine ⟨_, exec_busWrite_taken hq hr hroom, hid, by simp only [State.takeOne_frame], ?_⟩
    cases fault with
    | some f => exact ⟨hrefused, hwires, fun ⟨hqueue, hslots⟩ => State.takeOne_answered hcheck rfl hqueue hslots⟩
    | none =>
      have hwire : verdictAsksFor (if waits then .awaiting else .forwarded) s.path.nextId q =
          if waits then [{ id := s.path.nextId, req := q }] else [] := by cases waits <;> rfl
      have hlocal : (s.path.entryFor .write q (if waits then .awaiting else .forwarded)).isLocal = false := by
        cases waits <;> rfl
      obtain ⟨x, hx, hxid, hxkind, hxreq, hxregion, -, hxmark⟩ := State.takeOne_queued hcheck hlocal
      exact ⟨hrefused, hwires.trans (by rw [← hwire]; rfl), x, hx, hxid, hxkind, hxreq, hxregion.trans hfirst, hxmark⟩
  case writePath =>
    have hpath := s.takeOne_path .write q
    obtain ⟨-, -, hwires⟩ := s.takeOne_counts .write q rfl
    obtain ⟨hfaults, hasks, hmark, hoverlaps⟩ := s.path.check_write_cases q s.wires s.path.rewrites
    rw [newlyHeld_append_write _ _ hoverlaps] at hpath
    rw [← hwires] at hfaults hasks
    exact ⟨_, s.path.entryFor .write q (s.path.check .write q).mark, exec_busWrite_taken hq hr hroom, rfl, rfl, rfl, rfl,
      rfl, hfaults, hasks, hmark, by rw [State.takeOne_eq], hpath, State.takeOne_settledInto rfl⟩
  · exact ⟨_, congrArg Host.Outcome.next (if_pos (by simp [Path.isPostWrite, Path.touchesPost, hregion, htouch])), rfl⟩
  · exact ⟨_, congrArg Host.Outcome.next (if_pos (by simp [Path.isSeqWrite, hregion, hgroup])), rfl⟩
  · obtain ⟨kind, q⟩ := h
    refine ⟨State.takeOne { s with path := { s.path with heldOff := [] } } kind q, ?_, State.takeHeld_cons hroom _ rest⟩
    cases kind
    · exact exec_busRead_taken hformed hr hroom
    · exact exec_busWrite_taken hformed hr hroom

end Sys2Proof.Machine
end

section
/-! The M-port and memory behind it: what a write leaves in memory, what the entries that leave take with them, and memory's
answers (R143, R144, R153 to R158, R160, R161, R163, R167); with them O60. -/

namespace Sys2Proof.Machine

/-! ### Memory byte by byte (R143, R144) -/

theorem readBytes_eq (m : List Host.Cell) (n : Nat) : ∀ a, readBytes m a n = (List.range' a n).map (readByte m) := by
  induction n with
  | zero => exact fun _ => rfl
  | succ n ih =>
    intro a
    rw [readBytes, ih, List.range'_succ, List.map_cons]

/-- A write leaves each enabled byte of its span as written, and every other byte as it was. -/
theorem readByte_writeBytes {es : List Bool} {ds : List Byte} (hlen : es.length = ds.length) {m : List Host.Cell} {a x : Nat}
    (hm : Memory.wf m = true) : readByte (writeBytes m a es ds) x =
      if a ≤ x ∧ x < a + ds.length ∧ es.getD (x - a) false = true then ds.getD (x - a) 0 else readByte m x := by
  induction es generalizing m a ds with
  | nil => simp [writeBytes]
  | cons e es ih =>
    cases ds with
    | nil => cases hlen
    | cons d ds =>
      have hnext : Memory.wf (if e then writeByte m a d else m) = true := by
        split
        · exact Memory.wf_writeByte _ _ _ hm
        · exact hm
      have hother (hx : x ≠ a) : readByte (if e then writeByte m a d else m) x = readByte m x := by
        split
        · exact readByte_writeByte_other _ _ _ _ hx
        · rfl
      rw [writeBytes, ih (Nat.succ.inj hlen) hnext, List.length_cons]
      rcases Nat.lt_trichotomy x a with hlt | rfl | hgt
      · rw [hother hlt.ne, if_neg fun h => absurd h.1 (by omega), if_neg fun h => absurd h.1 (by omega)]
      · rw [if_neg fun h => absurd h.1 (by omega), Nat.sub_self]
        cases e with
        | true => simp [readByte_writeByte_same _ _ _ hm]
        | false => simp
      · obtain ⟨k, rfl⟩ : ∃ k, x = a + 1 + k := ⟨x - (a + 1), by omega⟩
        have hk : a + 1 + k - a = k + 1 := by omega
        rw [hother hgt.ne', hk, Nat.add_sub_cancel_left, List.getD_cons_succ, List.getD_cons_succ]
        exact if_congr (and_congr (by omega) (and_congr_left' (by omega))) rfl rfl

/-! ### The bytes a write carries (R143) -/

theorem mem_enabledFrom {x : Nat} {es : List Bool} : ∀ {a : Nat},
    x ∈ enabledFrom a es ↔ a ≤ x ∧ es.getD (x - a) false = true := by
  induction es with
  | nil => simp [enabledFrom]
  | cons e es ih =>
    intro a
    have hrest : x ∈ enabledFrom (a + 1) es ↔ a < x ∧ (e :: es).getD (x - a) false = true := by
      rw [ih]
      refine and_congr_right fun hx => ?_
      rw [show x - a = x - (a + 1) + 1 by omega, List.getD_cons_succ]
    unfold enabledFrom
    split
    · next he =>
      rw [List.mem_cons, hrest]
      constructor
      · rintro (rfl | ⟨hx, hbit⟩)
        · simpa using he
        · exact ⟨hx.le, hbit⟩
      · rintro ⟨hx, hbit⟩
        exact hx.eq_or_lt.imp Eq.symm fun hlt => ⟨hlt, hbit⟩
    · next he =>
      rw [hrest]
      refine ⟨fun ⟨hx, hbit⟩ => ⟨hx.le, hbit⟩, fun ⟨hx, hbit⟩ => ⟨lt_of_le_of_ne hx ?_, hbit⟩⟩
      rintro rfl
      simp [he] at hbit

theorem Request.byteFor_isSome (q : Request) (a : Nat) : (q.byteFor a).isSome = true ↔ a ∈ q.enabledBytes := by
  rw [Request.enabledBytes, mem_enabledFrom, Request.byteFor]
  split
  · next h => exact iff_of_true rfl h
  · next h => exact iff_of_false Bool.false_ne_true h

/-- A write touches n bytes exactly when it carries one of them. -/
theorem Request.touches_iff (q : Request) (a n : Nat) :
    q.touches a n = true ↔ ∃ i < n, (q.byteFor (a + i)).isSome = true := by
  simp only [Request.touches, List.any_eq_true, Bool.and_eq_true, decide_eq_true_eq, Request.byteFor_isSome]
  constructor
  · rintro ⟨x, hx, hle, hlt⟩
    exact ⟨x - a, by omega, by rwa [Nat.add_sub_cancel' hle]⟩
  · rintro ⟨i, hi, hx⟩
    exact ⟨a + i, hx, by omega, by omega⟩

theorem Request.overlay_length (q : Request) (old : List Byte) : ∀ a, (q.overlay a old).length = old.length := by
  induction old with
  | nil => exact fun _ => rfl
  | cons b rest ih => exact fun a => congrArg Nat.succ (ih (a + 1))

theorem Request.overlay_getElem? (q : Request) (old : List Byte) : ∀ a i : Nat,
    (q.overlay a old)[i]? = old[i]?.map fun b => (q.byteFor (a + i)).getD b := by
  induction old with
  | nil => exact fun _ _ => rfl
  | cons b rest ih =>
    intro a i
    cases i with
    | zero => rfl
    | succ i =>
      rw [Request.overlay, List.getElem?_cons_succ, List.getElem?_cons_succ, ih, Nat.add_assoc, Nat.add_comm 1 i]

/-- A word with a write's enabled bytes replaced, byte by byte (R151). -/
theorem Request.overlayWord_bytes (q : Request) (a : Nat) (old : Word32) (i : Nat) :
    (le 4 (q.overlayWord a old).toNat)[i]? = (le 4 old.toNat)[i]?.map fun b => (q.byteFor (a + i)).getD b := by
  rw [Request.overlayWord, le_ofNat_fromLe (by rw [Request.overlay_length, le_length]), Request.overlay_getElem?]

theorem mirrorBytes_getElem? (anchor : Nat) (g : GroupId) (q : Request) (image : List Byte) : ∀ o i : Nat,
    (mirrorBytes anchor g q o image)[i]? = image[i]?.map fun b =>
      if g.isField (o + i) || isSeqByte (o + i) then (q.byteFor (anchor + g.base + (o + i))).getD b else b := by
  induction image with
  | nil => exact fun _ _ => rfl
  | cons b rest ih =>
    intro o i
    cases i with
    | zero => rfl
    | succ i =>
      rw [mirrorBytes, List.getElem?_cons_succ, List.getElem?_cons_succ, ih, Nat.add_assoc, Nat.add_comm 1 i]

/-- A configuration write reaches every group's place in the mirror, and each once (R153). -/
theorem mirrorGroup_all (anchor : Nat) (q : Request) (m : Vector (Option GroupMirror) 5) (g : GroupId) :
    (allGroups.foldl (mirrorGroup anchor q) m)[g.idx] =
      m[g.idx].map fun x => { image := mirrorBytes anchor g q 0 x.image } := by
  cases g <;> simp [allGroups, mirrorGroup, upd, GroupId.idx]

/-! ### The ring positions a take read covers (R155) -/

/-- Two ranges that both hold whatever passes a test give the same items. -/
theorem filter_range_eq_filter_range' {p : Nat → Bool} {n a k : Nat}
    (h : ∀ x, p x = true → x < n ∧ a ≤ x ∧ x < a + k) :
    (List.range n).filter p = (List.range' a k).filter p := by
  refine List.Pairwise.eq_of_mem_iff (r := (· < ·)) (List.pairwise_lt_range.filter _)
    ((List.pairwise_lt_range' (step := 1)).filter _) fun x => ?_
  simp only [List.mem_filter, List.mem_range, List.mem_range'_1]
  exact and_congr_left fun hx => by have := h x hx; omega

theorem coveredPositions_eq (l : LogId) (o n : Nat) : coveredPositions l o n = positionsWithin l.entrySize o n := by
  have hend (x : Nat) : x * l.entrySize + l.entrySize = (x + 1) * l.entrySize := (Nat.succ_mul _ _).symm
  have hword (x : Nat) : x * l.entrySize + l.entrySize - 4 = x * l.entrySize + (l.entrySize - 4) := by cases l <;> rfl
  unfold coveredPositions positionsWithin
  simp only [← hend, hword]
  refine (filter_range_eq_filter_range' fun x hx => ?_).symm
  simp only [Bool.and_eq_true, decide_eq_true_eq] at hx
  cases l <;> simp only [LogId.entrySize] at hx ⊢ <;> omega

theorem releasesOf_eq (e : PassEntry) : releasesOf e =
    match e.mark, e.region with
    | .translated _, .view l .take =>
      if (positionsWithin l.entrySize e.viewAt e.req.span).isEmpty then []
      else [{ log := l, positions := positionsWithin l.entrySize e.viewAt e.req.span }]
    | _, _ => [] := by
  unfold releasesOf
  cases e.mark
  case translated =>
    cases e.region
    case view l v =>
      cases v
      case take =>
        simp only [coveredPositions_eq]
        cases positionsWithin l.entrySize e.viewAt e.req.span <;> rfl
      case peek => rfl
    all_goals rfl
  all_goals rfl

/-! ### An entry of the pass-through queue leaves (R144, R153, R155) -/

/-- The byte that a leaving entry writes at an address, if any (R143). -/
def PassEntry.carries (e : PassEntry) (a : Nat) : Option Byte :=
  match e.kind with
  | .read => none
  | .write => e.req.byteFor a

/-- The part once the copy of a leaving entry has gone on by its class (R153). -/
def State.copied (s : State) (e : PassEntry) : State :=
  match e.kind with
  | .read => s
  | .write => copyOn e s

/-- What memory is to answer a leaving entry with (R144). -/
def PassEntry.answer (e : PassEntry) (m : List Host.Cell) : MemTxn :=
  { dest := .source e.id
    data := match e.kind with
      | .read => (List.range' e.target e.req.span).map (readByte m)
      | .write => [] }

/-- The part once a ready entry has left the pass-through queue, before requests held off are taken (R144, R153, R155). -/
def State.passLeft (s : State) (e : PassEntry) (rest : List PassEntry) : State :=
  { s with
    mem := e.stored s.mem
    cmd := (s.copied e).cmd
    path := Path.settle { s.path with
      queue := rest, marker := .pass, forwarded := min 4294967295 (s.path.forwarded + 1)
      atMemory := s.path.atMemory ++ [e.answer s.mem] }
    wires := { (s.copied e).wires with releases := s.wires.releases ++ releasesOf e } }

theorem copyCommand_eq (q : Request) (s : State) : copyCommand q s = { s with
    cmd := { s.cmd with post := q.overlayWord (s.path.anchorBase + postAt) s.cmd.post }
    wires := { s.wires with
      seenWrites := s.wires.seenWrites ++
        (if q.touches (s.path.anchorBase + seenAt) 4 then [seenWriteOf s.path.anchorBase q] else []) } } := by
  unfold copyCommand
  dsimp only
  split
  · rfl
  · rw [List.append_nil]

/-- The copy of a leaving entry changes the post word, the mirror, and two wires alone (R153). -/
theorem State.copied_parts (s : State) (e : PassEntry) : s.copied e = { s with
    cmd := { s.cmd with post := (s.copied e).cmd.post, mirror := (s.copied e).cmd.mirror }
    wires := { s.wires with
      landing := (s.copied e).wires.landing, seenWrites := (s.copied e).wires.seenWrites } } := by
  unfold State.copied copyOn
  cases e.kind with
  | read => rfl
  | write =>
    cases e.region
    case anchorCommand => simp only [copyCommand_eq]
    all_goals rfl

section
variable (s : State) (e : PassEntry)

/-- The bytes of the post word with those of a leaving write to the command area in their place (R151, R153). -/
theorem State.copied_post (i : Nat) : (le 4 (s.copied e).cmd.post.toNat)[i]? = (le 4 s.cmd.post.toNat)[i]?.map fun b =>
    if e.region = .anchorCommand then (e.carries (s.path.anchorBase + postAt + i)).getD b else b := by
  unfold State.copied copyOn PassEntry.carries
  cases e.kind with
  | read => simp
  | write =>
    cases e.region
    case anchorCommand => simp [copyCommand_eq, Request.overlayWord_bytes]
    all_goals simp [copyConfig]

/-- The field and sequence bytes of every group's place in the mirror with those of a leaving write to the configuration
area in their place (R153, R166). -/
theorem State.copied_mirror (g : GroupId) :
    ((s.copied e).cmd.mirror[g.idx]).isSome = (s.cmd.mirror[g.idx]).isSome ∧
      ∀ x y, s.cmd.mirror[g.idx] = some x → (s.copied e).cmd.mirror[g.idx] = some y →
        ∀ o : Nat, y.image[o]? = x.image[o]?.map fun b =>
          if e.region = .anchorConfig ∧ (g.isField o = true ∨ isSeqByte o = true) then
            (e.carries (s.path.anchorBase + g.base + o)).getD b
          else b := by
  unfold State.copied copyOn PassEntry.carries
  cases e.kind with
  | read => exact ⟨rfl, fun x y hx hy o => by simp [Option.some.inj (hx.symm.trans hy)]⟩
  | write =>
    cases e.region
    case anchorConfig =>
      simp only [copyConfig, mirrorGroup_all, Option.isSome_map, true_and]
      intro x y hx hy o
      rw [hx] at hy
      rw [← Option.some.inj hy]
      simp [mirrorBytes_getElem?]
    case anchorCommand =>
      rw [copyCommand_eq]
      exact ⟨rfl, fun x y hx hy o => by simp [Option.some.inj (hx.symm.trans hy)]⟩
    all_goals exact ⟨rfl, fun x y hx hy o => by simp [Option.some.inj (hx.symm.trans hy)]⟩

/-- The seen word's bytes that a leaving write to the command area carries go on as a write of their own (R153, R161). -/
theorem State.copied_seen :
    let seen := (List.range 4).map fun i => e.carries (s.path.anchorBase + seenAt + i)
    (s.copied e).wires.seenWrites = s.wires.seenWrites ++
      if e.region = .anchorCommand ∧ seen.any Option.isSome = true then
        [{ enables := seen.map Option.isSome, data := seen.map fun b => b.getD 0 }]
      else [] := by
  unfold State.copied copyOn PassEntry.carries
  cases e.kind with
  | read => simp
  | write =>
    cases e.region
    case anchorCommand =>
      rw [copyCommand_eq]
      refine congrArg (s.wires.seenWrites ++ ·) (if_congr ?_ rfl rfl)
      simp [Request.touches_iff]
    all_goals simp [copyConfig]

theorem State.copied_landing : (s.copied e).wires.landing =
    match e.kind, e.region with
    | .write, .landing k => upd s.wires.landing k fun l => l ++
        [{ source := e.req.source, addr := e.req.addr.toNat, span := e.req.span, enables := e.req.enables,
           data := e.req.data }]
    | _, _ => s.wires.landing := by
  unfold State.copied copyOn
  cases e.kind with
  | read => rfl
  | write =>
    cases e.region
    case anchorCommand => simp only [copyCommand_eq]
    all_goals rfl

end

theorem passEffect_eq (e : PassEntry) (s : State) : passEffect e s = { s.copied e with
    mem := e.stored s.mem
    path := { s.path with atMemory := s.path.atMemory ++ [e.answer s.mem] } } := by
  obtain ⟨id, kind, req, region, mark, viewAt, held⟩ := e
  cases kind with
  | read =>
    unfold passEffect
    simp only [readBytes_eq]
    rfl
  | write =>
    cases region
    case anchorCommand => simp only [passEffect, State.copied, copyOn, copyCommand_eq]; rfl
    all_goals rfl

/-- The copy of a leaving entry does not look at the queue it leaves (R153). -/
theorem State.copied_leaving (s : State) (e : PassEntry) (rest : List PassEntry) (n : Nat) :
    State.copied { s with path := { s.path with queue := rest, marker := .pass, forwarded := n } } e =
      { s.copied e with path := { s.path with queue := rest, marker := .pass, forwarded := n } } := by
  unfold State.copied copyOn
  cases e.kind with
  | read => rfl
  | write =>
    cases e.region
    case anchorCommand => simp only [copyCommand_eq]
    all_goals rfl

theorem sendPass_eq (e : PassEntry) (rest : List PassEntry) (s : State) :
    sendPass e rest s = (s.passLeft e rest).takeHeld := by
  unfold sendPass State.passLeft
  rw [passEffect_eq, State.copied_leaving, State.copied_parts]
  rfl

/-- What leaves with an entry does not look at the requests held off (R143). -/
theorem State.passLeft_heldOff (s : State) (hs : List HeldOff) (e : PassEntry) (rest : List PassEntry) :
    State.passLeft { s with path := { s.path with heldOff := hs } } e rest =
      { s.passLeft e rest with path := { (s.passLeft e rest).path with heldOff := hs } } := by
  have hcopied : State.copied { s with path := { s.path with heldOff := hs } } e =
      { s.copied e with path := { s.path with heldOff := hs } } := by
    unfold State.copied copyOn
    cases e.kind with
    | read => rfl
    | write =>
      cases e.region
      case anchorCommand => simp only [copyCommand_eq]
      all_goals rfl
  have hsettle := Path.settle_heldOff { s.path with
    queue := rest, marker := .pass, forwarded := min 4294967295 (s.path.forwarded + 1)
    atMemory := s.path.atMemory ++ [e.answer s.mem] } hs
  unfold State.passLeft
  rw [hcopied]
  exact congrArg (fun p : Path => { s.passLeft e rest with path := p }) hsettle

section
variable {s : State} {e : PassEntry} {rest : List PassEntry}

theorem exec_mPortSend_pass (hr : s.inReset = false) (hready : readyEntry [] s.path.queue = some (e, rest))
    (hturn : s.path.internal = [] ∨ s.path.marker = .internal) :
    exec .mPortSend s = .next (s.passLeft e rest).takeHeld := by
  rw [← sendPass_eq, ← mPortSend_pass hready hturn]
  exact congrArg Host.Outcome.next (live_out hr)

/-- What a leaving entry changes of the path (R144, R157, R158). -/
theorem State.passLeft_path (s : State) (e : PassEntry) (rest : List PassEntry) :
    let t := s.passLeft e rest
    t.path = { s.path with
      queue := t.path.queue, slots := t.path.slots, returned := t.path.returned, marker := .pass
      forwarded := min 4294967295 (s.path.forwarded + 1), atMemory := s.path.atMemory ++ [e.answer s.mem] } := by
  intro t
  simp only [t, State.passLeft]
  rw [Path.settle_parts]

end

/-! ### A transaction of the part leaves (R156, R157, R161, R167) -/

/-- The announcement that a placed transaction makes, if it is a rewrite (R156). -/
def Txn.announcement (x : Txn) : Option PendingRewrite :=
  match x.tag with
  | .rewrite id p => some { id := id, position := p }
  | _ => none

theorem State.takeIn_eq (s : State) (x : Txn) : s.takeIn x = { s with
    path := { s.path with internal := s.path.internal ++ [x] }
    wires := { s.wires with announcements := s.wires.announcements ++ [x].filterMap Txn.announcement } } := by
  unfold State.takeIn
  have hann : [x].filterMap Txn.announcement = x.announcement.toList := by
    cases h : x.announcement <;> simp [h]
  rw [hann, Txn.announcement]
  cases x.tag
  case rewrite => rfl
  all_goals simp

/-- The transactions that take the room an internal queue leaves: the first that waits, the Record Writer's before the
Command Unit's (R157). -/
def State.nextPlaced (s : State) : List Txn :=
  (s.writer.waiting ++ s.cmd.waiting).take (if s.path.internal.length < 16 then 1 else 0)

/-- The part once waiting transactions have been placed in the internal queue (R157). -/
def State.placing (s : State) (placed : List Txn) : State :=
  { s with
    path := { s.path with internal := s.path.internal ++ placed }
    writer := { s.writer with waiting := s.writer.waiting.drop placed.length }
    cmd := { s.cmd with
      waiting := if s.writer.waiting = [] then s.cmd.waiting.drop placed.length else s.cmd.waiting }
    wires := { s.wires with announcements := s.wires.announcements ++ placed.filterMap Txn.announcement } }

theorem State.placing_nil (s : State) : s.placing [] = s := by
  simp [State.placing]

theorem State.refill_eq (s : State) : s.refill = s.placing s.nextPlaced := by
  unfold State.refill State.nextPlaced
  split
  · cases hw : s.writer.waiting with
    | cons x rest =>
      simp [State.takeIn_eq, State.placing, hw]
    | nil =>
      cases hc : s.cmd.waiting with
      | cons x rest =>
        dsimp only
        rw [State.takeIn_eq]
        simp [State.placing, hw, hc]
        rw [← hw]
      | nil => exact (s.placing_nil).symm
  · exact (s.placing_nil).symm

/-- What memory is to answer a leaving transaction of the part with (R144, R157). -/
def Txn.answer (x : Txn) (m : List Host.Cell) : MemTxn :=
  { dest := match x.tag with
      | .slotRead => .slotRead
      | .areaRead => .areaRead
      | _ => .writer
    data := if x.write then [] else (List.range' x.addr x.span).map (readByte m) }

theorem txnMemory_eq (x : Txn) (s : State) : txnMemory x s = { s with
    mem := x.stored s.mem
    path := { s.path with atMemory := s.path.atMemory ++ [x.answer s.mem] } } := by
  obtain ⟨tag, a, n, write, es, ds⟩ := x
  unfold txnMemory Txn.answer
  rw [readBytes_eq]
  cases write <;> cases tag <;> rfl

/-- The part once a transaction has left the internal queue, before waiting ones take its room (R157). -/
def State.txnLeft (s : State) (x : Txn) (xs : List Txn) : State :=
  txnEffect x (txnMemory x { s with path := { s.path with internal := xs, marker := .internal } })

section
variable (s : State) (x : Txn) (xs : List Txn)

/-- What a transaction that leaves the internal queue changes (R156, R157, R161, R167). -/
theorem State.txnLeft_parts :
    let t := s.txnLeft x xs
    t = { s with
      mem := x.stored s.mem
      path := { s.path with
        internal := xs, marker := .internal, queue := t.path.queue, rewrites := t.path.rewrites
        atMemory := s.path.atMemory ++ [x.answer s.mem] }
      writer := { s.writer with
        attn := t.writer.attn
        lastCompletion := (match x.tag with | .completionWord v => v | _ => s.writer.lastCompletion)
        logs := (match x.tag with
          | .entrySeq l gen =>
            if s.writer.logs[l.idx].gen = gen then
              upd s.writer.logs l.idx fun g => { g with written := g.written + 1 }
            else s.writer.logs
          | _ => s.writer.logs) } } := by
  unfold State.txnLeft
  rw [txnMemory_eq]
  unfold txnEffect
  cases x.tag
  case entrySeq l gen =>
    unfold entryWritten
    dsimp only
    split <;> rfl
  all_goals rfl

/-- A rewrite that leaves is pending no longer, and the reads that met it alone are held no longer; any other transaction
leaves both as they were (R156). -/
theorem State.txnLeft_holds :
    let t := s.txnLeft x xs
    match x.tag with
    | .rewrite id _ =>
      t.path.rewrites = (s.path.rewrites.filter fun r => decide (r.id ≠ id)) ∧
        t.path.queue = s.path.queue.map fun e => { e with held := e.held && e.overlaps t.path.rewrites }
    | _ => t.path.rewrites = s.path.rewrites ∧ t.path.queue = s.path.queue := by
  unfold State.txnLeft
  rw [txnMemory_eq]
  unfold txnEffect
  cases x.tag
  case entrySeq l gen =>
    unfold entryWritten
    dsimp only
    split <;> exact ⟨rfl, rfl⟩
  all_goals exact ⟨rfl, rfl⟩

theorem State.txnLeft_attnRight (h : s.attnRight) : (s.txnLeft x xs).attnRight := by
  unfold State.txnLeft
  rw [txnMemory_eq]
  unfold txnEffect
  cases x.tag
  case entrySeq l gen =>
    unfold entryWritten
    dsimp only
    split
    · exact State.evalAttn_attnRight _
    · exact h
  case completionWord => exact State.evalAttn_attnRight _
  all_goals exact h

theorem State.txnLeft_queue_length : (s.txnLeft x xs).path.queue.length = s.path.queue.length := by
  have h := s.txnLeft_holds x xs
  cases htag : x.tag <;> simp only [htag] at h <;> simp [h]

end

section
variable {s : State} {x : Txn} {xs : List Txn}

theorem exec_mPortSend_internal (hr : s.inReset = false) (hint : s.path.internal = x :: xs)
    (hturn : readyEntry [] s.path.queue = none ∨ s.path.marker = .pass) :
    exec .mPortSend s = .next ((s.txnLeft x xs).placing (s.txnLeft x xs).nextPlaced) := by
  rw [← State.refill_eq]
  exact congrArg Host.Outcome.next ((live_out hr).trans (mPortSend_internal hint hturn))

end

/-! ### Memory's answers (R144, R157, R160, R163) -/

/-- One request of the C-port answered among others. -/
theorem Path.answer_slots {p : Path} {id : Nat} {k : SourceId} {r : Option Response} {before after : List ResponseSlot}
    (hslots : p.slots = before ++ { id := id, source := k, response := r } :: after)
    (huniq : ∀ x ∈ before ++ after, x.id ≠ id) (done : Bool) (data : List Byte) :
    (p.answer id done data).slots = before ++
      { id := id, source := k, response := some { source := k, done := done, data := data } } :: after := by
  have hkeep {xs : List ResponseSlot} (h : ∀ x ∈ xs, x.id ≠ id) : xs.map (fun x =>
      if x.id = id then { x with response := some { source := x.source, done := done, data := data } } else x) = xs :=
    (List.map_congr_left fun x hx => if_neg (h x hx)).trans (List.map_id' _)
  obtain ⟨hbefore, hafter⟩ := List.forall_mem_append.mp huniq
  rw [Path.answer, hslots, List.map_append, List.map_cons, hkeep hbefore, hkeep hafter]
  simp

theorem exec_memoryAnswer {m : MemTxn} {rest : List MemTxn} {s : State} (hr : s.inReset = false)
    (hmem : s.path.atMemory = m :: rest) :
    let popped : State := { s with path := { s.path with atMemory := rest } }
    exec .memoryAnswer s = .next (match m.dest with
      | .source id => { popped with path := (popped.path.answer id true m.data).respond }
      | .slotRead => slotData m.data popped
      | .areaRead => areaData m.data popped
      | .writer => popped) := by
  refine congrArg Host.Outcome.next ((live_out hr).trans ?_)
  unfold memoryAnswer
  rw [hmem] <;> rfl

/-- Settles O60: what leaves is `State.passLeft` or `State.txnLeft`, by the arbiter's turn; the clauses are what these two
change of the part, byte by byte where a copy is kept. -/
theorem portAndMemory : Obligations.PortAndMemory := by
  refine ⟨fun s hr => ?turns, fun s e rest hr hready hturn => ?pass, fun s x xs hr hint hturn => ?internal,
    fun m a es ds x hm hlen => readByte_writeBytes hlen hm, fun m rest s hr hmem => ?answer⟩
  case turns =>
    have hpassed {e : PassEntry} {rest : List PassEntry} :
        (s.passLeft e rest).takeHeld.path.marker = .pass ∧
          (s.passLeft e rest).takeHeld.path.forwarded = min 4294967295 (s.path.forwarded + 1) ∧
          (s.passLeft e rest).takeHeld.path.internal = s.path.internal ∧
          (s.passLeft e rest).takeHeld.mem = e.stored s.mem := by
      simp only [State.takeHeld_copies, State.takeHeld_frame]
      rw [State.passLeft_path]
      exact ⟨rfl, rfl, rfl, rfl⟩
    have hleft {x : Txn} {xs : List Txn} :
        let t := (s.txnLeft x xs).placing (s.txnLeft x xs).nextPlaced
        t.path.marker = .internal ∧ t.path.forwarded = s.path.forwarded ∧
          t.path.queue.length = s.path.queue.length ∧ t.mem = x.stored s.mem := by
      refine ⟨?_, ?_, s.txnLeft_queue_length x xs, ?_⟩ <;> simp only [State.placing] <;> rw [State.txnLeft_parts]
    cases hready : readyEntry [] s.path.queue with
    | none =>
      cases hint : s.path.internal with
      | nil => exact congrArg Host.Outcome.next ((live_out hr).trans (mPortSend_idle hready hint))
      | cons x xs =>
        obtain ⟨hmarker, hforwarded, -, hmem⟩ := hleft
        exact ⟨_, exec_mPortSend_internal hr hint (.inl hready), hmarker, hforwarded, hmem⟩
    | some er =>
      obtain ⟨e, rest⟩ := er
      obtain ⟨hmarker, hforwarded, hinternal, hmem⟩ := hpassed
      cases hint : s.path.internal with
      | nil => exact ⟨_, exec_mPortSend_pass hr hready (.inl hint), hmarker, hforwarded, hmem⟩
      | cons x xs =>
        by_cases hmark : s.path.marker = .internal
        · refine ⟨_, exec_mPortSend_pass hr hready (.inr hmark), ?_⟩
          rw [if_pos hmark]
          exact ⟨hmarker, hforwarded, hinternal.trans hint, hmem⟩
        · have hpass : s.path.marker = .pass := by cases h : s.path.marker <;> trivial
          refine ⟨_, exec_mPortSend_internal hr hint (.inr hpass), ?_⟩
          rw [if_neg hmark]
          exact hleft
  case pass =>
    have hheldOff : (s.passLeft e rest).path.heldOff = s.path.heldOff := by rw [State.passLeft_path]
    have hpath := congrArg (fun p : Path => { p with heldOff := [] }) (s.passLeft_path e rest)
    refine ⟨(s.passLeft e rest).takeHeld,
      { s.passLeft e rest with path := { (s.passLeft e rest).path with heldOff := [] } },
      exec_mPortSend_pass hr hready hturn, ?_, ?_, rfl, hpath, Path.settle_settledInto _,
      congrArg State.cmd (s.copied_parts e), fun i _ => s.copied_post e i, s.copied_mirror e, ?_⟩
    · refine (exec_mPortSend_pass (s := { s with path := { s.path with heldOff := [] } }) hr hready hturn).trans ?_
      rw [State.passLeft_heldOff, State.takeHeld_nil rfl]
    · rw [← hheldOff]
    · show ({ (s.copied e).wires with releases := s.wires.releases ++ releasesOf e } : Wires) = _
      rw [releasesOf_eq, congrArg State.wires (s.copied_parts e), s.copied_landing, s.copied_seen]
      rfl
  case internal =>
    have hleft := s.txnLeft_parts x xs
    have hholds := s.txnLeft_holds x xs
    have hright := s.txnLeft_attnRight x xs
    have hexec := exec_mPortSend_internal hr hint hturn
    have hnext : (s.txnLeft x xs).nextPlaced =
        (s.writer.waiting ++ s.cmd.waiting).take (if xs.length < 16 then 1 else 0) := by
      unfold State.nextPlaced
      rw [hleft]
    rw [← hnext]
    generalize (s.txnLeft x xs).nextPlaced = placed at *
    generalize s.txnLeft x xs = t at *
    refine ⟨t.placing placed, hexec, ?_, ?_, hholds, ?_, hright⟩ <;> rw [hleft] <;> rfl
  case answer =>
    refine ⟨fun n hdest hexec => ?_, fun n bytes hdest hexec => ?_, fun hdest => ?_,
      fun id k before after hdest hslots huniq => ⟨_, exec_memoryAnswer hr hmem, ?_⟩⟩
    · rw [exec_memoryAnswer hr hmem, hdest]
      simp only [slotData, hexec]
    · rw [exec_memoryAnswer hr hmem, hdest]
      simp only [areaData, hexec]
    · rw [exec_memoryAnswer hr hmem, hdest]
    · rw [hdest]
      have hanswered := Path.answer_slots (p := { s.path with atMemory := rest }) hslots huniq true m.data
      refine ⟨rfl, rfl, fun hold => ?_, fun hold => ?_⟩
      · refine List.mem_append_right _ ?_
        rw [hanswered]
        exact mem_returnable rfl List.not_mem_nil hold
      · simp only [Path.respond, hanswered]
        exact mem_returnable_kept (.inr hold)

end Sys2Proof.Machine
end

section
/-! Faults taken into the Fault Log, and the releases of log entries (R155, R156, R168 to R170, R172, R174); with them O52. -/

namespace Sys2Proof.Machine

/-! ### A fault taken (R170) -/

section
variable {b : FaultSender} {m : FaultMsg} {before after : List (FaultSender × FaultMsg)} {s : State} {o : OpenFault}
  {f : LogFields}

theorem exec_fault (hr : s.inReset = false) (hfaults : s.wires.faults = before ++ (b, m) :: after)
    (hbefore : ∀ x ∈ before, x.1 ≠ b) :
    exec (.fault b) s = .next (takeFault m { s with wires := { s.wires with faults := before ++ after } }) := by
  refine congrArg Host.Outcome.next ((live_out hr).trans ?_)
  have hfirst := takeFirst_append (p := fun x : FaultSender × FaultMsg => decide (x.1 = b)) (a := (b, m)) (later := after)
    (decide_eq_true rfl) fun x hx => decide_eq_false (hbefore x hx)
  rw [hfaults, hfirst]
  rfl

theorem Writer.openRecord_some {w : Writer} {k : SourceId} (ho : w.collapse[k] = some o)
    (hf : w.logs[LogId.fault.idx].fields = some f)
    (hopen : (o.count - w.logs[LogId.fault.idx].consumer).toNat < w.logs[LogId.fault.idx].unreleased) :
    w.openRecord k = some (o, f) := by
  simp only [Writer.openRecord, ho, hf, if_pos hopen]

theorem Writer.openRecord_none {w : Writer} {k : SourceId} (h : ∀ o, w.collapse[k] = some o →
      w.logs[LogId.fault.idx].unreleased ≤ (o.count - w.logs[LogId.fault.idx].consumer).toNat) :
    w.openRecord k = none := by
  unfold Writer.openRecord
  split
  · next o _ ho _ => exact if_neg (Nat.not_lt.mpr (h o ho))
  · rfl

end

/-- A write of the Record Writer: placed while there is room and none waits before it, and else waiting (R157). -/
theorem State.placeWrite_eq (s : State) (x : Txn) :
    let room : Bool := decide (s.path.internal.length < 16) && s.writer.waiting.isEmpty
    s.placeWrite x = { s with
      path := { s.path with internal := s.path.internal ++ if room then [x] else [] }
      writer := { s.writer with waiting := s.writer.waiting ++ if room then [] else [x] }
      wires := { s.wires with
        announcements := s.wires.announcements ++ if room then [x].filterMap Txn.announcement else [] } } := by
  intro room
  have hroom : s.path.internal.length < Config.internalQueueLimit ∧ s.writer.waiting.length = 0 ↔ room = true := by
    simp [room, Config.internalQueueLimit]
  unfold State.placeWrite
  rw [if_congr hroom rfl rfl, State.takeIn_eq]
  cases room <;> simp

theorem State.rewriteFault_eq (s : State) (f : LogFields) (o : OpenFault) :
    s.rewriteFault f o = State.placeWrite { s with writer := { s.writer with nextRewrite := s.writer.nextRewrite + 1 } }
      (Txn.body (.rewrite s.writer.nextRewrite (o.count.toNat % f.entries)) (f.base + o.count.toNat % f.entries * 32)
        o.record.image) := rfl

/-! ### A release (R168) -/

/-- How far above a log's consumer a ring position stands (R168). -/
def LogState.offset (g : LogState) (f : LogFields) (p : Nat) : Nat :=
  (p + f.entries - g.consumer.toNat % f.entries) % f.entries

section
variable {g : LogState} {f : LogFields} {ps : List Nat} {p : Nat}

theorem mem_releaseOffsets {d : Nat} : d ∈ releaseOffsets g f (ps.filter fun p => decide (p < f.entries)) ↔
    ∃ p ∈ ps, p < f.entries ∧ g.offset f p = d ∧ d < g.writtenCount := by
  simp only [releaseOffsets, List.mem_filter, List.mem_map, decide_eq_true_eq, and_assoc]
  constructor
  · rintro ⟨⟨p, hp, hlt, hd⟩, hw⟩
    exact ⟨p, hp, hlt, hd, hw⟩
  · rintro ⟨p, hp, hlt, hd, hw⟩
    exact ⟨⟨p, hp, hlt, hd⟩, hw⟩

theorem releaseTo_none (hf : g.fields = some f)
    (h : ∀ p ∈ ps, p < f.entries → g.writtenCount ≤ g.offset f p) : releaseTo g ps = none := by
  simp only [releaseTo, hf]
  split
  · rfl
  · next d ds hds =>
    obtain ⟨p, hp, hlt, rfl, hw⟩ := mem_releaseOffsets.mp (hds ▸ List.mem_cons_self)
    exact absurd hw (Nat.not_lt.mpr (h p hp hlt))

/-- The newest written, unreleased entry named sets the consumer just above it. -/
theorem releaseTo_newest (hf : g.fields = some f) (hp : p ∈ ps) (hlt : p < f.entries)
    (hw : g.offset f p < g.writtenCount)
    (hnewest : ∀ q ∈ ps, q < f.entries → g.offset f q < g.writtenCount → g.offset f q ≤ g.offset f p) :
    releaseTo g ps = some (g.consumer + BitVec.ofNat 32 (g.offset f p + 1)) := by
  have hmem := mem_releaseOffsets.mpr ⟨p, hp, hlt, rfl, hw⟩
  have hall : ∀ d ∈ releaseOffsets g f (ps.filter fun p => decide (p < f.entries)), d ≤ g.offset f p := by
    intro d hd
    obtain ⟨q, hq, hqlt, rfl, hqw⟩ := mem_releaseOffsets.mp hd
    exact hnewest q hq hqlt hqw
  simp only [releaseTo, hf]
  generalize releaseOffsets g f (ps.filter fun p => decide (p < f.entries)) = ds at hmem hall
  cases ds with
  | nil => cases hmem
  | cons d ds =>
    obtain ⟨hd, hds⟩ := List.forall_mem_cons.mp hall
    have hle : ∀ x ∈ d :: ds, x ≤ ds.foldl max d := List.forall_mem_cons.mpr ((foldl_max_le_iff ds d _).mp le_rfl)
    have hmax : ds.foldl max d = g.offset f p := le_antisymm ((foldl_max_le_iff ds d _).mpr ⟨hd, hds⟩) (hle _ hmem)
    simp only [hmax]

theorem LogState.room_iff (hf : g.fields = some f) :
    (g.refused && !g.full) = true ↔ g.refused = true ∧ (g.producer - g.consumer).toNat < f.entries := by
  have hfull : g.full = decide (f.entries ≤ g.unreleased) := by simp only [LogState.full, hf]
  rw [hfull, Bool.and_eq_true, Bool.not_eq_true', decide_eq_false_iff_not, Nat.not_le]
  rfl

end

/-! ### The collapse set after a release (R168) -/

/-- Whether an open record is unreleased in a log (R168, R170). -/
def OpenFault.standsIn (g : LogState) (o : OpenFault) : Bool := decide ((o.count - g.consumer).toNat < g.unreleased)

theorem OpenFault.dropped_iff {g : LogState} {o : OpenFault} :
    (some o).filter (OpenFault.standsIn g) = none ↔ g.unreleased ≤ (o.count - g.consumer).toNat := by
  unfold OpenFault.standsIn
  rw [Option.filter_some, ← Nat.not_lt]
  by_cases h : (o.count - g.consumer).toNat < g.unreleased
  · simp only [h, decide_true, if_true, reduceCtorEq, not_true]
  · simp only [h, decide_false, Bool.false_eq_true, if_false, not_false_eq_true]

theorem Writer.dropReleased_eq (w : Writer) (k : SourceId) : w.dropReleased k =
    { w with collapse := upd w.collapse k (Option.filter (OpenFault.standsIn w.logs[LogId.fault.idx])) } := by
  have hself : ({ w with collapse := upd w.collapse k id } : Writer) = w :=
    congrArg (fun c => { w with collapse := c }) (upd_self w.collapse k)
  unfold Writer.dropReleased
  split
  · next hnone =>
    refine hself.symm.trans (congrArg (fun c => { w with collapse := c }) ?_)
    simp only [upd, hnone, Option.filter_none, id]
  · next o hsome =>
    dsimp only
    split
    · next hopen =>
      refine hself.symm.trans (congrArg (fun c => { w with collapse := c }) ?_)
      simp only [upd, hsome, Option.filter_some, OpenFault.standsIn, decide_eq_true hopen, if_true, id]
    · next hpassed =>
      simp only [upd, hsome, Option.filter_some, OpenFault.standsIn, decide_eq_false hpassed, Bool.false_eq_true, if_false]

theorem Writer.foldl_dropReleased_collapse (ks : List SourceId) (k : SourceId) : ∀ w : Writer,
    (ks.foldl Writer.dropReleased w).collapse[k] =
      if k ∈ ks then w.collapse[k].filter (OpenFault.standsIn w.logs[LogId.fault.idx]) else w.collapse[k] := by
  induction ks with
  | nil => exact fun _ => rfl
  | cons j ks ih =>
    intro w
    rw [List.foldl_cons, ih, Writer.dropReleased_eq]
    by_cases hkj : k = j
    · subst hkj
      simp only [upd_same, List.mem_cons, true_or, if_true]
      split
      · rw [Option.filter_filter]
        simp only [Bool.and_self]
      · rfl
    · simp only [upd_other _ _ _ _ hkj, List.mem_cons, hkj, false_or]

theorem mem_allSources (k : SourceId) : k ∈ allSources := by
  revert k
  decide

/-! ### What follows a release (R168, R172) -/

theorem LogId.idx_ne {l k : LogId} (h : l ≠ k) : l.idx ≠ k.idx := by
  revert h
  cases l <;> cases k <;> decide

/-- What a release sets going changes no log but its own, and of that the refused mark alone. -/
theorem afterRelease_logs (l : LogId) (s : State) :
    ∃ b, (afterRelease l s).writer.logs = upd s.writer.logs l.idx fun g => { g with refused := b } := by
  have hself : s.writer.logs = upd s.writer.logs l.idx fun g => { g with refused := s.writer.logs[l.idx].refused } :=
    (upd_self _ _).symm
  cases l
  case flaw => exact ⟨_, hself⟩
  case plate =>
    unfold afterRelease
    dsimp only
    split
    · exact ⟨false, rfl⟩
    · exact ⟨_, hself⟩
  case shift =>
    unfold afterRelease
    dsimp only
    split
    · exact ⟨false, rfl⟩
    · exact ⟨_, hself⟩
  case fault => exact ⟨_, (Writer.dropAll_frame allSources s.writer).2.2.1.trans hself⟩

theorem afterRelease_releases (l : LogId) (s : State) : (afterRelease l s).wires.releases = s.wires.releases := by
  unfold afterRelease
  cases l
  case flaw | fault => rfl
  case plate | shift => dsimp only; split <;> rfl

/-- A release in the Fault Log drops the open records it has passed, and no other. -/
theorem afterRelease_collapse (s : State) (k : SourceId) : (afterRelease .fault s).writer.collapse[k] =
    s.writer.collapse[k].filter (OpenFault.standsIn s.writer.logs[LogId.fault.idx]) :=
  (Writer.foldl_dropReleased_collapse allSources k s.writer).trans (if_pos (mem_allSources k))

section
variable {r : Release} {rest : List Release} {s : State}

theorem exec_releaseRequest_none (hr : s.inReset = false) (hrel : s.wires.releases = r :: rest)
    (hnone : releaseTo s.writer.logs[r.log.idx] r.positions = none) :
    exec .releaseRequest s = .next { s with wires := { s.wires with releases := rest } } := by
  refine congrArg Host.Outcome.next ((receivePlain_taken hr hrel).trans ?_)
  unfold takeRelease
  simp only [hnone]

/-- The part once the release at the front has raised its log's consumer, before what follows of it (R168). -/
def State.raised (s : State) (r : Release) (rest : List Release) (c : Word32) : State :=
  State.setLog { s with wires := { s.wires with releases := rest } } r.log
    { s.writer.logs[r.log.idx] with consumer := c }

theorem exec_releaseRequest_some {c : Word32} (hr : s.inReset = false) (hrel : s.wires.releases = r :: rest)
    (hsome : releaseTo s.writer.logs[r.log.idx] r.positions = some c) :
    exec .releaseRequest s = .next (afterRelease r.log (s.raised r rest c)).evalAttn := by
  refine congrArg Host.Outcome.next ((receivePlain_taken hr hrel).trans ?_)
  unfold takeRelease
  simp only [hsome]
  rfl

theorem State.raised_collapse (s : State) (r : Release) (rest : List Release) (c : Word32) :
    (s.raised r rest c).writer.collapse = s.writer.collapse := rfl

theorem State.evalAttn_collapse (s : State) : s.evalAttn.writer.collapse = s.writer.collapse := rfl

theorem State.raised_log (s : State) (r : Release) (rest : List Release) (c : Word32) :
    (s.raised r rest c).writer.logs[r.log.idx] = { s.writer.logs[r.log.idx] with consumer := c } := upd_same _ _ _

theorem State.raised_log_other (s : State) (r : Release) (rest : List Release) (c : Word32) {l : LogId} (hl : l ≠ r.log) :
    (s.raised r rest c).writer.logs[l.idx] = s.writer.logs[l.idx] := upd_other _ _ _ _ (LogId.idx_ne hl)

end

/-! ### Fault records (chapter 11.5, R174) -/

/-- The fields of a fault record (chapter 11.5). -/
def FaultRecord.rows (r : FaultRecord) : List (Nat × List (Nat × Nat)) :=
  [(0x00, [(1, r.source.val), (1, r.firstKind.code), (1, r.lastKind.code),
     (1, (if r.firstValid then 1 else 0) + 2 * if r.lastValid then 1 else 0), (2, r.repeats), (2, r.detailA.toNat),
     (8, r.detailB.toNat), (4, r.firstTime.stamp), (4, r.lastTime.stamp)])]

theorem bitsOf_two (a b : Bool) : bitsOf [a, b] = (if a then 1 else 0) + 2 * if b then 1 else 0 := rfl

theorem FaultRecord.image_eq (r : FaultRecord) : r.image = layout 28 0 (rowParts r.rows) := by
  simp [FaultRecord.image, FaultRecord.rows, rowParts, packFields, bitsOf_two]

theorem FaultRecord.image_shows (r : FaultRecord) :
    imageShows r.image 28 (r.rows.flatMap fun row => fieldsFrom row.1 row.2) := by
  rw [FaultRecord.image_eq]
  refine imageShows_layout ?_ ?_
  · simp [FaultRecord.rows, rowParts, inLayoutOrder]
  · simp [FaultRecord.rows, rowParts, packFields_length]

/-- Settles O52: a fault finds its source's open record or does not (`Writer.openRecord`), a release its newest entry
(`releaseTo`), and what follows a release is `afterRelease`, log by log. -/
theorem faultsAndReleases : Obligations.FaultsAndReleases := by
  refine ⟨fun b m before after s hr hfaults hbefore => ?fault, fun r rest s f hr hrel => ?release, fun r => ?record⟩
  case fault =>
    rw [exec_fault hr hfaults hbefore]
    refine ⟨fun o f ho hf hopen => ?_, fun hnone => ⟨fun f hf hroom => ⟨_, rfl, ?_⟩, fun hfull => ?_⟩⟩
    · unfold takeFault
      rw [Writer.openRecord_some ho hf hopen]
      dsimp only
      rw [State.rewriteFault_eq, State.placeWrite_eq]
      rfl
    · unfold takeFault
      rw [Writer.openRecord_none hnone]
      dsimp only
      rw [LogState.full_eq_false hf hroom]
      let record := newFaultRecord s.writer m
      let opened := State.setOpenFault { s with wires := { s.wires with faults := before ++ after } } m.source
        (some { count := s.writer.logs[LogId.fault.idx].producer, record := record })
      obtain ⟨hlogs, -, hwires, -, hqueued⟩ := State.placeEntry_placed (s := opened) (l := .fault) hf record.image
      have hcollapse : (opened.placeEntry .fault record.image).writer.collapse = opened.writer.collapse := by
        rw [State.placeEntry_eq (s := opened) (l := .fault) hf]
        exact (State.placeWrites_requeued _ _).keeps (·.writer.collapse) fun _ _ _ _ _ _ => rfl
      exact ⟨hlogs, hcollapse, hwires, hqueued⟩
    · unfold takeFault
      rw [Writer.openRecord_none hnone]
      dsimp only
      rw [LogState.full_eq_true hfull]
      rfl
  case release =>
    intro g hf _ offset written
    refine ⟨fun hnone => exec_releaseRequest_none hr hrel (releaseTo_none hf hnone),
      fun p hp hlt hw hnewest => ?_⟩
    intro consumer room
    have hraise : releaseTo s.writer.logs[r.log.idx] r.positions = some consumer :=
      releaseTo_newest hf hp hlt hw hnewest
    clear_value consumer
    obtain ⟨b, hafter⟩ := afterRelease_logs r.log (s.raised r rest consumer)
    have hown : (afterRelease r.log (s.raised r rest consumer)).writer.logs[r.log.idx] =
        { g with consumer := consumer, refused := b } := by
      rw [hafter, upd_same, State.raised_log]
    have hlogs (l : LogId) (hl : l ≠ r.log) :
        (afterRelease r.log (s.raised r rest consumer)).writer.logs[l.idx] = s.writer.logs[l.idx] := by
      rw [hafter, upd_other _ _ _ _ (LogId.idx_ne hl), State.raised_log_other _ _ _ _ hl]
    have hroom : ((s.raised r rest consumer).writer.logs[r.log.idx].refused &&
        !(s.raised r rest consumer).writer.logs[r.log.idx].full) = true ↔ room := by
      rw [State.raised_log]
      exact LogState.room_iff hf
    refine ⟨_, exec_releaseRequest_some hr hrel hraise, afterRelease_releases r.log (s.raised r rest consumer), ?_,
      ?_, ?_, ?_, hlogs, ?_, State.evalAttn_attnRight _⟩
    · simp only [State.evalAttn_path, afterRelease_frame]
      rfl
    · exact congrArg LogState.consumer hown
    · exact (congrArg LogState.producer hown).trans rfl
    · exact (congrArg LogState.written hown).trans rfl
    · obtain ⟨l, positions⟩ := r
      cases l
      case plate | shift =>
        refine ⟨fun h => ?_, fun h => ?_⟩
        · unfold afterRelease
          dsimp only
          rw [if_pos (hroom.mpr h)]
          exact ⟨rfl, congrArg LogState.refused (upd_same _ _ _)⟩
        · unfold afterRelease
          dsimp only
          rw [if_neg (hroom.not.mpr h)]
          rfl
      case flaw => rfl
      case fault =>
        intro k o ho
        have hcollapse := afterRelease_collapse (s.raised ⟨.fault, positions⟩ rest consumer) k
        rw [State.raised_log s ⟨.fault, positions⟩, State.raised_collapse, ho] at hcollapse
        rw [State.evalAttn_collapse, hcollapse]
        exact OpenFault.dropped_iff
  case record =>
    intro bit code
    have hcode : code = FaultKind.code := by
      funext k
      cases k <;> rfl
    have hshows := r.image_shows
    rw [hcode]
    exact hshows

end Sys2Proof.Machine
end

section
/-! The Record Writer's second tick, the writes of a status page, and what each byte of the page shows (R143, R157, R170,
R171, R174, R176); with them O25. -/

namespace Sys2Proof.Machine

/-! ### The second tick (R170, R171) -/

/-- The part as a second tick at the Record Writer leaves it before the page is queued (R170). -/
def State.writerTicked (s : State) (n : Nat) : State :=
  { s with
    wires := { s.wires with writerTicks := n }
    writer := { s.writer with calendar := s.shift.calendar, clockValid := s.shift.valid } }

theorem exec_writerSecondTick {s : State} {n : Nat} (hr : s.inReset = false) (hticks : s.wires.writerTicks = n + 1) :
    exec .writerSecondTick s = .next (s.writerTicked n).writePage := by
  refine congrArg Host.Outcome.next ((live_out hr).trans ?_)
  rw [if_neg (by omega), writerSecond, hticks]
  rfl

/-- A page shows neither the page sequence nor the Record Writer's calendar (R171). -/
theorem State.pageImage_congr (s : State) (w : Writer) (q : Word32) (hlogs : w.logs = s.writer.logs)
    (hflaw : w.flawLost = s.writer.flawLost) (hfault : w.faultLost = s.writer.faultLost)
    (hlast : w.lastCompletion = s.writer.lastCompletion) :
    State.pageImage { s with writer := w } q = s.pageImage q := by
  have hwriter : w.page s.cmd.seen = s.writer.page s.cmd.seen := by
    simp only [Writer.page, hlogs, hflaw, hfault, hlast]
  simp only [State.pageImage, hwriter]

theorem State.writePage_queued (s : State) : s.writePage.path.internal ++ s.writePage.writer.waiting =
    s.path.internal ++ s.writer.waiting ++
      pageTxns (s.path.anchorBase + 0x8100) (s.pageImage (s.writer.pageSeq + 1)) := by
  unfold State.writePage State.writePageOf
  dsimp only [id]
  rw [State.placeWrites_queued, s.pageImage_congr _ _ rfl rfl rfl rfl]
  rfl

/-! ### The writes of a page (R143, R176) -/

/-- Writes that follow one another from an address without a break. -/
def contiguousFrom : Nat → List Txn → Prop
  | _, [] => True
  | a, t :: ts => t.addr = a ∧ contiguousFrom (a + t.data.length) ts

theorem contiguousFrom_append {ts us : List Txn} : ∀ {a : Nat}, contiguousFrom a ts →
    contiguousFrom (a + (ts.flatMap (·.data)).length) us → contiguousFrom a (ts ++ us) := by
  induction ts with
  | nil => exact fun _ hus => hus
  | cons t ts ih =>
    intro a hts hus
    obtain ⟨ht, hts⟩ := hts
    rw [List.flatMap_cons, List.length_append, ← Nat.add_assoc] at hus
    exact ⟨ht, ih hts hus⟩

theorem contiguousFrom_next {ts : List Txn} {t u : Txn} : ∀ {a i : Nat}, contiguousFrom a ts → ts[i]? = some t →
    ts[i + 1]? = some u → u.addr = t.addr + t.data.length := by
  induction ts with
  | nil => exact fun _ ht => nomatch ht
  | cons x ts ih =>
    intro a i hts ht hu
    obtain ⟨hx, hts⟩ := hts
    cases i with
    | succ i => exact ih hts ht hu
    | zero =>
      obtain rfl : x = t := Option.some.inj ht
      cases ts with
      | nil => cases hu
      | cons y ts =>
        obtain rfl : y = u := Option.some.inj hu
        rw [hts.1, hx]

theorem chunks_contiguous (tag : TxnTag) : ∀ (fuel a : Nat) (data : List Byte),
    contiguousFrom a (chunks tag fuel a data) := by
  intro fuel
  induction fuel with
  | zero => exact fun _ _ => trivial
  | succ fuel ih =>
    intro a data
    unfold chunks
    split
    · exact ⟨rfl, trivial⟩
    · have hlen : (data.take 128).length = 128 := by rw [List.length_take]; omega
      refine ⟨rfl, ?_⟩
      rw [Txn.full, hlen]
      exact ih (a + 128) (data.drop 128)

theorem pageTxns_contiguous {image : List Byte} (himage : image.length = 1024) (a : Nat) :
    contiguousFrom a (pageTxns a image) := by
  have hfirst : (image.take 8).length = 8 := by simp [himage]
  have hbody := chunks_data .page 8 (a + 8) ((image.drop 8).take 1008) (by simp)
  have hlen : ((image.drop 8).take 1008).length = 1008 := by simp [himage]
  refine ⟨rfl, ?_⟩
  rw [Txn.full, hfirst]
  refine contiguousFrom_append (chunks_contiguous .page 8 (a + 8) _) ⟨?_, trivial⟩
  rw [hbody, hlen]
  rfl

/-- A write of up to 16 beats with every byte enabled (R143). -/
def Txn.isFull (t : Txn) : Prop :=
  t.write = true ∧ t.enables = List.replicate t.data.length true ∧ t.data.length ≤ 128

theorem Txn.full_isFull (tag : TxnTag) (a : Nat) {data : List Byte} (h : data.length ≤ 128) :
    (Txn.full tag a data).isFull := ⟨rfl, rfl, h⟩

theorem chunks_isFull (tag : TxnTag) : ∀ (fuel a : Nat) (data : List Byte),
    ∀ t ∈ chunks tag fuel a data, t.isFull := by
  intro fuel
  induction fuel with
  | zero => exact fun _ _ _ ht => nomatch ht
  | succ fuel ih =>
    intro a data t ht
    unfold chunks at ht
    split at ht
    · next h => rw [List.mem_singleton.mp ht]; exact Txn.full_isFull tag a h
    · rcases List.mem_cons.mp ht with rfl | ht
      · exact Txn.full_isFull tag a (by rw [List.length_take]; omega)
      · exact ih _ _ t ht

theorem pageTxns_isFull {image : List Byte} (himage : image.length = 1024) (a : Nat) :
    ∀ t ∈ pageTxns a image, t.isFull := by
  intro t ht
  rcases List.mem_cons.mp ht with rfl | ht
  · exact Txn.full_isFull .page a (by rw [List.length_take]; omega)
  · rcases List.mem_append.mp ht with ht | ht
    · exact chunks_isFull .page 8 _ _ t ht
    · rw [List.mem_singleton.mp ht]
      exact Txn.full_isFull .page _ (by rw [List.length_drop]; omega)

/-! ### Fields shown and bytes reserved (R174) -/

/-- Items one after another, each given by its size and the value it shows, if it is not reserved. -/
def packItems (items : List (Nat × Option Nat)) : List Byte := packFields (items.map fun x => (x.1, x.2.getD 0))

/-- The offset, size and value of each item that is not reserved, the first item at an offset. -/
def itemsFrom : Nat → List (Nat × Option Nat) → List (Nat × Nat × Nat)
  | _, [] => []
  | o, (n, none) :: items => itemsFrom (o + n) items
  | o, (n, some v) :: items => (o, n, v) :: itemsFrom (o + n) items

theorem itemsFrom_subset {items : List (Nat × Option Nat)} {f : Nat × Nat × Nat} : ∀ {o : Nat},
    f ∈ itemsFrom o items → f ∈ fieldsFrom o (items.map fun x => (x.1, x.2.getD 0)) := by
  induction items with
  | nil => exact fun hf => hf
  | cons x items ih =>
    obtain ⟨n, v⟩ := x
    intro o hf
    cases v with
    | none => exact List.mem_cons_of_mem _ (ih hf)
    | some v => exact (List.mem_cons.mp hf).elim (fun h => h ▸ List.mem_cons_self) fun hf => List.mem_cons_of_mem _ (ih hf)

/-- A field that is not shown is reserved, and zero. -/
theorem mem_itemsFrom_or_zero {items : List (Nat × Option Nat)} {f : Nat × Nat × Nat} : ∀ {o : Nat},
    f ∈ fieldsFrom o (items.map fun x => (x.1, x.2.getD 0)) → f ∈ itemsFrom o items ∨ f.2.2 = 0 := by
  induction items with
  | nil => exact fun hf => .inl hf
  | cons x items ih =>
    obtain ⟨n, v⟩ := x
    intro o hf
    cases v with
    | none => exact (List.mem_cons.mp hf).elim (fun h => .inr (h ▸ rfl)) ih
    | some v =>
      exact (List.mem_cons.mp hf).elim (fun h => .inl (h ▸ List.mem_cons_self)) fun hf =>
        (ih hf).imp_left (List.mem_cons_of_mem _)

theorem byteAt_eq_zero_of_field {image : List Byte} {n : Nat} : ∀ {o i : Nat},
    field image o n = 0 → o ≤ i → i < o + n → byteAt image i = 0 := by
  induction n with
  | zero => exact fun _ hle hlt => absurd hlt (Nat.not_lt.mpr hle)
  | succ n ih =>
    intro o i hfield hle hlt
    have hsplit : byteAt image o + 256 * field image (o + 1) n = 0 := hfield
    rcases Nat.eq_or_lt_of_le hle with rfl | hgt
    · omega
    · exact ih (o := o + 1) (by omega) hgt (by omega)

/-- An image may be said to show fewer fields, when those left out are zero. -/
theorem imageShows_of_zeros {image : List Byte} {size : Nat} {all shown : List (Nat × Nat × Nat)}
    (h : imageShows image size all) (hsub : ∀ f ∈ shown, f ∈ all) (hzero : ∀ f ∈ all, f ∈ shown ∨ f.2.2 = 0) :
    imageShows image size shown := by
  obtain ⟨hlen, hfields, hrest⟩ := h
  refine ⟨hlen, fun f hf => hfields f (hsub f hf), fun i hi hout => ?_⟩
  by_cases hin : ∀ f ∈ all, i < f.1 ∨ f.1 + f.2.1 ≤ i
  · exact hrest i hi hin
  · obtain ⟨f, hf, hwithin⟩ : ∃ f ∈ all, ¬ (i < f.1 ∨ f.1 + f.2.1 ≤ i) := by
      simpa only [not_forall, exists_prop] using hin
    have hval : f.2.2 = 0 := (hzero f hf).resolve_left fun hshown => hwithin (hout f hshown)
    have hfield := hfields f hf
    rw [hval, Nat.zero_mod] at hfield
    exact byteAt_eq_zero_of_field hfield (by omega) (by omega)

/-- The parts of an image laid out from rows of items, each row at an offset. -/
def itemParts (rows : List (Nat × List (Nat × Option Nat))) : List (Nat × List Byte) :=
  rows.map fun r => (r.1, packItems r.2)

/-- An image of rows of items in rising order that end within it shows the items that are not reserved and no other byte. -/
theorem imageShows_items {size : Nat} {rows : List (Nat × List (Nat × Option Nat))}
    (horder : inLayoutOrder 0 (itemParts rows) = true) (hend : ∀ p ∈ itemParts rows, p.1 + p.2.length ≤ size) :
    imageShows (layout size 0 (itemParts rows)) size (rows.flatMap fun r => itemsFrom r.1 r.2) := by
  have hparts : itemParts rows = rowParts (rows.map fun r => (r.1, r.2.map fun x => (x.1, x.2.getD 0))) := by
    simp only [itemParts, rowParts, List.map_map]
    rfl
  rw [hparts] at horder hend ⊢
  refine imageShows_of_zeros (imageShows_layout horder hend) (fun f hf => ?_) fun f hf => ?_
  · obtain ⟨r, hr, hf⟩ := List.mem_flatMap.mp hf
    exact List.mem_flatMap.mpr ⟨_, List.mem_map_of_mem hr, itemsFrom_subset hf⟩
  · obtain ⟨r', hr', hf⟩ := List.mem_flatMap.mp hf
    obtain ⟨r, hr, rfl⟩ := List.mem_map.mp hr'
    exact (mem_itemsFrom_or_zero hf).imp_left fun hf => List.mem_flatMap.mpr ⟨r, hr, hf⟩


/-! ### Values as the page shows them (R174) -/

theorem flagByte_eq (b : Bool) : flagByte b = le 1 (if b then 1 else 0) := by
  cases b <;> rfl

theorem zeros_eq_le (n : Nat) : zeros n = le n 0 := by
  induction n with
  | zero => rfl
  | succ n ih => exact congrArg (0 :: ·) ih

theorem le_sixteen_zero : le 16 0 = le 8 0 ++ le 8 0 := rfl

theorem distinctCount_eq_dedup (xs : List Nat) : distinctCount xs = xs.dedup.length := by
  induction xs with
  | nil => rfl
  | cons x xs ih =>
    rw [distinctCount, ih]
    by_cases h : x ∈ xs
    · simp [h]
    · simp [h, Nat.add_comm]

theorem parseSeq_toNat (image : List Byte) : (parseSeq image).toNat = field image 0xF8 4 := by
  have hlt : field image 0xF8 4 < 256 ^ 4 := fromLe_lt _
  exact BitVec.toNat_ofNat _ _ |>.trans (Nat.mod_eq_of_lt hlt)

theorem toList_eq_map_lanes {α : Type} (v : Vector α 8) : v.toList = allLanes.map fun k => v[k] := by
  have hall : allLanes = List.finRange 8 := by decide
  rw [hall]
  exact List.ext_getElem (by simp) (by simp)

theorem Assembler.frontier_eq_least (a : Assembler) : a.frontier = least a.settled.toList := by
  rw [toList_eq_map_lanes, least, List.foldl_map]
  rfl

theorem Copies.activeSeq_eq {α : Type} (c : Copies α) : c.activeSeq = ((c.active.map (·.seq)).map (·.toNat)).getD 0 := by
  unfold Copies.activeSeq
  cases c.active <;> rfl

theorem isSome_getLast? {α : Type} (xs : List α) : xs.getLast?.isSome = decide (xs ≠ []) := by
  cases xs with
  | nil => rfl
  | cons x xs => simp

/-! ### The page of each block (chapter 11.6) -/

/-- The items of one live group's status (R166). -/
def groupItems {α : Type} (c : Command) (g : GroupId) (k : Copies α) : List (Nat × Option Nat) :=
  [(4, some (((k.active.map (·.seq)).map (·.toNat)).getD 0)),
   (4, some ((c.mirror[g.idx].map fun m => field m.image 0xF8 4).getD 0)),
   (1, some (if k.eligible.isSome then 1 else 0)), (1, some (if c.invalid[g.idx] then 1 else 0)), (2, none)]

theorem groupStatus_eq {α : Type} (c : Command) (g : GroupId) (k : Copies α) :
    groupStatus c g k = packItems (groupItems c g k) := by
  have hmirror : (match c.mirror[g.idx] with | none => 0 | some m => (parseSeq m.image).toNat) =
      (c.mirror[g.idx].map fun m => field m.image 0xF8 4).getD 0 := by
    cases c.mirror[g.idx] with
    | none => rfl
    | some m => exact parseSeq_toNat m.image
  simp only [groupStatus, Copies.activeSeq_eq, flagByte_eq, zeros_eq_le]
  simp [packItems, groupItems, packFields]
  exact congrArg (le 4) hmirror

/-- The Command Unit's items (R166, R171). -/
def Command.items (c : Command) : List (Nat × Option Nat) :=
  [(1, some c.runState.code), (1, some (reasonCode c.lastReason)), (2, some c.run.toNat), (4, some c.post.toNat),
   (4, some c.taken.toNat), (4, some c.completion.toNat)] ++
  groupItems c .detect c.detect ++ groupItems c .plan c.plan ++ groupItems c .grade c.grade ++
  groupItems c .strike c.strike ++ groupItems c .clock c.clock

theorem packItems_append (xs ys : List (Nat × Option Nat)) : packItems (xs ++ ys) = packItems xs ++ packItems ys := by
  rw [packItems, List.map_append, packFields, List.flatMap_append]
  rfl

theorem Command.page_eq (c : Command) : c.page = packItems c.items := by
  simp only [Command.page, Command.items, packItems_append, ← groupStatus_eq]
  simp [packItems, packFields, leAll]

/-- The Path Unit's items (R158). -/
def Path.items (p : Path) : List (Nat × Option Nat) :=
  [(8, some p.anchorBase), (1, some (if p.map.isSome then 1 else 0)), (1, some p.queue.length),
   (1, some (p.queue.filter (·.held)).length), (1, some p.internal.length),
   (1, some (p.rewrites.map (·.position)).dedup.length), (3, none), (4, some p.forwarded), (4, some p.refused),
   (4, some p.heldReads)]

theorem Path.page_eq (p : Path) : p.page = packItems p.items := by
  simp only [Path.page, distinctCount_eq_dedup, flagByte_eq, zeros_eq_le]
  simp [packItems, Path.items, packFields, leAll]

/-- The Travel Unit's items (R15). -/
def Travel.items (t : Travel) : List (Nat × Option Nat) :=
  [(8, some t.pos), (4, some t.count), (4, some t.speed), (4, some t.quadErrors),
   (1, some (if decide (t.motion = .stopped) then 1 else 0)), (1, some (if t.positionLimit then 1 else 0))]

theorem Travel.page_eq (t : Travel) : t.page = packItems t.items := by
  simp only [Travel.page, flagByte_eq]
  simp [packItems, Travel.items, packFields, leAll]

/-- One lane's items, the Lane Unit's and the engine's for it (R29, R57). -/
def laneItems (l : Lane) (e : EngineLane) : List (Nat × Option Nat) :=
  [(1, some l.state.code), (1, some (if l.enabled then 1 else 0)), (1, some (if l.seeded then 1 else 0)), (1, none),
   (4, some l.settled), (4, some l.counters.completed), (4, some l.counters.declared), (4, some l.counters.stale),
   (4, some l.counters.torn), (4, some l.counters.overruns), (4, some l.counters.dropouts), (1, some e.join.length),
   (3, none), (4, some e.crowded)]

theorem lanePage_eq (l : Lane) (e : EngineLane) : lanePage l e = packItems (laneItems l e) := by
  simp only [lanePage, layout, flagByte_eq, zeros_eq_le]
  simp [packItems, laneItems, packFields, leAll, le]

/-- The Pixel Engine's items (R57). -/
def Engine.items (e : Engine) : List (Nat × Option Nat) :=
  [(1, some (if e.analysis.isSome then 1 else 0)), (1, some e.ready.length)]

theorem Engine.page_eq (e : Engine) : e.page = packItems e.items := by
  simp only [Engine.page, flagByte_eq]
  simp [packItems, Engine.items, packFields]

/-- The Blob Assembler's items (R78). -/
def Assembler.items (a : Assembler) : List (Nat × Option Nat) :=
  [(4, some (least a.settled.toList)), (4, some a.joined), (1, some a.blobs.length), (1, some a.gaps.length),
   (2, some a.table.length), (1, some (if a.overflow.isSome then 1 else 0)), (3, none),
   (8, some ((a.overflow.map (·.lo)).getD 0)), (8, some ((a.overflow.map (·.hi)).getD 0)), (4, some a.nextFlaw),
   (4, some a.forced), (4, some a.truncated)]

theorem Assembler.page_eq (a : Assembler) : a.page = packItems a.items := by
  simp only [Assembler.page, Assembler.frontier_eq_least, flagByte_eq, zeros_eq_le]
  cases ho : a.overflow <;> simp [packItems, Assembler.items, packFields, leAll, ho, le_sixteen_zero]

/-- The Cut Planner's items (R100). -/
def Planner.items (p : Planner) : List (Nat × Option Nat) :=
  [(1, some (p.pieces.length + if p.openPiece.isSome then 1 else 0)),
   (1, some (p.pieces.filter fun q => decide (q.state = .waitingLog)).length), (1, some p.cuts.length),
   (1, some (p.cuts.filter (·.committed)).length), (1, some (if p.overdue then 1 else 0)), (1, some p.runEnd.code),
   (1, some (if p.openPiece.isSome then 1 else 0)), (1, none), (8, some ((p.openPiece.map (·.head)).getD 0)),
   (8, some ((p.openPiece.map fun o => o.head + o.sizes.l1).getD 0)),
   (8, some (p.cf.getD 0 % (256 ^ 8 : Nat)).toNat), (8, some p.frontier), (4, some p.nextPiece)]

theorem Planner.page_eq (p : Planner) : p.page = packItems p.items := by
  simp only [Planner.page, Planner.count, flagByte_eq, zeros_eq_le, leSigned]
  cases ho : p.openPiece <;> simp [packItems, Planner.items, packFields, OpenPiece.candidate, ho, le_sixteen_zero]

/-- The Strike Unit's items (R113). -/
def Strike.items (t : Strike) : List (Nat × Option Nat) :=
  [(1, some (if t.score.level then 1 else 0)), (1, some (if t.snap.level then 1 else 0)),
   (1, some (if t.gate.level then 1 else 0)), (1, some (if t.claiming.isSome then 1 else 0)),
   (1, some (if t.offered.isSome then 1 else 0)), (1, some t.track.length), (1, some t.gates.length),
   (1, some (if decide (t.gates ≠ []) then 1 else 0)), (8, some (t.offered.getD 0)),
   (8, some ((t.gates.getLast?.map (·.start)).getD 0)), (8, some ((t.gates.getLast?.map (·.stop)).getD 0)),
   (4, some t.strikes), (4, some t.withdrawn), (4, some t.merges)]

theorem Strike.page_eq (t : Strike) : t.page = packItems t.items := by
  simp only [Strike.page, flagByte_eq, isSome_getLast?, zeros_eq_le]
  cases hg : t.gates.getLast? <;> simp [packItems, Strike.items, packFields, leAll, hg, le_sixteen_zero]

/-- The Grading Unit's items (R127). -/
def Grading.items (g : Grading) : List (Nat × Option Nat) :=
  [(1, some g.state.view.1), (1, some (if g.state.view.2.isSome then 1 else 0)), (1, some g.queue.length),
   (1, some g.outbound.length), (1, some (if g.outstanding then 1 else 0)), (1, some (if g.logFull then 1 else 0)),
   (2, none), (4, some (g.state.view.2.getD 0)), (4, some g.graded), (4, some g.held)]

theorem Grading.page_eq (g : Grading) : g.page = packItems g.items := by
  simp only [Grading.page, flagByte_eq, zeros_eq_le]
  simp [packItems, Grading.items, packFields, leAll]

/-- The Shift Unit's items (R141). -/
def Shift.items (t : Shift) : List (Nat × Option Nat) :=
  [(2, some t.calendar.year), (1, some t.calendar.month), (1, some t.calendar.day), (1, some t.calendar.weekday),
   (1, some t.calendar.hour), (1, some t.calendar.minute), (1, some t.calendar.second),
   (1, some (if t.valid then 1 else 0)), (1, some (t.trim % (256 ^ 1 : Nat)).toNat),
   (1, some (if t.table.isSome then 1 else 0)), (1, some t.tally.slot.code), (1, some t.hold.view.1), (3, none),
   (4, some t.number.toNat), (2, some t.run.toNat), (2, some t.tally.merged), (4, some t.tally.start.stamp),
   (4, some t.hold.view.2)]

theorem Shift.page_eq (t : Shift) : t.page = packItems t.items := by
  simp only [Shift.page, flagByte_eq, zeros_eq_le, leSigned]
  simp [packItems, Shift.items, packFields, leAll]

/-- One log's items (R171). -/
def LogState.items (g : LogState) : List (Nat × Option Nat) :=
  [(4, some g.producer.toNat), (4, some g.consumer.toNat), (4, some (g.producer - g.consumer).toNat),
   (4, some g.nextSeq.toNat)]

theorem LogState.page_eq (g : LogState) : g.page = packItems g.items := by
  simp [LogState.page, LogState.unreleased, packItems, LogState.items, packFields, leAll]

/-- The Record Writer's items, with the seen word (R171). -/
def Writer.items (w : Writer) (seen : Word32) : List (Nat × Option Nat) :=
  (allLogs.flatMap fun l => w.logs[l.idx].items) ++
    [(4, some w.flawLost), (4, some w.faultLost), (4, some w.lastCompletion.toNat), (4, some seen.toNat)]

theorem packItems_flatMap {α : Type} (xs : List α) (items : α → List (Nat × Option Nat)) :
    packItems (xs.flatMap items) = xs.flatMap fun x => packItems (items x) := by
  induction xs with
  | nil => rfl
  | cons x xs ih => rw [List.flatMap_cons, packItems_append, ih, List.flatMap_cons]

theorem Writer.page_eq (w : Writer) (seen : Word32) : w.page seen = packItems (w.items seen) := by
  simp only [Writer.page, Writer.items, packItems_append, packItems_flatMap, LogState.page_eq]
  simp [packItems, packFields, leAll]

/-! ### The page (R171, R176) -/

/-- The rows of a status page (chapter 11.6). -/
def State.pageRows (s : State) (q : Word32) : List (Nat × List (Nat × Option Nat)) :=
  [(0x000, [(4, some q.toNat)]), (0x008, s.cmd.items), (0x058, s.path.items), (0x078, s.travel.items),
   (0x090, allLanes.flatMap fun k => laneItems s.lanes[k] s.engine.lanes[k]), (0x1D0, s.engine.items),
   (0x1D8, s.asm.items), (0x208, s.planner.items), (0x238, s.strike.items), (0x268, s.grading.items),
   (0x280, s.shift.items), (0x2A0, s.writer.items s.cmd.seen), (0x3F8, [(4, some q.toNat)])]

theorem State.pageParts_eq (s : State) (q : Word32) : s.pageParts q = itemParts (s.pageRows q) := by
  have hseq : packItems [(4, some q.toNat)] = le 4 q.toNat := by simp [packItems, packFields]
  simp only [State.pageParts, State.pageRows, itemParts, List.map_cons, List.map_nil, hseq, packItems_flatMap, lanePage_eq,
    Command.page_eq, Path.page_eq, Travel.page_eq, Engine.page_eq, Assembler.page_eq, Planner.page_eq, Strike.page_eq,
    Grading.page_eq, Shift.page_eq, Writer.page_eq]

theorem State.pageImage_shows (s : State) (q : Word32) :
    imageShows (s.pageImage q) 1024 ((s.pageRows q).flatMap fun r => itemsFrom r.1 r.2) := by
  obtain ⟨horder, hend⟩ := s.pageParts_fit q
  rw [State.pageParts_eq] at horder hend
  rw [State.pageImage_eq, State.pageParts_eq]
  exact imageShows_items horder hend

theorem slice_eq_take_drop {bytes : List Byte} {n : Nat} : ∀ {o : Nat}, o + n ≤ bytes.length →
    slice bytes o n = (bytes.drop o).take n := by
  induction n with
  | zero => exact fun _ => List.take_zero.symm
  | succ n ih =>
    intro o h
    have ho : o < bytes.length := by omega
    rw [slice, ih (by omega), List.drop_eq_getElem_cons ho, List.take_succ_cons, List.getD_eq_getElem _ _ ho]

/-- The page ends with its sequence word (R176). -/
theorem State.pageImage_end (s : State) (q : Word32) : ((s.pageImage q).drop 0x3F8).take 4 = le 4 q.toNat := by
  have hlen := s.pageImage_length q
  have hfield : field (s.pageImage q) 0x3F8 4 = q.toNat % 256 ^ 4 :=
    (s.pageImage_shows q).2.1 (0x3F8, 4, q.toNat) (by simp [State.pageRows, itemsFrom])
  rw [Nat.mod_eq_of_lt (show q.toNat < 256 ^ 4 from q.isLt)] at hfield
  rw [← slice_eq_take_drop (by omega), ← hfield, field]
  exact (le_fromLe (slice (s.pageImage q) 0x3F8 4)).symm

/-- Settles O25: a tick queues `State.pageImage` behind what waits; the image is laid out from the blocks' rows of items, and
its writes are contiguous and full. -/
theorem secondTickWritesThePage : Obligations.SecondTickWritesThePage := by
  refine ⟨fun s n hr hticks => ?tick, fun s q a => ?writes, ⟨rfl, rfl, rfl⟩, fun s q => ?shows⟩
  case tick =>
    have hrequeued := (s.writerTicked n).writePage_requeued
    have hqueued := (s.writerTicked n).writePage_queued
    have himage : (s.writerTicked n).pageImage (s.writer.pageSeq + 1) = s.pageImage (s.writer.pageSeq + 1) :=
      s.pageImage_congr { s.writer with calendar := s.shift.calendar, clockValid := s.shift.valid } _ rfl rfl rfl rfl
    refine ⟨_, exec_writerSecondTick hr hticks, congrArg Wires.writerTicks (State.writePage_wires _),
      hrequeued.keeps (·.writer.calendar) fun _ _ _ _ _ _ => rfl,
      hrequeued.keeps (·.writer.clockValid) fun _ _ _ _ _ _ => rfl, State.writePage_pageSeq _, ?_,
      (s.writerTicked n).writePage_bound, hrequeued.keeps State.shift fun _ _ _ _ _ _ => rfl, State.writePage_cmd _⟩
    rw [← himage]
    exact hqueued
  case writes =>
    have himage := s.pageImage_length q
    refine ⟨himage, s.pageImage_take q, s.pageImage_end q, pageTxns_data _ a, ?_, ?_, pageTxns_isFull himage a,
      fun i t u => contiguousFrom_next (pageTxns_contiguous himage a)⟩
    · simp [pageTxns, Txn.full, himage]
    · rw [pageTxns, ← List.cons_append, List.getLast?_concat]
      simp [Txn.full, himage]
  case shows =>
    intro bit signed seqs command path travel lanes detection planner strike inGrading grading inHold shift writer
    have hshows := s.pageImage_shows q
    simp only [State.pageRows, List.flatMap_cons, List.flatMap_nil, List.append_nil] at hshows
    have hcommand : itemsFrom 0x008 s.cmd.items = command := rfl
    have hpath : itemsFrom 0x058 s.path.items = path := rfl
    have htravel : itemsFrom 0x078 s.travel.items = travel := rfl
    have hlanes : itemsFrom 0x090 (allLanes.flatMap fun k => laneItems s.lanes[k] s.engine.lanes[k]) = lanes := rfl
    have hdetection : itemsFrom 0x1D0 s.engine.items ++ itemsFrom 0x1D8 s.asm.items = detection := rfl
    have hplanner : itemsFrom 0x208 s.planner.items = planner := rfl
    have hstrike : itemsFrom 0x238 s.strike.items = strike := rfl
    have hgrading : itemsFrom 0x268 s.grading.items = grading := rfl
    have hshift : itemsFrom 0x280 s.shift.items = shift := rfl
    have hwriter : itemsFrom 0x2A0 (s.writer.items s.cmd.seen) = writer := rfl
    rw [← hcommand, ← hpath, ← htravel, ← hlanes, ← hdetection, ← hplanner, ← hstrike, ← hgrading, ← hshift,
      ← hwriter]
    simp only [List.append_assoc]
    exact hshows

end Sys2Proof.Machine
end
